-- ==== Sys2Proof/Word.lean ====
section
/-! DEFINITION. The words of the VZ-6048: bytes, engine words, vectors, bit fields of register values, and the signed 48-bit time difference. -/

namespace Sys2Proof

/-- One byte. -/
abbrev Byte := BitVec 8

/-- A 32-bit register or instruction word. -/
abbrev W32 := BitVec 32

/-- A Lanibex g register (64 bits). -/
abbrev W64 := BitVec 64

/-- A Lanibex w register: 64 bytes, byte `i` in bits `8i+7:8i`. -/
abbrev Vec := BitVec 512

/-- Signed 48-bit difference of two wrapping 48-bit counts (00_scope.md, `time_diff`). -/
def timeDiff (a b : Nat) : Int :=
  let d : Nat := (a % 2 ^ 48 + 2 ^ 48 - b % 2 ^ 48) % 2 ^ 48
  if 2 ^ 47 ≤ d then (d : Int) - 2 ^ 48 else (d : Int)

/-- Add in a 48-bit wrapping count. -/
def add48 (a b : Nat) : Nat := (a + b) % 2 ^ 48

/-- Bits `[lo+w-1:lo]` of a number. -/
def bits (v lo w : Nat) : Nat := v / 2 ^ lo % 2 ^ w

/-- Bit `i` of a number. -/
def bitAt (v i : Nat) : Bool := v / 2 ^ i % 2 == 1

/-- One bit as a number. -/
def b2n (b : Bool) : Nat := if b then 1 else 0

/-- Add, saturating at the top of a `w`-bit counter. -/
def satAdd (w a b : Nat) : Nat := min (a + b) (2 ^ w - 1)

/-- A number read as a two's complement value of `w` bits. -/
def toSigned (w v : Nat) : Int := if 2 ^ (w - 1) ≤ v % 2 ^ w then (v % 2 ^ w : Int) - 2 ^ w else (v % 2 ^ w : Int)

/-- An integer as the `w` bits of its two's complement. -/
def ofSigned (w : Nat) (i : Int) : Nat := (i % (2 ^ w : Int)).toNat

/-- An integer held within plus and minus `m`. -/
def satInt (m : Nat) (i : Int) : Int := max (-(m : Int)) (min (m : Int) i)

/-- The little-endian bytes of a number (R4). -/
def leBytes : Nat → Nat → List Byte
  | 0, _ => []
  | n + 1, v => BitVec.ofNat 8 v :: leBytes n (v / 256)

/-- The number that bytes spell, lowest byte first (R4). -/
def ofLe : List Byte → Nat
  | [] => 0
  | b :: r => b.toNat + 256 * ofLe r

/-- The number that bytes spell, highest byte first (R5, R6). -/
def ofBe (l : List Byte) : Nat := ofLe l.reverse

/-- The big-endian bytes of a number. -/
def beBytes (n v : Nat) : List Byte := (leBytes n v).reverse

end Sys2Proof
end

