-- ==== Sys2Proof/Operand.lean ====
section
/-! DEFINITION. The operand types of the commands of Syntax.lean: who acts, what is addressed, and what an outside agent brings. -/

namespace Sys2Proof

/-- An engine: 0–15 are SE0–SE15, 16–19 are TE0–TE3 (R138 table). -/
abbrev Eng := Fin 20

/-- A stripe engine SE0–SE15. -/
abbrev Se := Fin 16

/-- A network port N0–N3, and its Treadle engine TE0–TE3. -/
abbrev Port := Fin 4

/-- A PCIe function: `64 × port + function` (06, "Registers"); function 0 of a port is its physical function. -/
abbrev Fn := Fin 128

/-- A doorbell group of a function page: 0 is the admin queue, `q + 1` is I/O queue `q`. -/
abbrev Grp := Fin 257

/-- A Draft record index of a physical function's view (R66). -/
abbrev Rec := Fin 93

/-- A member drive m0–m47. -/
abbrev Mbr := Fin 48

/-- An array A0–A15. -/
abbrev Arr := Fin 16

/-- A Shuttle channel SH0–SH63. -/
abbrev Chan := Fin 64

/-- Who writes a register (R57). -/
inductive Who
  | fn (f : Fn)
  | firmware
  | jtag
deriving DecidableEq, Repr

/-- Where a register access lands. `block` is a block offset inside a Draft record, `page` an offset in a function's WQ_ page,
`hole` an offset inside BAR0 that no Draft record covers (R56). -/
inductive Target
  | block (r : Rec) (off : Nat)
  | page (f : Fn) (off : Nat)
  | hole
deriving DecidableEq, Repr

/-- One register write on the link (R52, R53): `size` bytes at `tgt`, `full` when the byte enables cover every 32-bit word of it. -/
structure Access where
  who : Who
  tgt : Target
  size : Nat
  full : Bool
  value : W64
deriving DecidableEq, Repr

/-- How a read of host memory ends (R299, R300): the code is the DETAIL of ST_HOST_ACCESS. -/
inductive HostErr
  | ur | ca | poisoned | timeout
deriving DecidableEq, Repr

/-- The result of the read of one 64-byte entry. -/
inductive FetchResult
  | ok (entry : BitVec 512)
  | err (e : HostErr)
deriving DecidableEq, Repr

/-- The result of the fetch of a command's data from host memory (R334): the bytes as the host buffer holds them. -/
inductive DataResult
  | ok (bytes : List Byte)
  | err (e : HostErr)
deriving DecidableEq, Repr

/-- What a LAND of a stock program met (R189): the partner's confirmation, or a role change, or the limit. In ALONE a landing needs no
confirmation (R185), whatever the operand says. -/
inductive LandResult
  | confirmed | fenced | limit
deriving DecidableEq, Repr

/-- One received frame (R588, R589): the times are schedule time in ns. -/
structure Frame where
  port : Port
  first : BitVec 48
  last : BitVec 48
  dmac : BitVec 48
  smac : BitVec 48
  tagged : Bool
  vid : BitVec 12
  pcp : BitVec 3
  etype : BitVec 16
  rtag : Option (BitVec 16)
  ip : Bool
  ip6 : Bool
  ipDst : BitVec 128
  dport : BitVec 16
  dscp : BitVec 6
  length : Nat
  data : List Byte
  fcsOk : Bool
deriving DecidableEq, Repr

/-- The RoCEv2 requests of R622; `other` is an opcode that R622 does not list. -/
inductive RmaOp
  | send | write | read | cmpSwap | fetchAdd | other
deriving DecidableEq, Repr

/-- Place of a packet in its message. -/
inductive PktPos
  | only | first | middle | last
deriving DecidableEq, Repr

/-- The sealing header and the verdict on the GCM tag (R626, R630). -/
structure SealHdr where
  verAlg : BitVec 8
  side : Bool
  epoch : BitVec 32
  seq : BitVec 32
  tagOk : Bool
deriving DecidableEq, Repr

/-- One RoCEv2 packet received on UDP port 4791 (R622). `addr` is the offset in the window that the key names. -/
structure Packet where
  port : Port
  length : Nat
  icrcOk : Bool
  ecnCe : Bool
  qpn : BitVec 18
  psn : BitVec 24
  op : RmaOp
  pos : PktPos
  rkey : W32
  addr : W64
  dmaLen : W32
  payload : List Byte
  operand0 : W64
  operand1 : W64
  sealHdr : Option SealHdr
deriving DecidableEq, Repr

/-- The answer to an outbound request of a queue pair (R661). -/
inductive RmaAnswer
  | success (data : List Byte)
  | fatalNak
deriving DecidableEq, Repr

/-- The path a heartbeat takes (R672). -/
inductive Path
  | coupler | drawbar
deriving DecidableEq, Repr

/-- A heartbeat as received (R674); `crcOk` is the verdict on its CRC. -/
structure Heartbeat where
  role : BitVec 2
  grant : Bool
  pref : Bool
  proofOk : Bool
  failbackReady : Bool
  unit : Bool
  hbSeq : BitVec 16
  planQ : BitVec 8
  seq : BitVec 48
  crcOk : Bool
deriving DecidableEq, Repr

/-- What the attach checks of a member found (R556, R563–R565). `authOk` says that the challenge and the certificate chain verify, `root` is the
SM3 digest of the chain's root, `wcFixed` that the drive refuses to disable its volatile write cache (R555). -/
structure AttachInfo where
  checksOk : Bool
  spdmSupported : Bool
  authOk : Bool
  root : BitVec 256
  wcFixed : Bool
  alg : BitVec 8
  nguid : BitVec 128
  capacity : Nat
  lba : Nat
  serial : List Byte
  model : List Byte
  fwRev : List Byte
  certDigest : BitVec 256
  pctUsed : BitVec 8
  critWarn : BitVec 8
  sanitizing : Bool
deriving DecidableEq, Repr

/-- The end of one member command issued for a stripe engine (R389, R695). -/
inductive MemberResult
  | ok | mediaError | reservationConflict
deriving DecidableEq, Repr

/-- One member command: its kind, place and size. -/
structure MemberCmd where
  isWrite : Bool
  proof : Bool
  off : Nat
  len : Nat
deriving DecidableEq, Repr

/-- What a clock monitor found (R804): the CLK_STATE.LOCKED bit concerned, and whether the clock is lost or off frequency. -/
inductive ClockTrouble
  | loss | freq
deriving DecidableEq, Repr

/-- A wake source of SIDING (R825). -/
inductive WakeSrc
  | comparator (n : Fin 8)
  | pin (i : Fin 4)
  | host
deriving DecidableEq, Repr

/-- One STATE message of the Coupler class table (R679): the mirrored state it carries (R655, R697). -/
inductive PairStateMsg
  | ingest (window : Fin 256) (next mark : W64)
  | winTable (index : BitVec 20) (valid revoking : Bool) (tag : BitVec 12) (pd : BitVec 16) (volumeType : Bool) (access : BitVec 4)
      (volume : BitVec 8) (base size : W64)
  | qp (qpn : BitVec 18) (expectedPsn : BitVec 24) (recvCount complCount : W64)
  | twr (entry : BitVec 16) (state : BitVec 8)
deriving DecidableEq, Repr

/-- What the unit knows of its partner and its spill headers at start-up (R465): the facts that choose the row. -/
structure RecoveryFacts where
  partnerServing : Bool
  partnerStarting : Bool
  partnerImageCurrent : Bool
  partnerImageClean : Bool
  partnerJepoch : BitVec 32
  partnerLastJseq : W64
  partnerUid : Option (BitVec 128)
deriving DecidableEq, Repr

end Sys2Proof
end

