-- ==== Sys2Proof/Syntax.lean ====
section
/-! DEFINITION. The commands of the VZ-6048: one constructor per row of spec/opcode_table.json, in the table's order. -/

namespace Sys2Proof

/-- The ONE inductive of the commands. A Lanibex row carries the executing engine and the fields of its format (04, "Encoding formats").
An admin or I/O row carries the function, the queue and the ring slot of the admitted entry it executes. -/
inductive Instr
  -- registers and commits (00_scope.md, 02)
  | registerWrite (a : Access)
  | rwsWrite (a : Access)
  | lowerHalfWrite (a : Access)
  | upperHalfWrite (a : Access)
  | nowLowerRead (w : Who) (pps : Bool)
  | go (w : Who) (r : Rec) (useKey : Bool) (key : BitVec 16)
  | discard (w : Who) (r : Rec)
  | commitChecksDone (r : Rec)
  | setApply (r : Rec)
  | groupCommitGo (w : Who)
  | groupCommitApply
  | clampLogClear (w : Who) (r : Rec)
  -- time base (03)
  | syncReceive (p : Port) (offset : Int)
  | ppsInEdge
  | freeMeasurement
  | sourceLost
  | timeReepoch (w : Who)
  | ppsOutRise
  | ppsOutFall
  | ptpMessageSend (p : Port)
  | wholeSecond
  -- Lanibex (04)
  | add (e : Eng) (d a b : BitVec 5)
  | sub (e : Eng) (d a b : BitVec 5)
  | and (e : Eng) (d a b : BitVec 5)
  | or (e : Eng) (d a b : BitVec 5)
  | xor (e : Eng) (d a b : BitVec 5)
  | shl (e : Eng) (d a b : BitVec 5)
  | shr (e : Eng) (d a b : BitVec 5)
  | sar (e : Eng) (d a b : BitVec 5)
  | mul (e : Eng) (d a b : BitVec 5)
  | mulhu (e : Eng) (d a b : BitVec 5)
  | minu (e : Eng) (d a b : BitVec 5)
  | maxu (e : Eng) (d a b : BitVec 5)
  | divu (e : Eng) (d a b : BitVec 5)
  | remu (e : Eng) (d a b : BitVec 5)
  | sel (e : Eng) (d a b : BitVec 5) (p : BitVec 3)
  | eq (e : Eng) (d a b : BitVec 5)
  | ne (e : Eng) (d a b : BitVec 5)
  | ltu (e : Eng) (d a b : BitVec 5)
  | lt (e : Eng) (d a b : BitVec 5)
  | geu (e : Eng) (d a b : BitVec 5)
  | ge (e : Eng) (d a b : BitVec 5)
  | tlt (e : Eng) (d a b : BitVec 5)
  | pand (e : Eng) (d a b : BitVec 5)
  | por (e : Eng) (d a b : BitVec 5)
  | pnot (e : Eng) (d a b : BitVec 5)
  | addi (e : Eng) (d a : BitVec 5) (imm : BitVec 16)
  | andi (e : Eng) (d a : BitVec 5) (imm : BitVec 16)
  | ori (e : Eng) (d a : BitVec 5) (imm : BitVec 16)
  | xori (e : Eng) (d a : BitVec 5) (imm : BitVec 16)
  | shli (e : Eng) (d a : BitVec 5) (imm : BitVec 16)
  | shri (e : Eng) (d a : BitVec 5) (imm : BitVec 16)
  | sari (e : Eng) (d a : BitVec 5) (imm : BitVec 16)
  | movi (e : Eng) (d a : BitVec 5) (imm : BitVec 16)
  | movk (e : Eng) (d a : BitVec 5) (imm : BitVec 16)
  | ld (e : Eng) (d a : BitVec 5) (sz : BitVec 2) (off : BitVec 14)
  | st (e : Eng) (d a : BitVec 5) (sz : BitVec 2) (off : BitVec 14)
  | sload (e : Eng) (d a : BitVec 5) (sp : BitVec 2) (off : BitVec 14)
  | sstore (e : Eng) (d a : BitVec 5) (sp : BitVec 2) (off : BitVec 14)
  | brp (e : Eng) (sense : Bool) (p : BitVec 3) (off : BitVec 16)
  | loop (e : Eng) (c : BitVec 5) (bound : BitVec 13) (len : BitVec 8)
  | pxor (e : Eng) (vd va vb : BitVec 4) (g : BitVec 5)
  | vzero (e : Eng) (vd va vb : BitVec 4) (g : BitVec 5)
  | vmov (e : Eng) (vd va vb : BitVec 4) (g : BitVec 5)
  | gfmul (e : Eng) (vd va vb : BitVec 4) (g : BitVec 5)
  | gfmac (e : Eng) (vd va vb : BitVec 4) (g : BitVec 5)
  | synd (e : Eng) (vd va vb : BitVec 4) (g : BitVec 5)
  | vext (e : Eng) (vd va vb : BitVec 4) (g : BitVec 5)
  | vins (e : Eng) (vd va vb : BitVec 4) (g : BitVec 5)
  | vbcast (e : Eng) (vd va vb : BitVec 4) (g : BitVec 5)
  | gfmuls (e : Eng) (d a b : BitVec 5)
  | gfinv (e : Eng) (d a b : BitVec 5)
  | gfexp (e : Eng) (d a b : BitVec 5)
  | gflog (e : Eng) (d a b : BitVec 5)
  | syndb (e : Eng) (d a b c : BitVec 5) (mode : BitVec 2) (ssp dsp : Bool)
  | shut (e : Eng) (d a b : BitVec 5)
  | take (e : Eng) (d a b : BitVec 5)
  | jrnl (e : Eng) (d a b : BitVec 5)
  | mirr (e : Eng) (d a b : BitVec 5)
  | land (e : Eng) (d a : BitVec 5) (lim : BitVec 13)
  | landLimit (e : Se)
  | cmpl (e : Eng) (d a b : BitVec 5)
  | waite (e : Eng) (d : BitVec 5) (line : BitVec 8) (lim : BitVec 13)
  | waiteLimit (e : Eng)
  | waitt (e : Eng) (d a : BitVec 5) (lim : BitVec 13)
  | waittOnTime (e : Eng)
  | waittLimit (e : Eng)
  | sig (e : Eng) (imm : BitVec 16)
  | snapt (e : Eng) (imm : BitVec 16)
  | gate (e : Eng) (imm : BitVec 16)
  | hold (e : Eng) (imm : BitVec 16)
  | wake (e : Eng) (imm : BitVec 16)
  | pend (e : Eng) (d : BitVec 5) (line : BitVec 8)
  | clre (e : Eng) (d : BitVec 5) (line : BitVec 8)
  | rdt (e : Eng) (d a b : BitVec 5)
  | csrr (e : Eng) (d a b : BitVec 5)
  | endP (e : Eng) (imm : BitVec 16)
  | faultP (e : Eng) (imm : BitVec 16)
  | nop (e : Eng) (imm : BitVec 16)
  | anchoredAction (e : Eng) (devNs : Nat)
  | eventPulseArrive
  | itemDispatch (e : Se)
  | wcetExceeded (e : Eng)
  | ticketLocalComplete (e : Se) (t : BitVec 48)
  -- programs and loading (05)
  | progLoad (f : Fn) (ix : BitVec 16)
  | progUnload (f : Fn) (ix : BitVec 16)
  | ownerKeySet (f : Fn) (ix : BitVec 16)
  | ownerKeyRevoke (f : Fn) (ix : BitVec 16)
  | oldImageRetire (e : Se) (k : Fin 8)
  -- work queues (06)
  | configRequest (port : Bool)
  | wqTail (f : Fn) (g : Grp) (value : W32)
  | wqInval (f : Fn) (g : Grp) (value : W32)
  | entryFetch (f : Fn) (g : Grp) (r : FetchResult)
  | entryAdmit (f : Fn) (g : Grp)
  | entryComplete (f : Fn) (g : Grp)
  | shadowWrite (f : Fn) (g : Grp)
  | msixMessage (f : Fn) (vector : Fin 64)
  | createIoq (f : Fn) (ix : BitVec 16)
  | deleteIoq (f : Fn) (ix : BitVec 16)
  | setEventRing (f : Fn) (ix : BitVec 16)
  | adminQueueEnable (f : Fn) (value : W32)
  | eventPost
  | wqEvtHead (f : Fn) (value : W32)
  | functionLevelReset (f : Fn)
  | flrComplete (f : Fn)
  | abort (f : Fn) (ix : BitVec 16)
  | identify (f : Fn) (ix : BitVec 16)
  | getLog (f : Fn) (ix : BitVec 16)
  | hostDataFetch (f : Fn) (g : Grp) (ix : BitVec 16) (r : DataResult)
  -- Shuttles (07)
  | descriptorComplete (c : Chan) (hostData : List Byte)
  | pause (w : Who) (c : Chan)
  | resume (w : Who) (c : Chan)
  | stop (w : Who) (c : Chan)
  | cut (w : Who) (c : Chan)
  | clear (w : Who) (c : Chan)
  | shuttleReadError (c : Chan) (cause : BitVec 3) (addr : W64)
  | hostReadTimeout (c : Chan) (addr : W64)
  -- volume I/O and STRIPE2 (08, 11)
  | read (f : Fn) (g : Grp) (ix : BitVec 16)
  | write (f : Fn) (g : Grp) (ix : BitVec 16)
  | stripe2Write (e : Se) (l : LandResult)
  | stripe2Read (e : Se)
  | stripe2Destage (e : Se) (l : LandResult)
  | stripe2Reconstruct (e : Se) (l : LandResult)
  -- member drives (11)
  | memberCommandComplete (m : Mbr) (e : Se) (c : MemberCmd) (r : MemberResult)
  | memberCommandTimeout (m : Mbr)
  | memberFatalStatus (m : Mbr)
  | memberLinkUp (m : Mbr) (rate : BitVec 4) (width : BitVec 3)
  | memberLinkDown (m : Mbr)
  | memberAttach (m : Mbr) (i : AttachInfo)
  | smartPoll (m : Mbr) (pctUsed critWarn : BitVec 8) (log : List Byte)
  | memberSanitizeDone (m : Mbr)
  | reservationPreemptDone (m : Mbr)
  | retirementCopyDone (a : Arr) (pos : Fin 48)
  -- array, volume and member services (10, 11)
  | createArray (f : Fn) (ix : BitVec 16)
  | deleteArray (f : Fn) (ix : BitVec 16)
  | createVolume (f : Fn) (ix : BitVec 16)
  | deleteVolume (f : Fn) (ix : BitVec 16)
  | volumeGrant (f : Fn) (ix : BitVec 16)
  | memberTrust (f : Fn) (ix : BitVec 16)
  | retireMember (f : Fn) (ix : BitVec 16)
  | detachMember (f : Fn) (ix : BitVec 16)
  | formatVolume (f : Fn) (ix : BitVec 16)
  | sanitize (f : Fn) (ix : BitVec 16)
  | replaceMember (f : Fn) (ix : BitVec 16)
  | scrubNow (f : Fn) (ix : BitVec 16)
  | reshape (f : Fn) (ix : BitVec 16)
  -- protected cache and vault (09)
  | destageIssue (b : Fin 16384)
  | planChange
  | pwrFailAssert
  | vaultDumpEnd
  | pwrFailDeassert
  | vaultEraseDone
  | startRecovery (a : Arr) (facts : RecoveryFacts)
  | spillCopy (a : Arr)
  -- repair work (10)
  | repairAdmit (a : Arr)
  | repairStarved (a : Arr)
  | rebuild (e : Se) (l : LandResult)
  | scrub (e : Se) (l : LandResult)
  | scrubPassStart (a : Arr)
  | reshapeStep (a : Arr)
  | repairReshape (e : Se) (l : LandResult)
  | landFrame (e : Se) (l : LandResult)
  | triggered (e : Se)
  | tgclCycle (p : Port)
  -- scheduled network (12)
  | cycleStart (p : Port)
  | portLinkUp (p : Port)
  | portLinkDown (p : Port)
  | mmVerifyResult (p : Port) (ok : Bool)
  | frameReceive (fr : Frame)
  | frerHoldExpire
  | frerResetTimeout (h : Fin 1024)
  | windowClose (x : Fin 256)
  | frameTransmitStart (p : Port)
  -- remote memory (13)
  | rmaPacketReceive (pk : Packet)
  | contextFetchDone (qpn : BitVec 18)
  | messageAnswer (qpn : BitVec 18)
  | rmaResponseReceive (qpn : BitVec 18) (r : RmaAnswer)
  | rcRetryTimeout (qpn : BitVec 18)
  | qpCreate (f : Fn) (ix : BitVec 16)
  | qpConnect (f : Fn) (ix : BitVec 16)
  | qpDestroy (f : Fn) (ix : BitVec 16)
  | qpQuery (f : Fn) (ix : BitVec 16)
  | keyInstall (f : Fn) (ix : BitVec 16)
  | winRegister (f : Fn) (ix : BitVec 16)
  | winRevoke (f : Fn) (ix : BitVec 16)
  | winRevokeDrain (index : BitVec 20)
  | ctxHostArea (f : Fn) (ix : BitVec 16)
  | twrPost (f : Fn) (ix : BitVec 16)
  | twrCancel (f : Fn) (ix : BitVec 16)
  -- coupled pair (14)
  | heartbeatSend (path : Path)
  | heartbeat (path : Path) (hb : Heartbeat)
  | pathDown (path : Path)
  | pathDegradedClear (path : Path)
  | leaseExpire
  | takeover
  | reclaim (silent lossOfSignal : Bool)
  | announceSend
  | couplerSend
  | confirm (e : Se) (t : BitVec 48)
  | handover (next : BitVec 48)
  | timeSend
  | time (t1 t2 t4 : W64)
  | mirror (off : BitVec 40) (bytes : List Byte) (e : Se) (t : BitVec 48)
  | journal (off : BitVec 40) (bytes : List Byte) (e : Se) (t : BitVec 48)
  | state (m : PairStateMsg)
  | copy (off : BitVec 40) (bytes : List Byte)
  | credit (n : W32)
  | copyComplete
  | proofCycle (failStep : Fin 9)
  | plannedHandover (w : Who)
  | handoverDrainDone
  | handoverInstant
  | electWaitExpire
  | forceAlone (w : Who)
  -- functional safety (15)
  | statusW1C (w : Who) (r : Rec) (value : W32)
  | handleTimeout (r : Rec)
  | errOutTest (w : Who)
  | errOutHoldEnd
  | configScrub (upset : Option Rec)
  | audit
  | aloneSelfProof (failStep : Fin 9)
  | blockResetDone (r : Rec)
  | supplyExcursion
  | clockFault (c : Fin 6) (t : ClockTrouble)
  | overTemperature
  -- ageing, snapshots, recorder (16)
  | slackSample (slackPs : BitVec 10)
  | thermalIntegrate (tjC : Int)
  | lifeSave
  | xtalReset (w : Who)
  | hupNow (w : Who)
  | hupTestStart (v0 : BitVec 16)
  | hupTestEnd (v1 : BitVec 16)
  | snapIn
  | fire (w : Who)
  | snapPeriod
  | snapTrigger
  | snapOutEnd
  | freeze (w : Who)
  | unfreeze (w : Who)
  | evrClear (w : Who)
  | mark (w : Who)
  -- code flash and secure boot (17)
  | cflKey (w : Who) (port : Bool) (value : W32)
  | cflRead (w : Who) (port : Bool) (addr : BitVec 26) (bitErrors : Nat)
  | program (w : Who) (port : Bool) (d15 : W32)
  | erase (w : Who) (port : Bool) (addr : BitVec 26)
  | eraseSuspend (w : Who) (port : Bool)
  | eraseResume (w : Who) (port : Bool)
  | cflData (w : Who) (port : Bool) (i : Fin 16) (value : W32)
  | sequenceTimeout (port : Bool)
  | programComplete (bank : Bool)
  | eraseComplete (bank : Bool)
  | suspendReached (bank : Bool)
  | xoLock (w : Who) (r : Fin 8)
  | stage1Start
  | stage2Start
  | fwConfirm (w : Who)
  | attGo (w : Who)
  | attestDone
  | extend6 (w : Who)
  | extend7 (w : Who)
  | secFloorWrite (w : Who) (value : W32)
  | jtagChipReset
  -- clocks, power, always-on, resets (18, 19)
  | siding (w : Who)
  | sidingReached
  | sidingWake (src : WakeSrc)
  | sidingExitDone (sidingNs : Nat)
  | aonCmpArm (w : Who) (n : Fin 8) (value : W64)
  | comparatorMatch (n : Fin 8)
  | wakeInEdge (i : Fin 4) (widthNs : Nat)
  | unitAwake (u : Fin 28)
  | unitGate (u : Fin 28)
  | modeEffective
  | calStep (p : Port)
  | calStarved (p : Port)
  | powerOnReset (unitId pref : Bool)
  | chipReset (w : Who)
  | perstAssert (port : Bool)
  | memberGroupTrain (g : Fin 12)
  | vidFrame
  | junctionTemperature100C
  | railsRemoved
  | perstDeassert (port : Bool)
  | couplerTrained (credits : W32)
  | guardSelfTest
  | eccUncorr (r : Rec)
  | checkerMismatch (r : Rec)
deriving DecidableEq, Repr

end Sys2Proof
end

