-- ==== Sys2Proof/WellFormed.lean ====
section
/-! DEFINITION. Which Lanibex words decode (R153, R154): the field values that an instruction forbids, and the subset of the executing engine. A command that
is no Lanibex instruction has no such check. -/

namespace Sys2Proof

/-- A stripe engine. -/
def Eng.isSe (e : Eng) : Bool := decide (e.val < 16)

/-- A Treadle engine. -/
def Eng.isTe (e : Eng) : Bool := decide (16 ≤ e.val)

/-- The field values of a Lanibex instruction are those that its description allows (R153), and its engine executes it (R154). -/
def Instr.wf : Instr → Bool
  | .eq _ d _ _ | .ne _ d _ _ | .ltu _ d _ _ | .lt _ d _ _ | .geu _ d _ _ | .ge _ d _ _ | .tlt _ d _ _ => decide (d.toNat < 8)
  | .pand _ d a b | .por _ d a b => decide (d.toNat < 8) && decide (a.toNat < 8) && decide (b.toNat < 8)
  | .pnot _ d a b => decide (d.toNat < 8) && decide (a.toNat < 8) && b == 0
  | .shli _ _ _ imm | .shri _ _ _ imm | .sari _ _ _ imm => decide (imm.toNat < 64)
  | .movi _ _ a _ => a == 0
  | .movk _ _ a _ => decide (a.toNat < 4)
  | .sload e d _ _ _ | .sstore e d _ _ _ => e.isSe && decide (d.toNat < 16)
  | .brp _ _ _ off => off != 0
  | .loop _ _ bound len => bound != 0 && len != 0
  | .pxor e _ _ _ g => e.isSe && g == 0
  | .vzero e _ va vb g => e.isSe && va == 0 && vb == 0 && g == 0
  | .vmov e _ _ vb g => e.isSe && vb == 0 && g == 0
  | .gfmul e _ _ vb _ | .gfmac e _ _ vb _ => e.isSe && vb == 0
  | .synd e vd _ vb _ => e.isSe && vd != vb
  | .vext e vd _ vb _ => e.isSe && vd == 0 && decide (vb.toNat < 8)
  | .vins e _ va vb _ => e.isSe && va == 0 && decide (vb.toNat < 8)
  | .vbcast e _ va vb _ => e.isSe && va == 0 && vb == 0
  | .gfmuls e _ _ _ => e.isSe
  | .gfinv e _ _ b | .gfexp e _ _ b | .gflog e _ _ b => e.isSe && b == 0
  | .syndb e d _ _ _ _ _ _ => e.isSe && d != 0 && d != 31
  | .shut e _ _ _ | .jrnl e _ _ _ | .mirr e _ _ _ | .land e _ _ _ => e.isSe
  | .take e _ _ b => e.isSe && b == 0
  | .cmpl e d _ _ => e.isSe && d == 0
  | .sig e imm => decide (imm.toNat < if e.isSe then 4 else 8)
  | .snapt _ imm | .faultP _ imm => decide (imm.toNat < 256)
  | .gate e _ => e.isTe
  | .hold e imm => e.isTe && decide (imm.toNat < 2)
  | .wake e imm => e.isTe && decide (imm.toNat % 256 < 16) && decide (imm.toNat < 512)
  | .rdt _ _ a b => a == 0 && b == 0
  | .csrr _ _ a b => decide (a.toNat < 12) && b == 0
  | .endP _ imm | .nop _ imm => imm == 0
  | _ => true

end Sys2Proof
end

