-- ==== Sys2Proof/Decode.lean ====
section
/-! DEFINITION. The Lanibex encoding (R153–R168): the 32-bit word of an instruction, and the instruction of a word, rejecting what decodes as ILLEGAL.
Also the decoder of the opcode table's rows, none of which has bits. -/

namespace Sys2Proof

/-! ## The eight formats (04, "Encoding formats") -/

/-- G: OP, D, A, B, FN. -/
def wordG (op : BitVec 6) (d a b : BitVec 5) (fn : BitVec 11) : W32 := op ++ d ++ a ++ b ++ fn
/-- I: OP, D, A, IMM. -/
def wordI (op : BitVec 6) (d a : BitVec 5) (imm : BitVec 16) : W32 := op ++ d ++ a ++ imm
/-- M: OP, D, A, SZ or SP, OFF. -/
def wordM (op : BitVec 6) (d a : BitVec 5) (sz : BitVec 2) (off : BitVec 14) : W32 := op ++ d ++ a ++ sz ++ off
/-- J of BRP: OP, SENSE, P, 0, OFF. -/
def wordB (op : BitVec 6) (sense : BitVec 1) (p : BitVec 3) (off : BitVec 16) : W32 := op ++ sense ++ p ++ (0 : BitVec 6) ++ off
/-- J of LOOP: OP, C, BOUND, LEN. -/
def wordL (op : BitVec 6) (c : BitVec 5) (bound : BitVec 13) (len : BitVec 8) : W32 := op ++ c ++ bound ++ len
/-- V: OP, VD, VA, VB, G, FN. -/
def wordV (op : BitVec 6) (vd va vb : BitVec 4) (g : BitVec 5) (fn : BitVec 9) : W32 := op ++ vd ++ va ++ vb ++ g ++ fn
/-- E: OP, D, LINE, LIM. -/
def wordE (op : BitVec 6) (d : BitVec 5) (line : BitVec 8) (lim : BitVec 13) : W32 := op ++ d ++ line ++ lim
/-- W: OP, D, A, 0, LIM. -/
def wordW (op : BitVec 6) (d a : BitVec 5) (lim : BitVec 13) : W32 := op ++ d ++ a ++ (0 : BitVec 3) ++ lim
/-- T: OP, 0, IMM. -/
def wordT (op : BitVec 6) (imm : BitVec 16) : W32 := op ++ (0 : BitVec 10) ++ imm

/-- The word of a Lanibex instruction (R155–R168); none for a command that is no Lanibex instruction. -/
def encodeLx : Instr → Option W32
  | .add _ d a b => some (wordG 1 d a b 0x000)
  | .sub _ d a b => some (wordG 1 d a b 0x001)
  | .and _ d a b => some (wordG 1 d a b 0x002)
  | .or _ d a b => some (wordG 1 d a b 0x003)
  | .xor _ d a b => some (wordG 1 d a b 0x004)
  | .shl _ d a b => some (wordG 1 d a b 0x005)
  | .shr _ d a b => some (wordG 1 d a b 0x006)
  | .sar _ d a b => some (wordG 1 d a b 0x007)
  | .mul _ d a b => some (wordG 1 d a b 0x008)
  | .mulhu _ d a b => some (wordG 1 d a b 0x009)
  | .minu _ d a b => some (wordG 1 d a b 0x00A)
  | .maxu _ d a b => some (wordG 1 d a b 0x00B)
  | .divu _ d a b => some (wordG 1 d a b 0x00C)
  | .remu _ d a b => some (wordG 1 d a b 0x00D)
  | .sel _ d a b p => some (wordG 1 d a b ((2 : BitVec 8) ++ p))
  | .eq _ d a b => some (wordG 2 d a b 0x000)
  | .ne _ d a b => some (wordG 2 d a b 0x001)
  | .ltu _ d a b => some (wordG 2 d a b 0x002)
  | .lt _ d a b => some (wordG 2 d a b 0x003)
  | .geu _ d a b => some (wordG 2 d a b 0x004)
  | .ge _ d a b => some (wordG 2 d a b 0x005)
  | .tlt _ d a b => some (wordG 2 d a b 0x006)
  | .pand _ d a b => some (wordG 2 d a b 0x008)
  | .por _ d a b => some (wordG 2 d a b 0x009)
  | .pnot _ d a b => some (wordG 2 d a b 0x00A)
  | .addi _ d a imm => some (wordI 0x03 d a imm)
  | .andi _ d a imm => some (wordI 0x04 d a imm)
  | .ori _ d a imm => some (wordI 0x05 d a imm)
  | .xori _ d a imm => some (wordI 0x06 d a imm)
  | .shli _ d a imm => some (wordI 0x07 d a imm)
  | .shri _ d a imm => some (wordI 0x08 d a imm)
  | .sari _ d a imm => some (wordI 0x09 d a imm)
  | .movi _ d a imm => some (wordI 0x0A d a imm)
  | .movk _ d a imm => some (wordI 0x0B d a imm)
  | .ld _ d a sz off => some (wordM 0x10 d a sz off)
  | .st _ d a sz off => some (wordM 0x11 d a sz off)
  | .sload _ d a sp off => some (wordM 0x12 d a sp off)
  | .sstore _ d a sp off => some (wordM 0x13 d a sp off)
  | .brp _ sense p off => some (wordB 0x18 (BitVec.ofBool sense) p off)
  | .loop _ c bound len => some (wordL 0x1A c bound len)
  | .pxor _ vd va vb g => some (wordV 0x20 vd va vb g 0)
  | .vzero _ vd va vb g => some (wordV 0x20 vd va vb g 1)
  | .vmov _ vd va vb g => some (wordV 0x20 vd va vb g 2)
  | .gfmul _ vd va vb g => some (wordV 0x20 vd va vb g 3)
  | .gfmac _ vd va vb g => some (wordV 0x20 vd va vb g 4)
  | .synd _ vd va vb g => some (wordV 0x20 vd va vb g 5)
  | .vext _ vd va vb g => some (wordV 0x20 vd va vb g 6)
  | .vins _ vd va vb g => some (wordV 0x20 vd va vb g 7)
  | .vbcast _ vd va vb g => some (wordV 0x20 vd va vb g 8)
  | .gfmuls _ d a b => some (wordG 0x21 d a b 0)
  | .gfinv _ d a b => some (wordG 0x21 d a b 1)
  | .gfexp _ d a b => some (wordG 0x21 d a b 2)
  | .gflog _ d a b => some (wordG 0x21 d a b 3)
  | .syndb _ d a b c mode ssp dsp =>
    some (wordG 0x22 d a b ((0 : BitVec 2) ++ BitVec.ofBool dsp ++ BitVec.ofBool ssp ++ mode ++ c))
  | .shut _ d a b => some (wordG 0x28 d a b 0)
  | .take _ d a b => some (wordG 0x29 d a b 0)
  | .jrnl _ d a b => some (wordG 0x2A d a b 0)
  | .mirr _ d a b => some (wordG 0x2B d a b 0)
  | .land _ d a lim => some (wordW 0x2C d a lim)
  | .cmpl _ d a b => some (wordG 0x2D d a b 0)
  | .waite _ d line lim => some (wordE 0x30 d line lim)
  | .waitt _ d a lim => some (wordW 0x31 d a lim)
  | .sig _ imm => some (wordT 0x32 imm)
  | .snapt _ imm => some (wordT 0x33 imm)
  | .gate _ imm => some (wordT 0x34 imm)
  | .hold _ imm => some (wordT 0x35 imm)
  | .wake _ imm => some (wordT 0x36 imm)
  | .pend _ d line => some (wordE 0x37 d line 0)
  | .clre _ d line => some (wordE 0x37 d line 1)
  | .rdt _ d a b => some (wordG 0x38 d a b 0)
  | .csrr _ d a b => some (wordG 0x38 d a b 1)
  | .endP _ imm => some (wordT 0x3C imm)
  | .faultP _ imm => some (wordT 0x3D imm)
  | .nop _ imm => some (wordT 0x3E imm)
  | _ => none

/-! ## Decoding -/

/-- The instruction of a word by its OP and FN, before the checks of R153 on its fields and of R154 on its engine. -/
def decodeFields (e : Eng) (w : W32) : Option Instr :=
  let d := w.extractLsb' 21 5
  let a := w.extractLsb' 16 5
  let b := w.extractLsb' 11 5
  let fn := w.extractLsb' 0 11
  let imm := w.extractLsb' 0 16
  let sz := w.extractLsb' 14 2
  let off := w.extractLsb' 0 14
  let lim := w.extractLsb' 0 13
  let line := w.extractLsb' 13 8
  let vd := w.extractLsb' 22 4
  let va := w.extractLsb' 18 4
  let vb := w.extractLsb' 14 4
  let g := w.extractLsb' 9 5
  let vfn := w.extractLsb' 0 9
  match (w.extractLsb' 26 6).toNat with
  | 0x01 => match fn.toNat with
    | 0x00 => some (.add e d a b)
    | 0x01 => some (.sub e d a b)
    | 0x02 => some (.and e d a b)
    | 0x03 => some (.or e d a b)
    | 0x04 => some (.xor e d a b)
    | 0x05 => some (.shl e d a b)
    | 0x06 => some (.shr e d a b)
    | 0x07 => some (.sar e d a b)
    | 0x08 => some (.mul e d a b)
    | 0x09 => some (.mulhu e d a b)
    | 0x0A => some (.minu e d a b)
    | 0x0B => some (.maxu e d a b)
    | 0x0C => some (.divu e d a b)
    | 0x0D => some (.remu e d a b)
    | _ => if w.extractLsb' 3 8 = 2 then some (.sel e d a b (w.extractLsb' 0 3)) else none
  | 0x02 => match fn.toNat with
    | 0x00 => some (.eq e d a b)
    | 0x01 => some (.ne e d a b)
    | 0x02 => some (.ltu e d a b)
    | 0x03 => some (.lt e d a b)
    | 0x04 => some (.geu e d a b)
    | 0x05 => some (.ge e d a b)
    | 0x06 => some (.tlt e d a b)
    | 0x08 => some (.pand e d a b)
    | 0x09 => some (.por e d a b)
    | 0x0A => some (.pnot e d a b)
    | _ => none
  | 0x03 => some (.addi e d a imm)
  | 0x04 => some (.andi e d a imm)
  | 0x05 => some (.ori e d a imm)
  | 0x06 => some (.xori e d a imm)
  | 0x07 => some (.shli e d a imm)
  | 0x08 => some (.shri e d a imm)
  | 0x09 => some (.sari e d a imm)
  | 0x0A => some (.movi e d a imm)
  | 0x0B => some (.movk e d a imm)
  | 0x10 => some (.ld e d a sz off)
  | 0x11 => some (.st e d a sz off)
  | 0x12 => some (.sload e d a sz off)
  | 0x13 => some (.sstore e d a sz off)
  | 0x18 => if w.extractLsb' 16 6 = 0 then some (.brp e (w.getLsbD 25) (w.extractLsb' 22 3) imm) else none
  | 0x1A => some (.loop e d (w.extractLsb' 8 13) (w.extractLsb' 0 8))
  | 0x20 => match vfn.toNat with
    | 0 => some (.pxor e vd va vb g)
    | 1 => some (.vzero e vd va vb g)
    | 2 => some (.vmov e vd va vb g)
    | 3 => some (.gfmul e vd va vb g)
    | 4 => some (.gfmac e vd va vb g)
    | 5 => some (.synd e vd va vb g)
    | 6 => some (.vext e vd va vb g)
    | 7 => some (.vins e vd va vb g)
    | 8 => some (.vbcast e vd va vb g)
    | _ => none
  | 0x21 => match fn.toNat with
    | 0 => some (.gfmuls e d a b)
    | 1 => some (.gfinv e d a b)
    | 2 => some (.gfexp e d a b)
    | 3 => some (.gflog e d a b)
    | _ => none
  | 0x22 =>
    if w.extractLsb' 9 2 = 0 then
      some (.syndb e d a b (w.extractLsb' 0 5) (w.extractLsb' 5 2) (w.getLsbD 7) (w.getLsbD 8))
    else none
  | 0x28 => if fn = 0 then some (.shut e d a b) else none
  | 0x29 => if fn = 0 then some (.take e d a b) else none
  | 0x2A => if fn = 0 then some (.jrnl e d a b) else none
  | 0x2B => if fn = 0 then some (.mirr e d a b) else none
  | 0x2C => if w.extractLsb' 13 3 = 0 then some (.land e d a lim) else none
  | 0x2D => if fn = 0 then some (.cmpl e d a b) else none
  | 0x30 => some (.waite e d line lim)
  | 0x31 => if w.extractLsb' 13 3 = 0 then some (.waitt e d a lim) else none
  | 0x32 => if w.extractLsb' 16 10 = 0 then some (.sig e imm) else none
  | 0x33 => if w.extractLsb' 16 10 = 0 then some (.snapt e imm) else none
  | 0x34 => if w.extractLsb' 16 10 = 0 then some (.gate e imm) else none
  | 0x35 => if w.extractLsb' 16 10 = 0 then some (.hold e imm) else none
  | 0x36 => if w.extractLsb' 16 10 = 0 then some (.wake e imm) else none
  | 0x37 => match lim.toNat with
    | 0 => some (.pend e d line)
    | 1 => some (.clre e d line)
    | _ => none
  | 0x38 => match fn.toNat with
    | 0 => some (.rdt e d a b)
    | 1 => some (.csrr e d a b)
    | _ => none
  | 0x3C => if w.extractLsb' 16 10 = 0 then some (.endP e imm) else none
  | 0x3D => if w.extractLsb' 16 10 = 0 then some (.faultP e imm) else none
  | 0x3E => if w.extractLsb' 16 10 = 0 then some (.nop e imm) else none
  | _ => none

/-- The instruction that a word is on an engine; none for a word that decodes as ILLEGAL (R153, R154). -/
def decodeLx (e : Eng) (w : W32) : Option Instr :=
  match decodeFields e w with
  | some i => if i.wf then some i else none
  | none => none

/-- No row of the opcode table has bits, so no word spells a command (95, "The table of operations and events"). -/
def decodeTableWord (_nbits _w : Nat) : Option Instr := none

end Sys2Proof
end

