-- ==== Sys2Proof/Machine/RegMap.lean ====
section
/-! DEFINITION. The register map: Draft records (R66), the RWS fields of every block with their reset values and clamps, the causes of R716, and
which registers are 64 bits wide. -/

namespace Sys2Proof.Machine

/-- The block types of R66. -/
inductive Kind
  | drf | wq | sht | ary | cch | vlt | mbr | tmb | trd | stm | rma | par | grd | cfl | sec | clk | pwr | aon | age | snp | evr
deriving DecidableEq, Repr

/-- The Draft record of the first instance of a block type in a physical function's view (R66). -/
def recOf : Kind → Nat
  | .drf => 0 | .wq => 1 | .sht => 2 | .ary => 10 | .cch => 26 | .vlt => 27 | .mbr => 28 | .tmb => 76 | .trd => 77 | .stm => 81
  | .rma => 82 | .par => 83 | .grd => 84 | .cfl => 85 | .sec => 86 | .clk => 87 | .pwr => 88 | .aon => 89 | .age => 90 | .snp => 91
  | .evr => 92

/-- The block type of a Draft record (R66). -/
def kindOf (r : Nat) : Kind :=
  if r = 0 then .drf else if r = 1 then .wq else if r < 10 then .sht else if r < 26 then .ary else if r = 26 then .cch
  else if r = 27 then .vlt else if r < 76 then .mbr else if r = 76 then .tmb else if r < 81 then .trd else if r = 81 then .stm
  else if r = 82 then .rma else if r = 83 then .par else if r = 84 then .grd else if r = 85 then .cfl else if r = 86 then .sec
  else if r = 87 then .clk else if r = 88 then .pwr else if r = 89 then .aon else if r = 90 then .age else if r = 91 then .snp
  else .evr

/-- The instance number of a Draft record within its type (R66). -/
def instOf (r : Nat) : Nat := r - recOf (kindOf r)

/-- Record of stripe engine `n`, member `m`, port `p` and Shuttle instance `e`. -/
def recSe (n : Nat) : Nat := 10 + n
def recMbr (m : Nat) : Nat := 28 + m
def recTrd (p : Nat) : Nat := 77 + p
def recSht (e : Nat) : Nat := 2 + e

/-- Record of the block that an engine belongs to: ARY_ for a stripe engine, TRD_ for a Treadle engine. -/
def recEng (e : Nat) : Nat := if e < 16 then recSe e else recTrd (e - 16)

/-- The GROUPABLE column of R66. -/
def groupable : Kind → Bool
  | .drf | .sht | .ary | .vlt | .trd | .cfl => false
  | _ => true

/-- How a field treats an out-of-range value (CLAMP_LOG.KIND). -/
inductive Clamp
  /-- Every value is in range. -/
  | any
  /-- Unsigned span, clamped HIGH or LOW. -/
  | span (lo hi : Nat)
  /-- Signed span in the field's two's complement, clamped HIGH or LOW. -/
  | signed (lo hi : Int)
  /-- 0, or a span: a value below the span is clamped LOW to its bottom (R619). -/
  | zeroOr (lo hi : Nat)
  /-- Codes: a value not below the bound is unassigned, and the previous value is kept. -/
  | codes (n : Nat)
  /-- Bits fixed at 1 (ENABLE bits of causes marked S). -/
  | ones (mask : Nat)
  /-- A reaction code (R718): `reset` tells whether the block has BLOCK_RESET (R719). -/
  | react (reset : Bool)
  /-- Fixed: every write of another value is KEPT (R722). -/
  | fixed
deriving DecidableEq, Repr

/-- One RWS field: its lowest bit from the start of its group, its width, its reset value and its clamp. -/
structure Fld where
  lsb : Nat
  width : Nat
  reset : Nat
  clamp : Clamp := .any
deriving DecidableEq, Repr

/-- A group of fields that stands once or at a regular stride. -/
structure Grpd where
  base : Nat
  stride : Nat := 4
  count : Nat := 1
  fields : List Fld
deriving DecidableEq, Repr

/-- (bit, marked S, level) of the causes of a block (R716). -/
def causes (k : Kind) : List (Nat × Bool × Bool) :=
  [(0, true, false), (1, true, false), (2, true, true)] ++
  match k with
  | .sht => [(3, false, true)]
  | .ary => [(3, true, false), (4, false, false)]
  | .trd => [(3, true, false), (4, false, false), (5, true, false)]
  | .vlt => [(3, true, true), (4, false, false)]
  | .mbr => [(3, false, true)]
  | .tmb => [(3, false, true), (4, false, false)]
  | .stm => [(3, false, false)]
  | .par => [(3, false, false), (4, false, true), (5, true, false), (6, true, false)]
  | .grd => [(3, true, false), (4, true, false)]
  | .clk => [(3, true, true), (4, true, true)]
  | .pwr => [(3, true, true), (4, true, true)]
  | .cfl => [(3, false, false)]
  | .age => [(3, false, true), (4, true, true)]
  | _ => []

/-- The mask of the causes marked S of a block. -/
def causesS (k : Kind) : Nat := ((causes k).filter (fun c => c.2.1)).foldl (fun m c => m + 2 ^ c.1) 0

/-- The mask of the level causes of a block. -/
def causesL (k : Kind) : Nat := ((causes k).filter (fun c => c.2.2)).foldl (fun m c => m + 2 ^ c.1) 0

/-- BLOCK_RESET exists in these blocks (R719). -/
def hasBlockReset : Kind → Bool
  | .sht | .ary | .trd | .mbr | .stm | .rma => true
  | _ => false

/-- ENABLE and REACT (15, "Common fault registers"). REACT of the Guard's CHECKER is fixed at 0xC (R722). -/
def commonFields (k : Kind) : List Grpd :=
  [{ base := 0x48, stride := 8, fields := [⟨0, 16, 0xFFFF, .ones (causesS k)⟩] },
   { base := 0x50, stride := 8, fields := (causes k).map fun c =>
      if k = .grd ∧ c.1 = 1 then ⟨4, 4, 0xC, .fixed⟩
      else ⟨4 * c.1, 4, if c.2.1 then 0xA else 0x1, .react (hasBlockReset k)⟩ }]

/-- The slot limits of an engine block (05, "Slot registers"). -/
def slotFields (n : Nat) : Grpd := { base := 0x200, stride := 16, count := n, fields := [⟨0, 32, 0x10000, .span 1 0xFFFFFFFF⟩] }

/-- The RWS fields of a block beside the common ones. -/
def ownFields (r : Nat) : List Grpd :=
  match kindOf r with
  | .wq => [{ base := 0x100, fields := [⟨0, 4, 8, .span 1 8⟩, ⟨8, 8, 0, .any⟩] }]
  | .sht => [{ base := 0x100, fields := [⟨0, 3, 2, .any⟩] }]
  | .ary => [slotFields 8,
      { base := 0x100, fields := [⟨0, 3, 0, .any⟩, ⟨4, 4, 0, .any⟩, ⟨8, 4, 1, .any⟩, ⟨12, 4, 2, .any⟩, ⟨16, 4, 3, .any⟩] },
      { base := 0x500, fields := [⟨0, 3, 1, .any⟩, ⟨4, 4, 0, .any⟩, ⟨8, 4, 1, .any⟩, ⟨12, 4, 2, .any⟩] },
      { base := 0x504, fields := [⟨0, 8, 0x10, .any⟩, ⟨8, 8, 0x1C, .any⟩, ⟨16, 1, 1, .any⟩] }]
  | .cch => [{ base := 0x100, fields := [⟨0, 6, 0x20, .span 4 32⟩, ⟨8, 7, 0x4B, .span 50 95⟩, ⟨16, 8, 0xA, .span 1 255⟩] }]
  | .mbr => [{ base := 0x100, fields := [⟨0, 2, 1, .codes 3⟩, ⟨8, 8, 0x50, .span 50 100⟩] ++
      (if instOf r % 4 = 0 then [⟨16, 1, 0, .any⟩] else []) }]
  | .tmb => [
      { base := 0x108, fields := [⟨0, 2, 0, .codes 3⟩, ⟨2, 1, 1, .any⟩, ⟨4, 4, 0xF, .any⟩] },
      { base := 0x10C, fields := [⟨0, 1, 0, .any⟩, ⟨1, 1, 0, .any⟩, ⟨2, 1, 0, .any⟩, ⟨3, 2, 0, .codes 3⟩, ⟨8, 8, 0, .any⟩,
        ⟨16, 4, 0xD, .signed (-7) 0⟩, ⟨20, 1, 0, .any⟩, ⟨24, 8, 0xF8, .any⟩] },
      { base := 0x110, fields := [⟨0, 12, 0x64, .span 1 4095⟩, ⟨12, 4, 8, .span 1 15⟩, ⟨16, 16, 0x3E8, .span 1 65535⟩] },
      { base := 0x128, fields := [⟨0, 32, 0, .signed (-32768000) 32768000⟩] },
      { base := 0x130, stride := 8, fields := [⟨0, 48, 0, .any⟩] },
      { base := 0x138, fields := [⟨0, 1, 0, .any⟩, ⟨1, 1, 0, .any⟩, ⟨8, 20, 0x186A0, .span 1 500000⟩] },
      { base := 0x13C, fields := [⟨0, 32, 0, .signed (-1000000) 1000000⟩] },
      { base := 0x148, fields := [⟨0, 16, 0x7D0, .span 1 10000⟩] },
      { base := 0x180, count := 4, fields := [⟨0, 16, 0, .any⟩, ⟨16, 16, 0, .any⟩] }]
  | .trd => [slotFields 2,
      { base := 0x100, fields := [⟨0, 3, 0, .codes 7⟩, ⟨3, 2, 0, .any⟩, ⟨5, 1, 0, .any⟩, ⟨6, 2, 0, .any⟩, ⟨8, 8, 0xFF, .any⟩,
        ⟨16, 8, 0, .any⟩] },
      { base := 0x104, fields := (List.range 8).map fun p => ⟨4 * p, 3, p, .any⟩ },
      { base := 0x108, fields := [⟨0, 1, 0, .any⟩, ⟨1, 1, 0, .any⟩] },
      { base := 0x10C, fields := [⟨0, 14, 0x5F2, .span 64 9216⟩] },
      { base := 0x110, stride := 8, count := 2, fields := [⟨0, 48, 0, .any⟩] },
      { base := 0x120, fields := [⟨0, 32, 0xF4240, .span 1000 1000000000⟩] },
      { base := 0x124, fields := [⟨0, 8, 0x7F, .any⟩] },
      { base := 0x128, stride := 8, fields := [⟨0, 48, 0, .any⟩] },
      { base := 0x140, count := 8, fields := [⟨0, 19, 0, .span 0 400000⟩] }]
  | .stm => [{ base := 0x100, fields := [⟨0, 16, 0x88B5, .any⟩] },
      { base := 0x1000, stride := 32, count := 1024, fields := [⟨0, 1, 0, .any⟩, ⟨1, 2, 0, .codes 3⟩, ⟨3, 1, 0, .any⟩, ⟨4, 4, 0, .any⟩,
        ⟨16, 12, 0, .any⟩, ⟨28, 1, 0, .any⟩, ⟨32, 128, 0, .any⟩, ⟨160, 16, 0, .any⟩, ⟨176, 6, 0, .any⟩, ⟨182, 1, 0, .any⟩,
        ⟨184, 1, 0, .any⟩, ⟨185, 1, 0, .any⟩, ⟨192, 16, 0, .zeroOr 64 9216⟩, ⟨208, 16, 0xFFFF, .any⟩, ⟨224, 16, 32, .span 1 256⟩,
        ⟨240, 16, 1000, .span 1 65535⟩] },
      { base := 0x9000, stride := 32, count := 256, fields := [⟨0, 32, 0, .any⟩, ⟨32, 32, 0, .zeroOr 64 16777216⟩, ⟨64, 32, 0, .any⟩,
        ⟨96, 32, 0, .zeroOr 64 16777216⟩, ⟨128, 1, 0, .any⟩, ⟨129, 1, 0, .any⟩] },
      { base := 0xB000, stride := 64, count := 256, fields := [⟨0, 1, 0, .any⟩, ⟨1, 1, 0, .any⟩, ⟨2, 1, 0, .any⟩, ⟨3, 1, 0, .any⟩,
        ⟨4, 1, 0, .any⟩, ⟨8, 8, 0, .span 0 3⟩, ⟨16, 16, 0, .span 0 1023⟩, ⟨32, 8, 0, .any⟩, ⟨40, 8, 0, .any⟩, ⟨48, 3, 2, .any⟩,
        ⟨52, 4, 0, .any⟩, ⟨56, 3, 0, .any⟩, ⟨60, 3, 0, .codes 5⟩, ⟨64, 32, 0, .any⟩, ⟨96, 32, 0, .any⟩, ⟨128, 64, 0, .any⟩,
        ⟨192, 64, 0, .any⟩, ⟨256, 16, 0, .span 32 8192⟩, ⟨272, 16, 0, .any⟩, ⟨288, 32, 0, .span 1 0xFFFFFFFF⟩,
        ⟨320, 32, 0, .span 1 50000⟩, ⟨352, 16, 0, .span 1 65535⟩, ⟨368, 16, 0, .any⟩, ⟨384, 48, 0, .any⟩, ⟨432, 12, 0, .any⟩,
        ⟨444, 3, 0, .any⟩, ⟨448, 64, 0, .any⟩] }]
  | .rma => [{ base := 0x100, fields := [⟨0, 5, 0x10, .span 1 31⟩] }]
  | .par => [{ base := 0x100, fields := [⟨0, 12, 0x1E, .span 1 3600⟩, ⟨12, 1, 1, .any⟩, ⟨13, 1, 1, .any⟩, ⟨16, 8, 0x32, .span 1 255⟩] },
      { base := 0x120, stride := 8, count := 4, fields := [⟨0, 48, 0, .any⟩] }]
  | .grd => [{ base := 0x100, fields := [⟨0, 8, 0xA, .span 1 255⟩] }]
  | .cfl => [{ base := 0x100, fields := [⟨0, 3, 2, .span 1 4⟩] }]
  | .clk => [{ base := 0x110, count := 4, fields := [⟨0, 20, 0, .span 0 1000000⟩] }]
  | .pwr => [{ base := 0x100, fields := [⟨0, 2, 1, .codes 3⟩, ⟨8, 8, 0x14, .span 1 255⟩] },
      { base := 0x140, count := 16, fields := [⟨0, 28, 0xFFFFFFF, .any⟩] }]
  | .age => [{ base := 0x100, fields := [⟨0, 8, 0x18, .span 1 168⟩, ⟨8, 1, 1, .any⟩, ⟨16, 12, 0x5A, .span 1 3650⟩] },
      { base := 0x104, fields := [⟨0, 12, 0x3E8, .span 100 4095⟩, ⟨12, 7, 0x55, .span 50 100⟩, ⟨19, 13, 0x5DC, .any⟩] }]
  | .snp => [{ base := 0x100, fields := [⟨0, 20, 0, .span 0 1000000⟩, ⟨20, 1, 0, .any⟩] }]
  | .evr => [{ base := 0x100, fields := [⟨1, 8, 0xFF, .any⟩, ⟨9, 1, 0, .any⟩, ⟨10, 1, 1, .any⟩, ⟨11, 1, 1, .any⟩,
      ⟨16, 16, 0x100, .span 1 65535⟩] }]
  | .drf | .vlt | .sec | .aon => []

/-- Every RWS field group of a block (R68, R69). The DRF_ record is not configurable (R61). -/
def fieldGroups (r : Nat) : List Grpd := if r = 0 then [] else commonFields (kindOf r) ++ ownFields r

/-- A field moved up by `n` bits. -/
def shiftFld (n : Nat) (f : Fld) : Fld := ⟨f.lsb + n, f.width, f.reset, f.clamp⟩

/-- The fields of one group that meet bits `[lo, hi)` of the block, with absolute positions. -/
def groupFields (g : Grpd) (lo hi : Nat) : List Fld :=
  if hi ≤ 8 * g.base ∨ 8 * (g.base + g.stride * g.count) ≤ lo then []
  else
    let i := (lo / 8 - g.base) / g.stride
    let at0 := 8 * (g.base + g.stride * i)
    (g.fields.map (shiftFld at0) ++
      (if hi > at0 + 8 * g.stride ∧ i + 1 < g.count then g.fields.map (shiftFld (at0 + 8 * g.stride)) else [])).filter
      fun f => f.lsb < hi ∧ lo < f.lsb + f.width

/-- The RWS fields of a block that meet bits `[lo, hi)`, each with its absolute position. -/
def fieldsIn (r lo hi : Nat) : List Fld := (fieldGroups r).flatMap fun g => groupFields g lo hi

/-- The RWS field whose lowest bit is at `key`, if there is one. -/
def fieldAt (r key : Nat) : Option Fld := (fieldsIn r key (key + 1)).find? fun f => f.lsb = key

/-- Reset value of the RWS field at `key`. -/
def resetOf (r key : Nat) : Nat := match fieldAt r key with | some f => f.reset | none => 0

/-- The 64-bit registers of a block: the registers that the spec marks 64-bit (R55). -/
def wide (r off : Nat) : Bool :=
  off % 8 == 0 && (
  (0x40 ≤ off && off ≤ 0x58) || off == 0xA8 ||
  match kindOf r with
  | .wq => off == 0x108
  | .sht => 0x1000 ≤ off && off < 0x1200 && (off % 0x40 == 8 || off % 0x40 == 0x18)
  | .ary => [0x408, 0x420, 0x510, 0x518, 0x520, 0x530].contains off
  | .cch => off == 0x118
  | .vlt => off == 0x108 || off == 0x110
  | .mbr => off == 0x110
  | .tmb => [0x118, 0x130, 0x140].contains off
  | .trd => [0x110, 0x118, 0x128, 0x168].contains off
  | .rma => 0x110 ≤ off && off < 0x130
  | .par => 0x120 ≤ off && off < 0x140
  | .grd => off == 0x118 || (0x1000 ≤ off && off < 0x1100)
  | .age => off == 0x110 || off == 0x120
  | .snp => off == 0x110
  | .evr => off == 0x108
  | .cfl => 0x120 ≤ off && off < 0x160
  | .aon => (0x100 ≤ off && off < 0x180) || off == 0x188
  | _ => false)

/-- The 64-bit registers of a function page (06, "Registers"). -/
def pageWide (off : Nat) : Bool := off == 0 || off == 8 || off == 0x18

/-- Bytes that a block instance occupies. -/
def blockSize (r : Nat) : Nat :=
  match kindOf r with
  | .wq => 0x200000
  | .stm => 0x20000
  | .evr => 0x210000
  | _ => 0x10000

end Sys2Proof.Machine
end

