-- ==== Sys2Proof/Config.lean ====
section
/-! DEFINITION. What the spec leaves open: constants and functions with no body, so that no proof can see a value of theirs. -/

namespace Sys2Proof.Config

/-- A fresh free value: applied to a counter of the state that each use advances (log entry 4). -/
opaque freeValue : Nat → Nat

/-- The SM3 digest that the manufacturer wrote to key slot 0 (05, "Keys and signing"). -/
opaque stockKeyDigest : List Byte

/-- The fuse with the SM3 digest of the firmware root key (17, "Keys, fuses and the secured state"). -/
opaque rootKeyDigest : List Byte

/-- The fuse with the 256-bit unique device secret. -/
opaque deviceSecret : List Byte

/-- VERSION of a stock image by its PROG_ID, less 1 (R862). -/
opaque stockVersion : Nat → Nat

/-- CODE_WORDS of a stock image by its PROG_ID, less 1 (log entry 32). -/
opaque stockCodeWords : Nat → Nat

/-- PC of an entry of a stock image by its PROG_ID and entry (log entry 32). -/
opaque stockPc : Nat → Nat → Nat

/-- The LM windows that a stock image requests, by its PROG_ID: bytes of each (log entry 32). -/
opaque stockLm : Nat → List Nat

/-- An SM2 signature by a key of the device: which key, the device secret, the message, and the counter of free values (17). -/
opaque sign : Nat → List Byte → List Byte → Nat → List Byte

/-- A public key that SEC_ derives from the device secret, its second argument: 0 the identity key, 1 the attestation key over the given
measurements (R790, R800). -/
opaque deviceKey : Nat → List Byte → List Byte → List Byte

/-- The bytes of code flash as manufactured (R768; log entry 3). -/
opaque flashByte : Nat → Byte

/-- The SM3 digest of a stock image, by the digest of the stock area and the image's place in PROG_ID order (R798). -/
opaque stockDigest : List Byte → Nat → List Byte

/-- BASE of a Draft record in units of 64 KiB, by view and record (R59). -/
opaque draftBase : Bool → Nat → Nat

/-- The 16 ASCII bytes of the device serial number (R550). -/
opaque serial : List Byte

end Sys2Proof.Config
end

