-- ==== Sys2Proof/Machine/State.lean ====
section
/-! DEFINITION. The state of the VZ-6048 as plain data: every register, table, queue, memory and pin the spec gives it, and the state after reset. -/

namespace Sys2Proof.Machine

/-- A sparse table: (key, value) pairs with strictly rising keys, no pair holding what an unlisted key reads as. -/
abbrev Tab (α : Type) := List (Nat × α)

/-- A sparse byte memory. An unlisted address reads as 0 (log entry 3). -/
abbrev Mem := List Host.Cell

/-! ## Configuration, causes and snapshot banks (02, 15, 16) -/

/-- What COMMIT_ERR, COMMIT_ERR_A and COMMIT_ERR_B hold (02, "The common register group"). -/
structure CommitErr where
  valid : Bool := false
  cross : Bool := false
  reason : Nat := 0
  check : Nat := 0
  bRecord : Nat := 0
  fieldA : Nat := 0
  fieldB : Nat := 0
deriving DecidableEq, Repr

/-- The clamp log (R72). -/
structure ClampLog where
  offset : Nat := 0
  lsb : Nat := 0
  kind : Nat := 0
  count : Nat := 0
  valid : Bool := false
  value : Nat := 0
deriving DecidableEq, Repr

/-- An accepted GO whose checks are running (R73): the set it took, and how its key stood. -/
structure GoTaken where
  set : Tab Nat
  keyOk : Bool
deriving DecidableEq, Repr

/-- The snapshot bank of one block (R754): the eight selector words and what the latest trigger latched. -/
structure SnapBank where
  sel : Tab Nat := []
  seq : Nat := 0
  time : Nat := 0
  vals : Tab Nat := []
deriving DecidableEq, Repr

/-- The common register group of one block (R68). A set maps the bit address of a field (8 × offset + lowest bit) to its value; a field
that is not listed holds its reset value. -/
structure Block where
  shadow : Tab Nat := []
  accepted : Tab Nat := []
  effective : Tab Nat := []
  taken : Option GoTaken := none
  staged : Bool := false
  groupHeld : Bool := false
  lastRefused : Bool := false
  goDropped : Bool := false
  gen : Nat := 0
  epoch : Nat := 0
  err : CommitErr := {}
  clamp : ClampLog := {}
  cause : Nat := 0
  level : Nat := 0
  first : Nat := 0
  handling : Bool := false
  /-- The next ADM_SEQ value when the handling began (R732). -/
  place : Nat := 0
  reacted : Nat := 0
  errOut : Bool := false
  late : Nat := 0
  merged : Nat := 0
  /-- Merged causes whose STATUS bit has stood since their merge: the Guard watches those marked S (R733). -/
  watch : List Nat := []
  resetting : Bool := false
  snap : SnapBank := {}
  latch : Tab (Option Nat) := []
deriving DecidableEq, Repr

/-- A group commit (R92–R97): its list, its state and whether the listed blocks are held. -/
structure GroupCommit where
  list : Tab Nat := []
  busy : Bool := false
  lastRefused : Bool := false
  goDropped : Bool := false
  reason : Nat := 0
  failedSlot : Nat := 0
deriving DecidableEq, Repr

/-! ## Time base (03) -/

/-- The states of R105. -/
inductive TimeState
  | unset | locking | locked | holdover
deriving DecidableEq, Repr

/-- The time base. `now` is PTP time in units of 2^−16 ns without the wrap of R101; TMB_NOW reads its low 64 bits. -/
structure Tmb where
  now : Nat := 0
  /-- Time since reset in units of 2^−16 ns, which no epoch step changes: the model's own measure of elapsed intervals. -/
  up : Nat := 0
  /-- LOCKED has been set in the current epoch (R111), and since the chip reset (R652). -/
  lockedEpoch : Bool := false
  lockedEver : Bool := false
  state : TimeState := .unset
  offsetLarge : Bool := false
  following : Bool := false
  wakeExceeded : Bool := false
  ppsInSeen : Bool := false
  slave : Option Port := none
  todPending : Bool := false
  epoch : Nat := 0
  offset : Int := 0
  rate : Int := 0
  run : Nat := 0
  measured : Bool := false
  freeAfterSiding : Bool := false
  ppsInTs : Nat := 0
  wakeErr : Nat := 0
  wakeStep : Int := 0
  wakePending : Bool := false
  sidingNs : Nat := 0
  ppsOut : Bool := false
  lastPpsRise : Option Nat := none
  nowUpper : Tab Nat := []
  ppsUpper : Tab Nat := []
deriving DecidableEq, Repr

/-! ## Work queues and events (06) -/

/-- An admitted entry: its position in its queue, its words, its ADM_SEQ, and how far it has come. `status` is (code, DETAIL). -/
structure Adm where
  pos : Nat
  entry : BitVec 512
  seq : Nat
  status : Option (Nat × Nat) := none
  /-- Its data as read from the host buffer (R334), once HOST_DATA_FETCH has brought it. -/
  data : Option (List Byte) := none
  /-- The row of the command has begun (items handed out, or a long operation started). -/
  begun : Bool := false
  /-- Items of the entry not yet complete (R377). -/
  left : Nat := 0
  /-- The worst status so far, by item order (R382). -/
  worst : Option (Nat × Nat × Nat) := none
  /-- The entry was caught by ABORT (R546). -/
  caught : Bool := false
  /-- An item of the entry has been copied into a dispatch area or a TAKE buffer: its abort commit point (R180). -/
  committed : Bool := false
deriving DecidableEq, Repr

/-- One queue, admin or I/O. Positions count entries since the queue was created; slot = position mod size, phase = its lap mod 2. -/
structure Queue where
  created : Bool := false
  size : Nat := 2
  base : Nat := 0
  shadow : Nat := 0
  vector : Nat := 0
  weight : Nat := 1
  /-- One past the last published entry. -/
  tail : Nat := 0
  /-- (end position, stamp) of each doorbell write, oldest first (R293). -/
  pubs : List (Nat × Nat) := []
  /-- Cached copies of entries not yet admitted, by position. -/
  cache : Tab (BitVec 512) := []
  stopped : Bool := false
  error : Bool := false
  /-- Next position to admit. -/
  nextPos : Nat := 0
  /-- Admitted entries whose completion is not yet written, oldest first. -/
  work : List Adm := []
  /-- Next position whose completion is written. -/
  done : Nat := 0
  /-- Head position last published in the shadow. -/
  head : Nat := 0
  lastSeq : Nat := 0
  invalLate : Nat := 0
  /-- A completion past the published head had INTR set. -/
  intrDue : Bool := false
deriving DecidableEq, Repr

/-- An event of R317 without its phase. -/
structure Ev where
  type : Nat
  queue : Nat := 0xFF
  info : Nat := 0
  data : Nat := 0
  seq : Nat := 0
deriving DecidableEq, Repr

/-- A raised event on its way to the functions it reaches (R320). -/
structure Raised where
  ev : Ev
  targets : List Nat
  /-- A FAULT event: the record whose STATUS.CAUSE its DATA holds at posting (R732). -/
  live : Option Nat := none
deriving DecidableEq, Repr

/-- One PCIe function of the work-queue unit. -/
structure Func where
  adminBase : Nat := 0
  adminShadow : Nat := 0
  sizeM1 : Nat := 0
  vector : Nat := 0
  adminErr : Bool := false
  enable : Bool := false
  latch : Tab (Option Nat) := []
  flrSeq : Option Nat := none
  /-- A Function Level Reset is under way, admitted at this place (R325). -/
  flr : Option Nat := none
  queues : Tab Queue := []
  /-- Stamp of the latest doorbell write (R293). -/
  stamp : Nat := 0
  evtSet : Bool := false
  evtBase : Nat := 0
  evtSize : Nat := 16
  evtMask : Nat := 0
  evtVector : Nat := 0
  evtTail : Nat := 0
  evtHead : Nat := 0
  eventsLost : Bool := false
  /-- Events coalesced since the previous EVENTS_LOST event. -/
  lostSince : Nat := 0
  ovf : Tab Nat := []
  /-- Vectors with an MSI-X message due (R286, R324). -/
  msix : List Nat := []
  /-- The unconsumed events of the ring, oldest first. -/
  ring : List Ev := []
deriving DecidableEq, Repr

/-- One pool's audit counters (R34); `latched` is the copy the Guard took at the latest audit (R734). -/
structure Pool where
  granted : Nat := 0
  returned : Nat := 0
  held : Nat := 0
  inFlight : Nat := 0
  /-- What the latest snapshot trigger latched (R752). -/
  snap : Nat × Nat × Nat × Nat := (0, 0, 0, 0)
  latched : Nat × Nat × Nat × Nat := (0, 0, 0, 0)
deriving DecidableEq, Repr

/-! ## Event recorder, snapshots, Guard and ageing (15, 16) -/

/-- One record of R758. -/
structure EvrRec where
  time : Nat := 0
  rseq : Nat := 0
  kind : Nat := 0
  record : Nat := 0
  code : Nat := 0
  seq : Nat := 0
  arg0 : Nat := 0
  arg1 : Nat := 0
deriving DecidableEq, Repr

/-- The event recorder (R758–R767). -/
structure Evr where
  ring : Tab EvrRec := []
  next : Nat := 0
  wrapped : Bool := false
  frozen : Bool := false
  frozenBy : Nat := 0
  rseq : Nat := 0
  dropped : Nat := 0
  post : Option Nat := none
  mark : Nat := 0
deriving DecidableEq, Repr

/-- The snapshot trigger (R750–R753): requests waiting for the next trigger, as (code, ARG1). -/
structure Snp where
  seq : Nat := 0
  time : Nat := 0
  requests : List (Nat × Nat) := []
  outHigh : Bool := false
  sinceAudit : Bool := false
  /-- Elapsed time of the latest trigger (R751). -/
  last : Option Nat := none
deriving DecidableEq, Repr

/-- The Guard (R711–R735). -/
structure Grd where
  boot : Bool := true
  test : Bool := false
  errOutPin : Bool := true
  /-- The 10 µs minimum of ERR_OUT runs (R724). -/
  errHold : Bool := false
  imbal : Nat := 0
  audits : Nat := 0
  handleRecord : Nat := 0
  handleCause : Nat := 0
  devMax : Tab Nat := []
  devCount : Tab Nat := []
deriving DecidableEq, Repr

/-- The ageing monitors (R736–R749). Thermal age is in units of 2^−32 s of the acceleration factor; setpoints are in mV. -/
structure Age where
  setpoint : Nat := 720
  slack : Nat := 0
  dayMin : Nat := 800
  daily : List (Nat × Nat) := []
  eq : Nat := 0
  seconds : Nat := 0
  savedEq : Nat := 0
  cleanStop : Bool := true
  obsPpm : Nat := 0
  hupRunning : Option Nat := none
  hupNow : Bool := false
  /-- Elapsed time of the latest hold-up test. -/
  hupAt : Option Nat := none
  v0 : Nat := 0
  v1 : Nat := 0
  eLast : Nat := 0
  eAcc : Nat := 0
  eFirst : Bool := true
  ePrevAbove : Option Nat := none
  hupTestPin : Bool := false
  remain : Tab Nat := []
  wearSent : Tab Nat := []
  readings : Tab (List (Nat × Nat)) := []
deriving DecidableEq, Repr

/-! ## Engines, items, slots and Shuttles (04, 05, 07) -/

/-- A work item of a dispatch queue (R181), with the slot and entry point its source named. `pos` and `part` tie a host item to its entry:
its queue position and its place among the entry's items (R377). -/
structure Item where
  seq : Nat
  handle : Nat
  source : Nat
  port : Nat := 0
  origin : Nat := 0
  array : Nat := 0
  route : Nat := 0
  body : BitVec 512 := 0
  slot : Nat
  ep : Nat
  pos : Nat := 0
  part : Nat := 0
  /-- Bytes the item carries in stripe staging or the packet buffer: host write data, a frame's payload, a message's payload. -/
  data : List Byte := []
  /-- Bytes of stripe staging from its STAGE on, and packet-buffer cells, that the item holds until it completes. -/
  room : Nat := 0
  cells : Nat := 0
  /-- Byte of its command's data, protection information aside, that the item starts at. -/
  at0 : Nat := 0
  /-- The triggered work request whose PROGRAM the item is (R662). -/
  twr : Option Nat := none
deriving DecidableEq, Repr

/-- A data window granted to a slot (R147): its space, first byte, bytes and rights. -/
structure Window where
  space : Nat
  base : Nat
  size : Nat
  rd : Bool
  wr : Bool
deriving DecidableEq, Repr

/-- An installed image: what the loader took from its header, records and load command. -/
structure Image where
  progId : Nat
  version : Nat
  keySlot : Nat
  channels : Nat := 0
  /-- (PC, WCET) of each entry point. -/
  entries : List (Nat × Nat)
  windows : List Window := []
  /-- (WORD, MAXLEN) of each length annotation (R245). -/
  annots : List (Nat × Nat) := []
  code : List W32 := []
  codeWords : Nat
  params : List Nat := [0, 0, 0, 0]
  /-- Base and bytes of the HBM window of SOURCE 1. -/
  loadSeq : Nat := 0
deriving DecidableEq, Repr

/-- One engine slot: its current image and the image being retired (R255–R257). -/
structure Slot where
  cur : Option Image := none
  old : Option Image := none
deriving DecidableEq, Repr

/-- One level of the loop stack (R161). -/
structure Level where
  start : Nat
  stop : Nat
  left : Nat
  index : Nat
deriving DecidableEq, Repr

/-- What a waiting instruction waits for. -/
inductive Wait
  | waite (d line : Nat)
  | waitt (d target : Nat)
  | land (d ticket : Nat)
  | cycle
deriving DecidableEq, Repr

/-- The program an engine runs: its slot, entry point, image, and the items it has taken and not completed. -/
structure Run where
  slot : Nat
  ep : Nat
  image : Image
  taken : List Item := []
  /-- Elapsed time at its dispatch, in units of 2^−16 ns. -/
  started : Nat := 0
deriving DecidableEq, Repr

/-- A ticket not yet confirmed: whether its local write is complete, and whether the partner has confirmed it (R185). -/
structure Ticket where
  num : Nat
  localDone : Bool := false
  partnerDone : Bool := false
deriving DecidableEq, Repr

/-- An action of the Treadle set in an anchored run that has not yet taken effect (R212). -/
inductive Action
  | gate (imm : Nat)
  | hold (on : Bool)
  | wake (group : Nat) (release : Bool)
  | sig (k : Nat)
  | snapt (tag : Nat)
deriving DecidableEq, Repr

/-- One engine, stripe or Treadle. -/
structure Engine where
  g : Tab W64 := []
  w : Tab Vec := []
  p : Nat := 0
  pc : Nat := 0
  loops : List Level := []
  pend : Tab Nat := []
  issued : Nat := 0
  confirmed : Nat := 0
  tickets : List Ticket := []
  /-- (ticket, landed_ns, alone) of confirmed tickets (R189). -/
  landed : Tab (Nat × Bool) := []
  run : Option Run := none
  wait : Option Wait := none
  /-- The WAITT's target and the instructions that followed it, while an anchored run is open (R212, R214). -/
  anchor : Option (Nat × Nat) := none
  /-- Anchored actions on their way to their target time, oldest first. -/
  actions : List (Nat × Action) := []
  faulted : Bool := false
  faultCode : Nat := 0
  faultSlot : Nat := 0
  faultPc : Nat := 0
  faultWord : Nat := 0
  softCode : Nat := 0
  evtLost : Nat := 0
  eccCorr : Nat := 0
  lm : Mem := []
  queue : List Item := []
  slots : Tab Slot := []
  haltPending : Bool := false
  /-- Cycle number of a Treadle engine (R142). -/
  cycleNo : Nat := 0
deriving DecidableEq, Repr

/-- One 32-byte Shuttle descriptor (R337). -/
structure Desc where
  op : Nat := 0
  first : Bool := false
  last : Bool := false
  srcSpace : Nat := 0
  dstSpace : Nat := 0
  elem : Nat := 1
  ways : Nat := 1
  len : Nat := 0
  src : Nat := 0
  dst : Nat := 0
  crc : Nat := 0
  cont : Bool := false
  guard : Nat := 0
  big : Bool := false
  hostFn : Nat := 0
  appTag : Nat := 0
  aux : Nat := 0
  /-- Reserved bits of the record are 0. -/
  clean : Bool := true
deriving DecidableEq, Repr

/-- The states of R346. -/
inductive ChanState
  | idle | running | paused | halted
deriving DecidableEq, Repr

/-- One Shuttle channel. -/
structure Channel where
  state : ChanState := .idle
  endBy : Nat := 0
  desc : Nat := 0
  issuer : Nat := 0
  overrun : Nat := 0
  haltCause : Nat := 0
  haltSide : Bool := false
  haltDesc : Nat := 0
  haltTries : Nat := 0
  haltAddr : Nat := 0
  tries : Nat := 0
  /-- Address of the read being retried. -/
  retryAddr : Option Nat := none
  /-- SHT_CFG.RETRIES as it stood when the chain started (R85). -/
  retries : Nat := 2
  chain : List Desc := []
  pausePend : Bool := false
  stopPend : Bool := false
  crc32 : Nat := 0xFFFFFFFF
  crc64 : Nat := 0xFFFFFFFFFFFFFFFF
  used32 : Bool := false
  used64 : Bool := false
  fails : Nat := 0
  firstBlock : Option Nat := none
  firstKind : Nat := 0
  blocks : Nat := 0
  written : Nat := 0
deriving DecidableEq, Repr

/-! ## Arrays, volumes, members, cache and vault (08–11) -/

/-- One lost-stripe entry (R404). -/
structure LostEntry where
  stripe : Nat
  mask : Nat
  cause : Nat
deriving DecidableEq, Repr

/-- Position states (R409, R481). -/
inductive PosState
  | inService | unavailable | rebuilding | onSpare
deriving DecidableEq, Repr

/-- One position of an array: its member, its state, the spare slot it holds, whether it rebuilds to a replacement, and POS_ID. -/
structure Position where
  member : Option Nat
  state : PosState := .inService
  slot : Option Nat := none
  toRepl : Bool := false
  id : Nat := 0
deriving DecidableEq, Repr

/-- A geometry: members, stripe width, spare and stripes per row (R372). -/
structure Geom where
  n : Nat
  w : Nat
  k : Nat
  q : Nat
deriving DecidableEq, Repr

/-- A pass (R485–R494). A map has one byte per position (R479). -/
structure Pass where
  main : Bool := false
  mark : Nat := 0
  before : List Nat
  target : List Nat
  unav : Nat := 0
  /-- Chunks of the stripe at MARK not yet done. -/
  chunk : Nat := 0
  /-- Positions whose strips were all on spare at the pass start (R481). -/
  spareAtStart : List Nat := []
deriving DecidableEq, Repr

/-- A scrub pass (R495). -/
structure Scrub where
  mark : Nat := 0
  chunk : Nat := 0
  start : Nat := 0
  skipped : Nat := 0
  fixed : Nat := 0
deriving DecidableEq, Repr

/-- A reshape (R501–R512). `row` is the new row of the next step; `left` counts the items of the running step. -/
structure Reshape where
  paused : Bool := false
  pausing : Bool := false
  pauser : Nat := 0x3F
  desc : Bool := false
  old : Geom
  new : Geom
  selvedge : Nat := 0
  row : Nat := 0
  stepping : Bool := false
  left : Nat := 0
deriving DecidableEq, Repr

/-- A full resynchronisation (R468): the stripes named first, and the mark of the ascending rest. -/
structure Resync where
  first : List Nat := []
  done : List Nat := []
  mark : Nat := 0
deriving DecidableEq, Repr

/-- A retirement copy (R568): the retiring member, the position, the replacement, and the row and chunk it has reached. -/
structure Retire where
  pos : Nat
  old : Nat
  repl : Nat
  row : Nat := 0
deriving DecidableEq, Repr

/-- One array. -/
structure RaidArray where
  made : Bool := false
  geom : Geom := ⟨0, 0, 0, 0⟩
  stripLog2 : Nat := 16
  rows : Nat := 0
  prog : Nat := 0
  uid : Nat := 0
  gen : Nat := 0
  pos : List Position := []
  capacity : Nat := 0
  lost : List LostEntry := []
  lostGen : Nat := 0
  failed : Bool := false
  repaired : Nat := 0
  spill0 : Nat := 0xFF
  spill1 : Nat := 0xFF
  headerGen : Nat := 0
  pass : Option Pass := none
  scrub : Option Scrub := none
  lastScrub : Option Nat := none
  fix : Nat × Nat × Nat × Nat := (0, 0, 0, 0)
  reshape : Option Reshape := none
  resync : Option Resync := none
  retire : Option Retire := none
  uncovered : Nat := 0
  starved : Bool := false
  ckGen : Nat := 0
  recovered : Bool := true
  /-- Member and range of read repairs waiting for a repair item (R389): (stripe, strip, chunk). -/
  repairs : List (Nat × Nat × Nat) := []
  /-- The records of the ring that are not yet in the spill copies: next JSEQ to copy (R449). -/
  spillJseq : Nat := 0
  /-- PROGRESS records still live, by JSEQ (R514). -/
  progressLive : List Nat := []
deriving DecidableEq, Repr

/-- The states of a volume (R536). -/
inductive VolState
  | none | unformatted | formatting | ready | sanitizing
deriving DecidableEq, Repr

/-- One volume. `grants` maps a function to its access code (R534). -/
structure Volume where
  state : VolState := .none
  array : Nat := 0
  big : Bool := false
  first : Nat := 0
  count : Nat := 0
  mark : Nat := 0
  gen : Nat := 0
  seq : Nat := 0
  grants : Tab Nat := []
  /-- READY before the running format or sanitise: its earlier items still run (R538). -/
  wasReady : Bool := false
  /-- Stripes of the running format or sanitise whose writes have landed, from FIRST. -/
  cursor : Nat := 0
  issued : Nat := 0
deriving DecidableEq, Repr

/-- The states of R571. -/
inductive MbrState
  | absent | attaching | ready | bound | retiring | retired | sanitizing | failed | refused
deriving DecidableEq, Repr

/-- One member drive. `media` holds the bytes of its namespace; `bad` the ranges that read with an unrecovered media error. -/
structure Member where
  state : MbrState := .absent
  rate : Nat := 0
  width : Nat := 0
  resv : Bool := false
  registered : Bool := false
  preempting : Bool := false
  auth : Nat := 0
  alg : Nat := 0
  array : Nat := 0
  position : Option Nat := none
  pctUsed : Nat := 0
  critWarn : Nat := 0
  mediaErr : Nat := 0
  written : Nat := 0
  nguid : Nat := 0
  capacity : Nat := 0
  lba : Nat := 512
  serial : List Byte := []
  model : List Byte := []
  fwRev : List Byte := []
  cert : Nat := 0
  smart : List Byte := []
  media : Mem := []
  bad : List (Nat × Nat) := []
  /-- Its volatile write cache cannot be disabled: Writes carry Force Unit Access (R555). -/
  fua : Bool := false
  /-- Its attach checks have passed, and it waits for its array's recovery to choose a UID (R557, R870). -/
  waits : Bool := false
deriving DecidableEq, Repr

/-- The protected cache beside its bytes in HBM (R418–R456): the plans, the flags, and a plan waiting for the CCH_ boundary (R453). -/
structure Cache where
  pairQ : Nat := 0
  ownQ : Nat := 0
  partnerSmaller : Bool := false
  eMeas : Nat := 0
  overPlan : Bool := false
  stale : Nat := 0
  /-- Bobbins and their latest write, in PTP time of the counter, for DESTAGE_AGE. -/
  issued : List Nat := []
deriving DecidableEq, Repr

/-- A vault image (R463): its header fields and the region it saved. -/
structure VaultImage where
  seq : Nat
  clean : Bool
  unit : Bool
  planQ : Nat
  pages : Nat
  /-- Array, ARRAY_UID, JEPOCH and LAST_JSEQ of each array present. -/
  arrays : List (Nat × Nat × Nat × Nat)
  startNs : Nat
  complete : Bool := false
  region : Mem := []
deriving DecidableEq, Repr

/-- The vault (R457–R464). `slot0` and `slot1` hold what each image slot holds; an empty slot is not thereby erased. -/
structure Vault where
  slot0 : Option VaultImage := none
  slot1 : Option VaultImage := none
  erased0 : Bool := false
  erased1 : Bool := false
  armedSlot : Bool := false
  armed : Bool := false
  erasing : Option Bool := none
  dumping : Bool := false
  current : Option Bool := none
  lastDuration : Nat := 0
  lastPages : Nat := 0
  badBlocks : Nat := 0
  imageSeq : Nat := 0
  /-- PWR_FAIL is asserted. -/
  pwrFail : Bool := false
  /-- Schedule time at which the running dump began. -/
  dumpStart : Nat := 0
  /-- The unit stands as R459 left it, waiting for PWR_FAIL to deassert or for the reset after the dump. -/
  stopped : Bool := false
deriving DecidableEq, Repr
/-! ## Ports and the stream unit (12) -/

/-- The states of R581, in the order of their codes. -/
inductive TrdState
  | stopped | armed | running | held | faulted
deriving DecidableEq, Repr

/-- What a transmitted frame is. -/
inductive TxKind
  /-- A PTP message (R100, R579). -/
  | ptp
  /-- A landed acknowledgement of a window; its body is built as it leaves (R613–R615). -/
  | ack (window : Nat)
  /-- An announce frame: new role and ADM_SEQ of the role change (R691). -/
  | announce (role seq : Nat)
  /-- An acknowledgement of a queue pair. -/
  | rmaAck (qpn psn : Nat)
  /-- The second copy of a landed acknowledgement, as the first left (R615). -/
  | ackCopy (bytes : List Byte)
  /-- A READ response. -/
  | rmaData (qpn psn : Nat) (data : List Byte)
  /-- An atomic response with its result. -/
  | rmaAtomic (qpn psn result : Nat)
  /-- A NAK: code 0 PSN Sequence Error, 1 Invalid Request, 2 Remote Access Error, 3 Remote Operational Error. -/
  | rmaNak (qpn psn code : Nat)
  /-- An RNR NAK with its timer code. -/
  | rmaRnr (qpn psn timer : Nat)
  /-- A request sent by triggered work: action code of R657, remote address and key, length, operands and data. -/
  | rmaRequest (qpn psn action raddr rkey len op0 op1 : Nat) (data : List Byte)
deriving DecidableEq, Repr

/-- A frame queued on a port: its class and what it is. `sealedBy` names the sealed queue pair whose header it takes as it leaves. -/
structure TxFrame where
  tc : Nat
  kind : TxKind
  bytes : Nat
deriving DecidableEq, Repr

/-- A port and its Treadle state. -/
structure NetPort where
  state : TrdState := .stopped
  slotRun : Nat := 0
  heddles : Nat := 0
  hold : Bool := false
  linkUp : Bool := false
  verified : Bool := false
  /-- 802.3br verify is running (R574). -/
  verifying : Bool := false
  missed : Nat := 0
  overrun : Nat := 0
  cut : Nat := 0
  rxDrop : Nat := 0
  /-- Schedule time at which the staged set was accepted (12, "Programs against time"). -/
  acceptedAt : Nat := 0
  /-- Boundary of the effective set: the cycle starts count from BASE; `cycleStart` is the latest one, with the state RUNNING. -/
  cycleStart : Option Nat := none
  /-- The cycle start before it, with the state RUNNING. -/
  prevStart : Option Nat := none
  /-- Wake groups the engine requests, each with the schedule time of its request (R208, R616). -/
  wakes : Tab Nat := []
  /-- Frames waiting in the class queues, oldest first. -/
  queue : List TxFrame := []
  /-- The frame in progress, and whether it has been pre-empted (R577, R578). -/
  tx : Option TxFrame := none
  preempted : Bool := false
  /-- Shaper credit of each class in units of 10^−3 bit, and the schedule time of its latest update (802.1Qav). -/
  credit : Tab Int := []
  creditAt : Nat := 0
  /-- Message timestamp point of the latest PTP event message sent (R122). -/
  ptpTx : Nat := 0
  /-- First-bit and last-bit time of the latest received frame (R121). -/
  rxFirst : Nat := 0
  rxLast : Nat := 0
  /-- Schedule time of the latest SIG 7, and calibration starvation (R828, R829). -/
  gapAt : Option Nat := none
  calStarved : Bool := false
  /-- Elapsed time of the latest calibration step. -/
  calAt : Option Nat := none
deriving DecidableEq, Repr

/-- One stream: its sequence recovery (R590) and its counter record (R620). -/
structure StreamState where
  /-- RecovSeqNum; none while any sequence number is taken. -/
  recov : Option Nat := none
  /-- The history, newest first: whether each sequence number below the newest was received. -/
  hist : List Bool := []
  passed : Nat := 0
  discarded : Nat := 0
  outOfOrder : Nat := 0
  rogue : Nat := 0
  lost : Nat := 0
  resets : Nat := 0
  tagless : Nat := 0
  dropped : Nat := 0
deriving DecidableEq, Repr

/-- One flow meter (R593): its buckets in units of 10^−3 bit, full at first use, and the time of the latest frame. -/
structure MeterState where
  c : Nat := 0
  e : Nat := 0
  at0 : Option Nat := none
deriving DecidableEq, Repr

/-- What a completed frame leaves for the acknowledgement: landed time, LAST_NS and ADM_SEQ (R614). -/
structure FrameDone where
  landed : Nat := 0
  ingress : Nat := 0
  seq : Nat := 0
deriving DecidableEq, Repr

/-- One ingest window: its status record (R620), its openings and its calendar (R605). -/
structure WinState where
  /-- Valid in the effective set, with the cursor it started from. -/
  live : Bool := false
  start : Nat := 0
  next : Nat := 0
  mark : Option Nat := none
  outside : Nat := 0
  failed : Nat := 0
  late : Nat := 0
  acks : Nat := 0
  /-- Frame indices completed above MARK. -/
  done : Tab FrameDone := []
  markInfo : FrameDone := {}
  /-- Cycle start of the latest opening, and the frames accepted in it (R594). -/
  opening : Option Nat := none
  took : Nat := 0
  /-- Reserved engines and interval of the next opening (R605). -/
  reserved : List Nat := []
  resFrom : Nat := 0
  resTo : Nat := 0
  /-- An acknowledgement is queued (R613). -/
  ackQueued : Bool := false
  /-- Restart count: items admitted before the latest restart belong to an older one (R611). -/
  lap : Nat := 0
deriving DecidableEq, Repr

/-- A frame of a stream with RECOVER set in its 64 ns hold (R592). -/
structure HeldFrame where
  frame : Frame
  stream : Nat
deriving DecidableEq, Repr

/-! ## Remote memory (13) -/

/-- The states of R623. -/
inductive QpState
  | reset | rts | error
deriving DecidableEq, Repr

/-- An installed sealing key (R626–R632): one key and epoch per direction. -/
structure SealKey where
  alg : Nat
  side : Bool
  salt : Nat
  txKey : List Byte
  rxKey : List Byte
  txEpoch : Nat
  txSeq : Nat := 0
  rxEpoch : Nat
  /-- Highest SEQ accepted in the epoch, and the replay window below it: bit i is SEQ high − i. -/
  rxHigh : Option Nat := none
  rxMask : Nat := 0
deriving DecidableEq, Repr

/-- What QP_CONNECT gives (R665). -/
structure Conn where
  peerQpn : Nat := 0
  timeout : Nat := 0
  retry : Nat := 0
  rnrRetry : Nat := 0
  dscp : Nat := 0
  pcp : Nat := 0
  ipv6 : Bool := false
  dmac : Nat := 0
  srcIp : Nat := 0
  dstIp : Nat := 0
  recvKey : Nat := 0
  recvSlot : Nat := 0
deriving DecidableEq, Repr

/-- An admitted request message (R636): the place in the window it reaches, the bytes received so far, and its status once known. -/
structure RmaMsg where
  seq : Nat
  op : RmaOp
  psn : Nat
  key : Nat
  /-- Offset in the window, and bytes of the message (SEND grows with its packets). -/
  off : Nat
  len : Nat
  got : Nat := 0
  data : List Byte := []
  /-- The last packet has arrived. -/
  whole : Bool := false
  /-- Bytes of the bytes that each packet starts at are already placed. -/
  dup : Bool := false
  op0 : Nat := 0
  op1 : Nat := 0
  /-- Items still running, and the worst status by item order. -/
  left : Nat := 0
  worst : Option (Nat × Nat × Nat) := none
  begun : Bool := false
deriving DecidableEq, Repr

/-- An outbound request waiting for its answer: its triggered work request. -/
structure OutReq where
  entry : Nat
  psn : Nat
deriving DecidableEq, Repr

/-- One queue pair. -/
structure Qp where
  state : QpState := .reset
  pd : Nat := 0
  port : Nat := 0
  tier1 : Bool := false
  pin : Bool := false
  sealing : Bool := false
  pmtu : Nat := 3
  owner : Nat := 0
  key : Option SealKey := none
  conn : Conn := {}
  sqPsn : Nat := 0
  rqPsn : Nat := 0
  recvCount : Nat := 0
  complCount : Nat := 0
  /-- (PSN, result) of the 16 latest atomics, newest first (R647). -/
  atomics : List (Nat × Nat) := []
  /-- A PSN Sequence Error NAK has been sent for the present gap. -/
  nakked : Bool := false
  msgs : List RmaMsg := []
  outs : List OutReq := []
  tries : Nat := 0
  resident : Bool := false
  /-- Place in the order of use (R651). -/
  used : Nat := 0
deriving DecidableEq, Repr

/-- The states of a window's index (R644, R645). -/
inductive RmaWinState
  | free | valid | revoking
deriving DecidableEq, Repr

/-- One entry of the window table (R633, R634). -/
structure RmaWin where
  state : RmaWinState := .free
  tag : Nat := 0
  /-- TAG of the previous registration. -/
  lastTag : Option Nat := none
  pd : Nat := 0
  volumeType : Bool := false
  access : Nat := 0
  volume : Nat := 0
  base : Nat := 0
  size : Nat := 0
  /-- The admin entry whose revoke drains: function and queue position. -/
  drain : Option (Nat × Nat) := none
  /-- Place V of the revoke (R644). -/
  revokedAt : Nat := 0
deriving DecidableEq, Repr

/-- One triggered work request: STATE and its descriptor (R657). -/
structure Twr where
  state : Nat := 0
  desc : BitVec 512 := 0
  /-- Admission place at which it fired. -/
  firedAt : Nat := 0
deriving DecidableEq, Repr

/-- Remote memory. -/
structure Rma where
  ready : Bool := false
  hostArea : Option (Nat × Nat × Nat) := none
  qps : Tab (Option Qp) := []
  wins : Tab RmaWin := []
  twrs : Tab Twr := []
  /-- The miss queue of each port, oldest first (R648–R650). -/
  miss : Tab (List Packet) := []
  uses : Nat := 0
  missDrop : Tab Nat := []
  icrcErr : Nat := 0
  noQp : Nat := 0
  authFail : Nat := 0
  replay : Nat := 0
  stale : Nat := 0
  nakSent : Nat := 0
  rnrSent : Nat := 0
  ecnCe : Nat := 0
deriving DecidableEq, Repr

/-! ## The coupled pair (14) -/

/-- The roles of R668, in the order of their codes. -/
inductive Role
  | active | standby | alone | fenced
deriving DecidableEq, Repr

/-- A Coupler message waiting to be sent (R678, R679). -/
structure CouplerMsg where
  cls : Nat
  prio : Nat
  last : Bool := false
  ingest : Bool := false
  engine : Nat := 0xFF
  offset : Nat := 0
  ticket : Nat := 0
  payload : List Byte := []
deriving DecidableEq, Repr

/-- Where a planned handover stands at the unit that hands over (R704). -/
inductive Handing
  | none | draining | drained | stopped
deriving DecidableEq, Repr

/-- One path to the partner: the role in its latest valid heartbeat and when that came. Times are elapsed time in units of 2^−16 ns. -/
structure PathState where
  degraded : Bool := false
  txSeq : Nat := 0
  rxSeq : Option Nat := none
  lost : Nat := 0
  role : Nat := 3
  lastValid : Option Nat := none
deriving DecidableEq, Repr

/-- The pair unit (14). The straps are sampled at power-on reset (R852). -/
structure Par where
  role : Role := .fenced
  unit : Bool := false
  pref : Bool := false
  partnerRole : Nat := 3
  partnerPref : Bool := false
  partnerProofOk : Bool := false
  partnerPlan : Nat := 0
  coupler : PathState := {}
  drawbar : PathState := {}
  reclaimBlocked : Bool := false
  copying : Bool := false
  /-- The copy that this ALONE unit sends has begun (R441). -/
  copySent : Bool := false
  failbackReady : Bool := false
  proofOk : Bool := false
  /-- The receive paths passed the latest proof cycle (R692). -/
  rxProved : Bool := true
  clean : Nat := 0
  lastFail : Nat := 0
  fails : Nat := 0
  takeovers : Nat := 0
  lastGap : Nat := 0
  timeOffset : Int := 0
  /-- Elapsed time of the latest valid heartbeat of a serving partner, and of the latest with GRANT (R681, R682). -/
  lastActive : Option Nat := none
  lastGrant : Option Nat := none
  /-- Elapsed time of the latest GRANT sent (R684). -/
  grantSent : Option Nat := none
  /-- PATH_DEGRADED as the latest grant arrived, and whether a heartbeat came since (R692). -/
  degradedAtGrant : Bool := false
  heardSinceGrant : Bool := false
  wasActive : Bool := false
  /-- The block granted to this unit: next value and values left (R687). -/
  blockNext : Nat := 0
  blockLeft : Nat := 0
  /-- Highest ADM_SEQ value the unit has taken, and the value after the highest that the partner has told (R31, R688). -/
  lastTaken : Nat := 0
  seqTop : Option Nat := none
  /-- Send time of the latest TIME message and receive time of the latest one received, in NOW layout (R680). -/
  timeSent : Option Nat := none
  timeGot : Option Nat := none
  /-- Coupler messages waiting, oldest first; transmit credits left, as advertised, and credits to return (R679). -/
  queue : List CouplerMsg := []
  credits : Nat := 0
  creditCap : Nat := 0
  owed : Nat := 0
  trained : Bool := false
  /-- Per engine, the latest ticket up to which every mirror has been written, and the later ones written (R439). -/
  mirrorTop : Tab Nat := []
  mirrorWait : List (Nat × Nat) := []
  handing : Handing := .none
  /-- T of the planned handover, in ns of schedule time. -/
  handAt : Nat := 0
  /-- The token is on its way in a HANDOVER (R685). -/
  tokenAway : Bool := false
  /-- The election of R707 is open; elapsed time of this unit's first heartbeat. -/
  electing : Bool := true
  hbFirst : Option Nat := none
  /-- Announce frames are due before ports and windows serve (R691), with the ADM_SEQ of the role change. -/
  announce : Bool := false
  announceSeq : Nat := 0
deriving DecidableEq, Repr

/-! ## Code flash and secure boot (17) -/

/-- The states of a command port (CFL_ STATUS.SEQ), in the order of their codes. -/
inductive CflSeq
  | locked | key1 | armed | cmdSet | data | running
deriving DecidableEq, Repr

/-- One command port (R769–R775). -/
structure CflPort where
  seq : CflSeq := .locked
  /-- READ was written to CMD in LOCKED: the next ADDR write starts it. -/
  reading : Bool := false
  cmd : Nat := 0
  addr : Nat := 0
  done : Bool := false
  err : Bool := false
  corrected : Nat := 0
  result : Nat := 0
  failAddr : Nat := 0
  data : Tab Nat := []
  /-- Elapsed time of the first key of the sequence (R771). -/
  keyAt : Nat := 0
  /-- Data words written so far in the DATA state. -/
  words : Nat := 0
  /-- The bank whose erase this port still waits for. -/
  erasing : Option Bool := none
  /-- A READ that waits for the bank's program to end, with its bit errors (R777). -/
  waiting : Option (Nat × Nat) := none
deriving DecidableEq, Repr

/-- What a bank runs (CFL_BANKb_STATE.OP). -/
inductive BankOp
  | idle | programming | erasing | suspended
deriving DecidableEq, Repr

/-- One bank: its operation, the port that runs it, its sector, and a suspend under way. A program may run beside a suspended erase. -/
structure Bank where
  op : BankOp := .idle
  port : Bool := false
  sector : Nat := 0
  suspending : Option Bool := none
  /-- A program running while an erase is suspended: its port and unit address. -/
  prog : Option (Bool × Nat) := none
  image : List Byte := []
deriving DecidableEq, Repr

/-- One execute-only region (R785). -/
structure XoRegion where
  base : Nat := 0
  size : Nat := 0
  en : Bool := false
  wp : Bool := false
  lock : Bool := false
deriving DecidableEq, Repr

/-- The code-flash controller. `flash` holds the bytes of both banks; an unlisted byte is as manufactured (log entry 3). -/
structure Cfl where
  flash : Mem := []
  ports : Tab CflPort := []
  banks : Tab Bank := []
  xo : Tab XoRegion := []
  warnAddr : Nat := 0
  warnCount : Nat := 0
deriving DecidableEq, Repr

/-- Where the boot chain stands (R794–R800). -/
inductive Boot
  | rom | stage1 | stage2
deriving DecidableEq, Repr

/-- Secure boot: fuses, measurement registers and the attestation report. -/
structure Sec where
  /-- Fuses of the manufacturer: the device secret, the digest of the firmware root key, and the digest of key slot 0 (17, R248). -/
  secret : List Byte := Config.deviceSecret
  rootKey : List Byte := Config.rootKeyDigest
  key0 : List Byte := Config.stockKeyDigest
  secured : Bool := true
  /-- Programmed rows of the firmware floor and of the four key slots, oldest first (R791). -/
  fwRows : List Nat := []
  keyRows : Tab (List Nat) := []
  /-- Digests of the written key slots 1–3, and the revoked slots (R248–R250). -/
  keys : Tab (List Byte) := []
  revoked : Tab Bool := []
  boot : Boot := .rom
  bank : Bool := false
  trial : Bool := false
  fwVersion : Nat := 0
  meas : Tab (List Byte) := []
  nonce : Tab Nat := []
  extend : Tab Nat := []
  floorResult : Nat := 0
  attBusy : Bool := false
  attDone : Bool := false
  /-- What ATT_GO took: the nonce, the measurements, NOW and the next ADM_SEQ (R801). -/
  attNonce : List Byte := []
  attMeas : List Byte := []
  attTime : Nat := 0
  attSeq : Nat := 0
  report : List Byte := []
  akPub : List Byte := []
  akEndorse : List Byte := []
  dikSigning : Bool := true
deriving DecidableEq, Repr

/-! ## Clocks, power and the always-on domain (18, 19) -/

/-- The power states of R805; `entry` is a Siding entry under way. -/
inductive PwrState
  | off | starting | running | siding | entry
deriving DecidableEq, Repr

/-- One always-on comparator (R816). -/
structure Comparator where
  target : Nat := 0
  arm : Bool := false
  wake : Bool := false
  groups : Nat := 0
  period : Nat := 0
  /-- A match holds its wake groups (R818). -/
  holding : Bool := false
deriving DecidableEq, Repr

/-- The always-on domain with the reset record (R830, R831). -/
structure Aon where
  cmps : Tab Comparator := []
  wakeInEn : Nat := 0
  kind : Nat := 1
  record : Nat := 0
  cause : Nat := 0
  ns : Nat := 0
  /-- The always-on copy of schedule time (R131). -/
  copy : Nat := 0
deriving DecidableEq, Repr

/-- Clocks, power and start-up. -/
structure Pwr where
  state : PwrState := .starting
  modeEff : Nat := 1
  switching : Bool := false
  hostReady : Bool := false
  sidingResult : Nat := 0
  wakeSrc : Nat := 0
  /-- A wake source makes the unit leave SIDING (R825). -/
  leaving : Bool := false
  /-- Wake sources that fired during a Siding entry, as bits of PWR_WAKE_SRC (R822). -/
  wakePending : Nat := 0
  /-- Gated units, bit u of R806. -/
  gated : Nat := 0
  /-- Units requested while gated and not yet awake. -/
  waking : Nat := 0
  /-- A WAKE instruction requested units that are not yet awake (line 0xEF). -/
  wakePulse : Bool := false
  clkLocked : Nat := 0
  /-- Clocks with trouble: (clock, off frequency). -/
  clkBad : List (Nat × Bool) := []
  supplyBad : Bool := false
  hot : Bool := false
  groupsTrained : List Nat := []
  milestones : List Nat := []
  /-- Host ports whose PERST# is asserted. -/
  perst : Nat := 3
  /-- VID code sent to the core regulator (R840). -/
  vid : Nat := 14
  sidingAt : Nat := 0
deriving DecidableEq, Repr


/-! ## The whole machine -/

/-- What the unit sends to the world outside, oldest first: host memory writes, messages, frames, member commands, pins and the
housekeeping interrupts. The list is the model's own field (log entry 5); nothing reads it back. -/
inductive Output
  | hostWrite (fn addr : Nat) (bytes : List Byte)
  | msix (fn vector : Nat)
  | hkInterrupt (record : Nat)
  | hkTrap (record : Nat)
  | configReply (port : Bool) (retry : Bool)
  | pps (high : Bool)
  | errOut (asserted : Bool)
  | snapOut (high : Bool)
  | hupTest (on : Bool)
  | frame (port : Nat) (f : TxKind) (bytes : List Byte)
  | heartbeat (drawbar : Bool) (bytes : List Byte)
  | coupler (bytes : List Byte)
  | preempt (member : Nat)
  | lineIdle
  | memberReset (member : Nat)
  | vid (code : Nat)
deriving DecidableEq, Repr

/-- The machine beside its command queue. -/
structure Chip where
  blocks : Tab Block := []
  group : GroupCommit := {}
  tmb : Tmb := {}
  admNext : Nat := 1
  funcs : Tab Func := []
  raised : List Raised := []
  pulses : List Nat := []
  pools : Tab Pool := []
  evr : Evr := {}
  snp : Snp := {}
  grd : Grd := {}
  age : Age := {}
  engines : Tab Engine := []
  channels : Tab Channel := []
  nextHandle : Nat := 1
  stg : Mem := []
  hbm : Mem := []
  pkt : Mem := []
  arrays : Tab RaidArray := []
  volumes : Tab Volume := []
  members : Tab Member := []
  trust : Tab Nat := []
  cache : Cache := {}
  vault : Vault := {}
  par : Par := {}
  ports : Tab NetPort := []
  streams : Tab StreamState := []
  meters : Tab MeterState := []
  wins : Tab WinState := []
  held : List HeldFrame := []
  rma : Rma := {}
  cfl : Cfl := {}
  sec : Sec := {}
  pwr : Pwr := {}
  aon : Aon := {}
  out : List Output := []
  free : Nat := 0
deriving DecidableEq, Repr

/-- The machine's faults. Every command of the table has an effect, so none is raised. -/
inductive Fault
deriving DecidableEq, Repr

/-- The machine's refusals. -/
inductive Refusal
  /-- Raised by Dispatch.lean for a command whose meaning is not written: safe. -/
  | notModelled (mnemonic : String)
deriving DecidableEq, Repr

/-- The state of the model: the machine, and the commands that wait for it, first in first out. -/
structure State where
  chip : Chip := {}
  pending : List Instr := []
deriving DecidableEq, Repr

/-- The machine right after a power-on reset, with no command waiting. -/
def State.reset : State := {}

end Sys2Proof.Machine
end

