-- ==== Sys2Proof/Machine/Ops.lean ====
section
/-! DEFINITION. The named operations over the state: sparse tables, byte memories, blocks and their configuration sets, audit pools, free values,
outputs, pulses, the admission order, event recorder records and raised events. -/

namespace Sys2Proof.Machine

/-! ## Sparse tables -/

/-- The value at key `k`; `d` where the table does not list it. -/
def tget {α : Type} (t : Tab α) (d : α) (k : Nat) : α :=
  match t with
  | [] => d
  | (k', v) :: r => if k' = k then v else tget r d k

/-- A table without key `k`. -/
def terase {α : Type} (t : Tab α) (k : Nat) : Tab α := t.filter fun p => p.1 != k

/-- A pair put in key order. -/
def tinsert {α : Type} (t : Tab α) (k : Nat) (v : α) : Tab α :=
  match t with
  | [] => [(k, v)]
  | (k', v') :: r => if k < k' then (k, v) :: (k', v') :: r else (k', v') :: tinsert r k v

/-- The table with `v` at key `k`, in canonical form for the default `d`. -/
def tput {α : Type} [DecidableEq α] (t : Tab α) (d : α) (k : Nat) (v : α) : Tab α :=
  if v = d then terase t k else tinsert (terase t k) k v

/-- The keys of a table rise strictly, and no pair holds its default. -/
def tabWf {α : Type} [DecidableEq α] (d : Nat → α) : Tab α → Bool
  | [] => true
  | [(k, v)] => decide (v ≠ d k)
  | (k, v) :: (k', v') :: r => decide (v ≠ d k) && decide (k < k') && tabWf d ((k', v') :: r)

/-! ## Byte memories -/

/-- The canonical form of a byte memory whose unlisted bytes read as `d`. -/
def Memory.wf (d : Nat → Byte) (m : Mem) : Bool := tabWf d m

/-- One byte of a memory. -/
def mget (d : Nat → Byte) (m : Mem) (a : Nat) : Byte := tget m (d a) a

/-- A memory with one byte written. -/
def mput (d : Nat → Byte) (m : Mem) (a : Nat) (b : Byte) : Mem := tput m (d a) a b

/-- `n` bytes of a memory. -/
def mread (d : Nat → Byte) (m : Mem) (a : Nat) : Nat → List Byte
  | 0 => []
  | n + 1 => mget d m a :: mread d m (a + 1) n

/-- A memory with bytes written at rising addresses. -/
def mwrite (d : Nat → Byte) (m : Mem) (a : Nat) : List Byte → Mem
  | [] => m
  | b :: r => mwrite d (mput d m a b) (a + 1) r

/-- Memories that read 0 where nothing is written (log entry 3). -/
def zeros : Nat → Byte := fun _ => 0

/-- What code flash reads where nothing has been programmed or erased: the reserved area of each bank is erased (R768), and the rest is as
manufactured (log entry 3). -/
def flashInit (a : Nat) : Byte := if 0x1810000 ≤ a % 0x2000000 ∧ a % 0x2000000 < 0x1FC0000 then 0xFF else Config.flashByte a

/-- What HBM reads where nothing is written: page table entries free and page maps empty, as CCH_OCC.HELD reads 0 at reset (R424,
R426), and 0 elsewhere (log entry 3). -/
def hbmInit (a : Nat) : Byte :=
  if 0x12000000 ≤ a ∧ a < 0x12400000 ∧ a % 32 < 4 then 0xFF
  else if 0x11000000 ≤ a ∧ a < 0x12000000 ∧ 0x40 ≤ a % 1024 ∧ a % 1024 < 0x240 then 0xFF
  else 0

/-! ## Blocks and configuration sets -/

/-- The common register group of Draft record `r`. -/
def Chip.blk (c : Chip) (r : Nat) : Block := tget c.blocks {} r

/-- The chip with that group replaced. -/
def Chip.setBlk (c : Chip) (r : Nat) (b : Block) : Chip := { c with blocks := tput c.blocks {} r b }

/-- The chip with that group changed. -/
def Chip.modBlk (c : Chip) (r : Nat) (f : Block → Block) : Chip := c.setBlk r (f (c.blk r))

/-- The value of the RWS field at `off` and `lsb` in a set of record `r`. -/
def fieldOf (r : Nat) (set : Tab Nat) (off lsb : Nat) : Nat := tget set (resetOf r (8 * off + lsb)) (8 * off + lsb)

/-- An effective value: what the block runs on (R69). -/
def Chip.eff (c : Chip) (r off lsb : Nat) : Nat := fieldOf r (c.blk r).effective off lsb

/-- A value of the most recently accepted set (R82). -/
def Chip.acc (c : Chip) (r off lsb : Nat) : Nat := fieldOf r (c.blk r).accepted off lsb

/-! ## Free values, outputs, pulses -/

/-- A fresh free value below `m`, and the chip with the counter advanced (log entry 4). -/
def Chip.fresh (c : Chip) (m : Nat) : Nat × Chip := (Config.freeValue c.free % m, { c with free := c.free + 1 })

/-- Fresh free bytes (log entry 4). -/
def Chip.freshBytes (c : Chip) (n : Nat) : List Byte × Chip :=
  ((List.range n).map fun i => BitVec.ofNat 8 (Config.freeValue (c.free + i)), { c with free := c.free + n })

/-- Something leaves the unit. -/
def Chip.emit (c : Chip) (o : Output) : Chip := { c with out := c.out ++ [o] }

/-- A pulse of an event line sets out over the fabric (R220). -/
def Chip.pulse (c : Chip) (line : Nat) : Chip := { c with pulses := c.pulses ++ [line] }

/-- TMB_NOW: schedule time in NOW layout (R101). -/
def Chip.nowLayout (c : Chip) : Nat := c.tmb.now % 2 ^ 64

/-- Schedule time in ns. -/
def Chip.nowNs (c : Chip) : Nat := c.tmb.now / 2 ^ 16 % 2 ^ 48

/-- The unit admits work: its clocks run and no Siding entry is under way (R822). -/
def Chip.admits (c : Chip) : Bool := c.pwr.state == .starting || c.pwr.state == .running

/-! ## Audit pools (R34–R37) -/

/-- A pool's counters. -/
def Chip.pool (c : Chip) (p : Nat) : Pool := tget c.pools {} p

/-- A pool changed. -/
def Chip.modPool (c : Chip) (p : Nat) (f : Pool → Pool) : Chip := { c with pools := tput c.pools {} p (f (c.pool p)) }

/-- `n` units are handed to a holder. -/
def Chip.grant (c : Chip) (p n : Nat) : Chip := c.modPool p fun q => { q with granted := q.granted + n, held := q.held + n }

/-- `n` units are handed out and still on their way. -/
def Chip.grantMoving (c : Chip) (p n : Nat) : Chip :=
  c.modPool p fun q => { q with granted := q.granted + n, inFlight := q.inFlight + n }

/-- A moving unit arrives at its holder. -/
def Chip.arrive (c : Chip) (p : Nat) : Chip :=
  c.modPool p fun q => if q.inFlight = 0 then q else { q with inFlight := q.inFlight - 1, held := q.held + 1 }

/-- `n` held units are given back (no more than are held). -/
def Chip.giveBack (c : Chip) (p n : Nat) : Chip :=
  c.modPool p fun q => { q with returned := q.returned + min n q.held, held := q.held - min n q.held }

/-- A moving unit is given back without reaching a holder. -/
def Chip.dropMoving (c : Chip) (p : Nat) : Chip :=
  c.modPool p fun q => if q.inFlight = 0 then q else { q with returned := q.returned + 1, inFlight := q.inFlight - 1 }

/-! ## The admission order (R30, R32) -/

/-- The next ADM_SEQ value is taken: from the granted block in STANDBY and FENCED while it lasts (R687), in sequence otherwise. -/
def Chip.takeSeq (c : Chip) : Nat × Chip :=
  if (c.par.role = .standby ∨ c.par.role = .fenced) ∧ 0 < c.par.blockLeft then
    (c.par.blockNext,
      { c with par := { c.par with blockNext := (c.par.blockNext + 1) % 2 ^ 48, blockLeft := c.par.blockLeft - 1, lastTaken := c.par.blockNext } })
  else (c.admNext, { c with admNext := (c.admNext + 1) % 2 ^ 48, par := { c.par with lastTaken := c.admNext } })

/-- The place that the next admission takes: what an event that takes none itself carries. -/
def Chip.nextPlace (c : Chip) : Nat := c.takeSeq.1

/-! ## The event recorder (R758–R764) -/

/-- Store one record, or count it as dropped. -/
def Evr.store (e : Evr) (stopFull : Bool) (x : EvrRec) : Evr :=
  if e.frozen ∨ (stopFull ∧ e.wrapped) then { e with dropped := satAdd 32 e.dropped 1 }
  else
    let x := { x with rseq := e.rseq }
    let e : Evr := { e with
      ring := tput e.ring {} e.next x
      rseq := (e.rseq + 1) % 2 ^ 32
      next := (e.next + 1) % 65536
      wrapped := e.wrapped || e.next + 1 == 65536 }
    match e.post with
    | some n => if n ≤ 1 then { e with post := none, frozen := true, frozenBy := 2 } else { e with post := some (n - 1) }
    | none => e

/-- Record a happening of an enabled kind (R758–R760). -/
def Chip.record (c : Chip) (kind blkRec code arg0 arg1 : Nat) : Chip :=
  if bitAt (c.eff 92 0x100 1) (kind - 1) then
    let x : EvrRec := { time := c.nowLayout, kind := kind, record := blkRec, code := code, seq := c.admNext, arg0 := arg0 % 2 ^ 32,
                        arg1 := arg1 % 2 ^ 32 }
    { c with evr := c.evr.store (c.eff 92 0x100 9 == 1) x }
  else c

/-! ## Functions and events (R317–R324) -/

/-- A PCIe function. -/
def Chip.fn (c : Chip) (f : Nat) : Func := tget c.funcs {} f

/-- The chip with a function replaced. -/
def Chip.setFn (c : Chip) (f : Nat) (x : Func) : Chip := { c with funcs := tput c.funcs {} f x }

/-- The chip with a function changed. -/
def Chip.modFn (c : Chip) (f : Nat) (g : Func → Func) : Chip := c.setFn f (g (c.fn f))

/-- A physical function. -/
def isPf (f : Nat) : Bool := f % 64 == 0

/-- An event of type `t` reaches function `f`: its ring is set with the type in its mask, or its admin queue is enabled with no ring and
it would have the type (R320, R322). -/
def Chip.reaches (c : Chip) (t f : Nat) : Bool :=
  let x := c.fn f
  x.enable && x.flr.isNone &&
  if x.evtSet then bitAt x.evtMask t else isPf f || t == 1 || t == 2 || t == 7

/-- An event is raised to the given functions: one copy each of pool 5 (R36). -/
def Chip.raiseTo (c : Chip) (ev : Ev) (fs : List Nat) : Chip :=
  { (c.grantMoving 5 fs.length) with raised := c.raised ++ [{ ev := ev, targets := fs }] }

/-- An event is raised to every function it reaches (R320). -/
def Chip.raise (c : Chip) (ev : Ev) : Chip := c.raiseTo ev ((List.range 128).filter (c.reaches ev.type))

/-- An event that concerns one function is raised to it alone (R320). -/
def Chip.raiseOne (c : Chip) (f : Nat) (ev : Ev) : Chip := c.raiseTo ev ([f].filter (c.reaches ev.type))

/-! ## Engines, Shuttles, arrays, volumes, members -/

/-- Engine `e`: 0–15 stripe engines, 16–19 Treadle engines. -/
def Chip.eng (c : Chip) (e : Nat) : Engine := tget c.engines {} e
def Chip.setEng (c : Chip) (e : Nat) (x : Engine) : Chip := { c with engines := tput c.engines {} e x }
def Chip.modEng (c : Chip) (e : Nat) (f : Engine → Engine) : Chip := c.setEng e (f (c.eng e))

/-- Shuttle channel `n`. -/
def Chip.chan (c : Chip) (n : Nat) : Channel := tget c.channels {} n
def Chip.setChan (c : Chip) (n : Nat) (x : Channel) : Chip := { c with channels := tput c.channels {} n x }
def Chip.modChan (c : Chip) (n : Nat) (f : Channel → Channel) : Chip := c.setChan n (f (c.chan n))

/-- Array `a`. -/
def Chip.arr (c : Chip) (a : Nat) : RaidArray := tget c.arrays {} a
def Chip.setArr (c : Chip) (a : Nat) (x : RaidArray) : Chip := { c with arrays := tput c.arrays {} a x }
def Chip.modArr (c : Chip) (a : Nat) (f : RaidArray → RaidArray) : Chip := c.setArr a (f (c.arr a))

/-- Volume `v`. -/
def Chip.vol (c : Chip) (v : Nat) : Volume := tget c.volumes {} v
def Chip.setVol (c : Chip) (v : Nat) (x : Volume) : Chip := { c with volumes := tput c.volumes {} v x }
def Chip.modVol (c : Chip) (v : Nat) (f : Volume → Volume) : Chip := c.setVol v (f (c.vol v))

/-- Member `m`. -/
def Chip.mbr (c : Chip) (m : Nat) : Member := tget c.members {} m
def Chip.setMbr (c : Chip) (m : Nat) (x : Member) : Chip := { c with members := tput c.members {} m x }
def Chip.modMbr (c : Chip) (m : Nat) (f : Member → Member) : Chip := c.setMbr m (f (c.mbr m))

/-- A queue of a function. -/
def Func.queue (x : Func) (g : Nat) : Queue := tget x.queues {} g
def Func.setQueue (x : Func) (g : Nat) (q : Queue) : Func := { x with queues := tput x.queues {} g q }
def Chip.queue (c : Chip) (f g : Nat) : Queue := (c.fn f).queue g
def Chip.modQueue (c : Chip) (f g : Nat) (h : Queue → Queue) : Chip :=
  c.modFn f fun x => x.setQueue g (h (x.queue g))

end Sys2Proof.Machine
end

