-- ==== Sys2Proof/Machine/Commit.lean ====
section
/-! DEFINITION. Configuration (02): shadow writes and their clamps, GO and DISCARD, the agreement checks of every block, and the group commit. -/

namespace Sys2Proof.Machine

/-! ## Shadow writes (R70–R74, R855) -/

/-- The value that reaches a field, and the kind of the clamp: 0 none, 1 HIGH, 2 LOW, 4 KEPT (R70). -/
def clampField (f : Fld) (old v : Nat) : Nat × Nat :=
  match f.clamp with
  | .any => (v, 0)
  | .span lo hi => if v < lo then (lo, 2) else if hi < v then (hi, 1) else (v, 0)
  | .signed lo hi =>
    if toSigned f.width v < lo then (ofSigned f.width lo, 2) else if hi < toSigned f.width v then (ofSigned f.width hi, 1) else (v, 0)
  | .zeroOr lo hi => if v = 0 then (0, 0) else if v < lo then (lo, 2) else if hi < v then (hi, 1) else (v, 0)
  | .codes n => if v < n then (v, 0) else (old, 4)
  | .ones m => if v ||| m = v then (v, 0) else (v ||| m, 1)
  | .react reset =>
    if v % 8 = 1 ∨ v % 8 = 2 ∨ v % 8 = 4 ∨ v % 8 = 5 ∨ (v % 8 = 3 ∧ reset) then (v, 0) else (old, 4)
  | .fixed => if v = old then (v, 0) else (old, 4)

/-- The clamp log after a clamp of the field at bit `key` that was written with `v` (R72, R855). -/
def ClampLog.add (l : ClampLog) (key kind v : Nat) : ClampLog :=
  if l.valid then { l with count := min 127 (l.count + 1) }
  else { offset := key / 32 * 4, lsb := key % 32, kind := kind, count := min 127 (l.count + 1), valid := true, value := v % 2 ^ 32 }

/-- The value a write of `value` to bits `[lo, hi)` gives a field: the bits it covers change, the others stay. -/
def mergeField (f : Fld) (old lo hi value : Nat) : Nat :=
  let a := max f.lsb lo
  let b := min (f.lsb + f.width) hi
  if b ≤ a then old
  else
    let part := bits value (a - lo) (b - a)
    old % 2 ^ (a - f.lsb) + part * 2 ^ (a - f.lsb) + old / 2 ^ (b - f.lsb) * 2 ^ (b - f.lsb)

/-- One field of a shadow write: clamped on its own as it reaches the shadow (R70). -/
def Block.writeField (lo hi value : Nat) (b : Block) (f : Fld) : Block :=
  let old := tget b.shadow f.reset f.lsb
  let v := mergeField f old lo hi value
  let (w, kind) := clampField f old v
  { b with shadow := tput b.shadow f.reset f.lsb w, clamp := if kind = 0 then b.clamp else b.clamp.add f.lsb kind v }

/-- A write of `value` to bytes `[off, off + size)` of record `r` reaches the RWS fields there and increments SHADOW_GEN once. -/
def Block.writeShadow (b : Block) (r off size value : Nat) : Block :=
  let fs := fieldsIn r (8 * off) (8 * (off + size))
  if fs.isEmpty then b
  else
    let b := fs.foldl (Block.writeField (8 * off) (8 * (off + size)) value) b
    { b with gen := (b.gen + 1) % 2 ^ 16, latch := if size = 8 then terase b.latch off else b.latch }

/-- The write reaches a register whole (R52, R53): 32 or 64 bits, naturally aligned, inside the block. -/
def okWrite (size : Nat) (full : Bool) (off limit : Nat) : Bool :=
  (size == 4 || size == 8) && full && off % size == 0 && off + size ≤ limit

/-- RWS_WRITE (R70): a whole write reaches RWS fields; a half of a 64-bit register has rows of its own (R55). -/
def rwsWriteOp (a : Access) (c : Chip) : Chip :=
  match a.tgt with
  | .block r off =>
    if okWrite a.size a.full off (blockSize r) && !(a.size == 4 && wide r (off / 8 * 8)) then
      c.modBlk r fun b => b.writeShadow r off a.size a.value.toNat
    else c
  | _ => c

/-! ## GO, DISCARD and the checks (R73–R82) -/

/-- GO reaches a block (R73, R75, R97). The DRF_ record has no CFG_COMMIT (R61). -/
def goOp (r : Rec) (useKey : Bool) (key : BitVec 16) (c : Chip) : Chip :=
  if r = 0 then c
  else c.modBlk r.val fun b =>
    if b.taken.isSome ∨ b.groupHeld then { b with goDropped := true }
    else { b with taken := some ⟨b.shadow, !useKey || key.toNat == b.gen⟩ }

/-- DISCARD (R87): ignored while BUSY. -/
def discardOp (r : Rec) (c : Chip) : Chip :=
  if r = 0 then c
  else c.modBlk r.val fun b =>
    if b.taken.isSome then b else { b with shadow := b.accepted, gen := (b.gen + 1) % 2 ^ 16 }

/-- CLAMP_LOG.VALID written with 1 clears the whole log (R72). -/
def clampLogClearOp (r : Rec) (c : Chip) : Chip := if r = 0 then c else c.modBlk r.val fun b => { b with clamp := {} }

/-- A failing agreement check: its number, the bit address of field A, and the record and bit address of field B (R80, R81). -/
structure CheckFail where
  check : Nat
  fieldA : Nat
  recB : Nat
  fieldB : Nat
deriving DecidableEq, Repr

/-- Reads a field of some record as a commit's checks see it (R82, R94). -/
abbrev View := Nat → Nat → Nat → Nat

/-- The first failing check of a list of (passes, failure). -/
def firstFail : List (Bool × CheckFail) → Option CheckFail
  | [] => none
  | (ok, f) :: r => if ok then firstFail r else some f

/-- Agreement checks 1–5 of TMB_ (R136). -/
def checksTmb (v : View) : Option CheckFail :=
  let g := v 76
  let profile := g 0x10C 0
  firstFail [
    (profile == 1 || g 0x10C 3 == 0, ⟨1, 8 * 0x10C, 76, 8 * 0x10C + 3⟩),
    (profile == 1 || g 0x10C 1 == 0, ⟨2, 8 * 0x10C, 76, 8 * 0x10C + 1⟩),
    (decide (g 0x110 0 ≤ 1000 * g 0x110 16), ⟨3, 8 * 0x110, 76, 8 * 0x110 + 16⟩),
    (g 0x108 0 != 0 || g 0x108 4 != 0, ⟨4, 8 * 0x108, 76, 8 * 0x108 + 4⟩),
    (g 0x108 0 == 0 || g 0x10C 20 == 1, ⟨5, 8 * 0x108, 76, 8 * 0x10C + 20⟩)]

/-- The largest proven count of an image (SLOTk_WCET). -/
def Image.wcet (i : Image) : Nat := i.entries.foldl (fun m e => max m e.2) 0

/-- Slot `k` of engine `e`. -/
def Chip.slot (c : Chip) (e k : Nat) : Slot := tget (c.eng e).slots {} k

/-- SLOTk_WCET: 0 when empty. -/
def Chip.slotWcet (c : Chip) (e k : Nat) : Nat := match (c.slot e k).cur with | some i => i.wcet | none => 0

/-- SLOTk_PROG: 0 when empty. -/
def Chip.slotProg (c : Chip) (e k : Nat) : Nat := match (c.slot e k).cur with | some i => i.progId | none => 0

/-- ENTRY_COUNT of a slot: 0 when empty. -/
def Chip.slotEntries (c : Chip) (e k : Nat) : Nat := match (c.slot e k).cur with | some i => i.entries.length | none => 0

/-- Checks 1 to n of an engine block: each limit covers its slot's count (R261). -/
def checksSlots (c : Chip) (v : View) (r e n : Nat) : List (Bool × CheckFail) :=
  (List.range n).map fun k =>
    (decide (c.slotWcet e k ≤ v r (0x200 + 16 * k) 0), ⟨k + 1, 8 * (0x200 + 16 * k), r, 8 * (0x204 + 16 * k)⟩)

/-- Agreement checks of ARY_ instance n: 1–8 (R261), 9 and 10 (R417), 11 (R524). -/
def checksAry (c : Chip) (v : View) (r : Nat) : Option CheckFail :=
  let n := instOf r
  let g := v r
  let made := (c.arr n).made
  let slot := g 0x100 0
  let rslot := g 0x500 0
  firstFail (checksSlots c v r n 8 ++
    [(!made || c.slotProg n slot == (c.arr n).prog, ⟨9, 8 * 0x100, r, 8 * 0x414⟩)] ++
    [4, 8, 12, 16].map (fun l => (!made || decide (g 0x100 l < c.slotEntries n slot), ⟨10, 8 * 0x100 + l, r, 8 * (0x20C + 16 * slot)⟩)) ++
    [4, 8, 12].map (fun l => (!made || decide (g 0x500 l < c.slotEntries n rslot), ⟨11, 8 * 0x500 + l, r, 8 * (0x20C + 16 * rslot)⟩)))

/-- The speed that TRD_PORT_CFG.SPEED selects, in Mb/s. -/
def speedMbps (s : Nat) : Nat :=
  if s = 1 then 10000 else if s = 2 then 25000 else if s = 3 then 50000 else if s = 4 then 100000 else if s = 5 then 200000
  else if s = 6 then 400000 else 0

/-- The pairs of speed and FEC that R572 allows; a port that is off takes any FEC code (log entry 30). -/
def fecOk (speed fec : Nat) : Bool :=
  if speed = 0 then true else if speed = 1 then fec == 0 || fec == 1 else if speed = 2 then fec == 0 || fec == 1 || fec == 2 else fec == 3

/-- Agreement checks 1–7 of TRD_ (R261, R618). -/
def checksTrd (c : Chip) (v : View) (r : Nat) : Option CheckFail :=
  let e := 16 + instOf r
  let g := v r
  let run := g 0x108 0 == 1
  let slot := g 0x108 1
  firstFail (checksSlots c v r e 2 ++ [
    (!run || (c.slot e slot).cur.isSome, ⟨3, 8 * 0x108 + 1, r, 8 * (0x20C + 16 * slot)⟩),
    (fecOk (g 0x100 0) (g 0x100 3), ⟨4, 8 * 0x100, r, 8 * 0x100 + 3⟩),
    (!run || decide (5 * c.slotWcet e slot < 4 * g 0x120 0), ⟨5, 8 * 0x108 + 1, r, 8 * 0x120⟩),
    (g 0x100 5 == 0 || (g 0x100 8 != 0 && g 0x100 8 != 0xFF), ⟨6, 8 * 0x100 + 5, r, 8 * 0x100 + 8⟩)] ++
    (List.range 8).map (fun tc =>
      (!bitAt (g 0x100 16) tc || decide (g (0x140 + 4 * tc) 0 ≤ speedMbps (g 0x100 0)), ⟨7, 8 * (0x140 + 4 * tc), r, 8 * 0x100⟩)))

/-- Block offset of window record `x` of STM_ (R619). -/
def winOff (x : Nat) : Nat := 0xB000 + 64 * x

/-- Block offset of stream record `h` of STM_ (R619). -/
def strOff (h : Nat) : Nat := 0x1000 + 32 * h

/-- D of a volume's array: data bytes per stripe (R372). -/
def RaidArray.stripBytes (a : RaidArray) : Nat := 2 ^ a.stripLog2
def RaidArray.dataBytes (a : RaidArray) : Nat := (a.geom.w - 2) * a.stripBytes

/-- The valid window records of a set, ascending. Only windows whose VALID bit differs from its reset value 0 stand in the table. -/
def validWins (v : View) : List Nat := (List.range 256).filter fun x => v 81 (winOff x) 0 == 1

/-- STM_RATE_TOTAL over a view: the sum of RATE over the valid windows. -/
def rateTotal (v : View) : Nat := (validWins v).foldl (fun s x => s + v 81 (winOff x + 0x28) 0) 0

/-- The lowest valid window at which the running total of RATE passes `lim`. -/
def rateOver (v : View) (lim : Nat) : List Nat → Nat → Option Nat
  | [], _ => none
  | x :: r, s => if lim < s + v 81 (winOff x + 0x28) 0 then some x else rateOver v lim r (s + v 81 (winOff x + 0x28) 0)

/-- Agreement checks 1–7 of STM_ (R621). -/
def checksStm (c : Chip) (v : View) : Option CheckFail :=
  let g := v 81
  let ws := validWins v
  let lim := if v 88 0x100 0 == 0 then 120000 else 200000
  firstFail (
    ws.map (fun x =>
      let o := winOff x
      let vol := c.vol (g (o + 4) 0)
      let d := (c.arr vol.array).dataBytes
      let fb := g (o + 0x10) 0
      let rg := g (o + 0x18) 0
      (vol.state != .none && d != 0 && fb % d == 0 && rg % d == 0 && rg != 0 && decide (fb + rg ≤ vol.count * d),
        ⟨1, 8 * (o + 0x10), 81, 8 * (o + 0x18)⟩)) ++
    ws.map (fun x =>
      let o := winOff x
      let d := (c.arr (c.vol (g (o + 4) 0)).array).dataBytes
      let gp := g (o + 0x24) 0 * g (o + 0x20) 0
      (gp != 0 && d % gp == 0 && g (o + 0x18) 0 % gp == 0, ⟨2, 8 * (o + 0x24), 81, 8 * (o + 0x20)⟩)) ++
    ws.map (fun x =>
      let o := winOff x
      let sh := g (o + 5) 0
      (g o 2 == 0 || g (o + 0x20) 0 % ((sh / 4 + 1) * (sh % 4 + 1)) == 0, ⟨3, 8 * (o + 5), 81, 8 * (o + 0x20)⟩)) ++
    ws.map (fun x =>
      let o := winOff x
      let p := g (o + 1) 0
      (decide (g (o + 8) 0 < g (o + 0xC) 0) && decide (g (o + 0xC) 0 ≤ v (recTrd p) 0x120 0), ⟨4, 8 * (o + 8), recTrd p, 8 * 0x120⟩)) ++
    ws.map (fun x =>
      let o := winOff x
      let k := g (o + 6) 0
      (decide (g (o + 6) 4 < c.slotEntries 0 k), ⟨5, 8 * (o + 6), 10, 8 * (0x20C + 16 * k)⟩)) ++
    ws.map (fun x =>
      let o := winOff x
      let h := g (o + 2) 0
      let m := g (strOff h + 0x1A) 0
      (g (strOff h) 0 == 1 && (m == 0xFFFF || decide (m < 256)), ⟨6, 8 * (o + 2), 81, 8 * (strOff h + 0x1A)⟩)) ++
    match rateOver v lim ws 0 with
    | some x => [(false, ⟨7, 8 * (winOff x + 0x28), 88, 8 * 0x100⟩)]
    | none => [])

/-- Agreement check 1 of PWR_ (R44, R815). -/
def checksPwr (v : View) : Option CheckFail :=
  firstFail [(v 88 0x100 0 != 0 || decide (rateTotal v ≤ 120000), ⟨1, 8 * 0x100, 81, 8 * 0x104⟩)]

/-- The agreement checks of a block in ascending check number; the first that fails (R78). -/
def checks (c : Chip) (v : View) (r : Nat) : Option CheckFail :=
  match kindOf r with
  | .tmb => checksTmb v
  | .ary => checksAry c v r
  | .trd => checksTrd c v r
  | .stm => checksStm c v
  | .pwr => checksPwr v
  | _ => none

/-- A commit of one block sees its own taken set, and the accepted sets of the others (R82). -/
def Chip.viewOne (c : Chip) (r : Nat) (set : Tab Nat) : View := fun r' off lsb =>
  if r' = r then fieldOf r set off lsb else c.acc r' off lsb

/-- A group commit sees the shadows of the listed blocks, and the accepted sets of the others (R94). -/
def Chip.viewGroup (c : Chip) (rs : List Nat) : View := fun r off lsb =>
  if rs.contains r then fieldOf r (c.blk r).shadow off lsb else c.acc r off lsb

/-- The COMMIT_ERR of a failing check in block `r` (R80). -/
def errOf (r : Nat) (f : CheckFail) : CommitErr :=
  { valid := true, cross := f.recB != r, reason := 1, check := f.check, bRecord := if f.recB = r then 0 else f.recB,
    fieldA := f.fieldA, fieldB := f.fieldB }

/-- An accepted set waits for its boundary (R76, R83). -/
def Block.accept (b : Block) (set : Tab Nat) : Block :=
  { b with accepted := set, staged := true, lastRefused := false, err := {} }

/-- A refused commit changes no accepted or effective value (R79). -/
def Block.refuse (b : Block) (e : CommitErr) : Block := { b with lastRefused := true, err := e }

/-- COMMIT_CHECKS_DONE (R76–R82): the checks of an accepted GO complete. -/
def commitChecksDoneOp (r : Rec) (c : Chip) : Chip :=
  let b := c.blk r.val
  match b.taken with
  | none => c
  | some t =>
    let b := { b with taken := none }
    if !t.keyOk then c.setBlk r.val (b.refuse { valid := true, reason := 2 })
    else match checks c (c.viewOne r.val t.set) r.val with
      | some f => c.setBlk r.val (b.refuse (errOf r.val f))
      | none => c.setBlk r.val (b.accept t.set)

/-! ## Group commit (R92–R97) -/

/-- Slot `i` of the group list; 0xFFFF is empty. -/
def GroupCommit.slotAt (g : GroupCommit) (i : Nat) : Nat := bits (tget g.list 0xFFFFFFFF (i / 2)) (16 * (i % 2)) 16

/-- (slot, record) of the listed blocks. -/
def GroupCommit.listed (g : GroupCommit) : List (Nat × Nat) :=
  ((List.range 8).map fun i => (i, g.slotAt i)).filter fun p => p.2 != 0xFFFF

/-- The list is invalid (R92): empty, a record twice, or a record without GROUPABLE. -/
def groupBad (rs : List Nat) : Bool :=
  rs.isEmpty || !decide rs.Nodup || rs.any fun r => !decide (r < 93) || !groupable (kindOf r)

/-- The first listed block whose checks fail: its slot, its record and the failure (R94). -/
def groupFail (c : Chip) (v : View) : List (Nat × Nat) → Option (Nat × Nat × CheckFail)
  | [] => none
  | (i, r) :: t => match checks c v r with
    | some f => some (i, r, f)
    | none => groupFail c v t

/-- GROUP_COMMIT_GO (R92–R96): checked as a whole, then every listed block is held for its boundary. -/
def groupGoOp (c : Chip) : Chip :=
  let g := c.group
  let ls := g.listed
  let rs := ls.map (·.2)
  let refused (n slot : Nat) : GroupCommit := { g with lastRefused := true, reason := n, failedSlot := slot }
  if g.busy then { c with group := { g with goDropped := true } }
  else if groupBad rs then { c with group := refused 4 0 }
  else if rs.any (fun r => (c.blk r).taken.isSome || (c.blk r).staged) then { c with group := refused 5 0 }
  else match groupFail c (c.viewGroup rs) ls with
    | some (i, r, f) => { (c.modBlk r fun b => b.refuse (errOf r f)) with group := refused 1 i }
    | none =>
      let c := rs.foldl (fun c r => c.modBlk r fun b => { b.accept b.shadow with groupHeld := true }) c
      { c with group := { g with busy := true, lastRefused := false, reason := 0, failedSlot := 0 } }

/-! ## Taking effect (R84–R86) -/

/-- MBR_CFG.SPLIT takes effect only at a chip reset: its effective value stays (R90). -/
def applySet (r : Nat) (b : Block) : Tab Nat :=
  if kindOf r = .mbr then
    let k := 8 * 0x100 + 16
    tput b.accepted 0 k (tget b.effective 0 k)
  else b.accepted

/-- A block's accepted set becomes effective: STAGED clears and CFG_EPOCH increments (R84). -/
def Chip.takeEffect (c : Chip) (r : Nat) : Chip :=
  let b := c.blk r
  let c := c.setBlk r { b with effective := applySet r b, staged := false, groupHeld := false, epoch := (b.epoch + 1) % 2 ^ 32 }
  c.record 5 r 0 ((b.epoch + 1) % 2 ^ 32) 0

/-- A block reset keeps the effective set, discards any staged set, and reloads the shadow (R89, R720). With nothing staged the accepted
set stays, so that an accepted SPLIT still waits for its chip reset (R90). -/
def Block.resetCfg (b : Block) : Block :=
  { b with shadow := b.effective, accepted := if b.staged then b.effective else b.accepted, staged := false }

end Sys2Proof.Machine
end

