-- ==== Sys2Proof/Machine/Queues.lean ====
section
/-! DEFINITION. Work queues (06): entries and their structure checks, rings, doorbells, fetching, admission, completion, the event ring, the admin queue
set-up and Function Level Reset. -/

namespace Sys2Proof.Machine

/-! ## Status codes (R331) -/

def stOk : Nat := 0x00
def stMalformed : Nat := 0x01
def stAborted : Nat := 0x02
def stDenied : Nat := 0x03
def stRange : Nat := 0x04
def stState : Nat := 0x05
def stQueueBusy : Nat := 0x06
def stNoSpace : Nat := 0x07
def stNoProgram : Nat := 0x08
def stLoadRejected : Nat := 0x09
def stEngineFault : Nat := 0x0A
def stHostAccess : Nat := 0x0B
def stGuard : Nat := 0x0C
def stDataLost : Nat := 0x0D
def stOverlap : Nat := 0x0E
def stFenced : Nat := 0x0F
def stNotReady : Nat := 0x10

/-- The code of a role, as CSRR ROLE (R205, R668). -/
def Role.code : Role → Nat
  | .active => 0 | .standby => 1 | .alone => 2 | .fenced => 3

/-- The DETAIL of ST_HOST_ACCESS and the INFO of QUEUE_ERROR. -/
def hostErrCode : HostErr → Nat
  | .ur => 1 | .ca => 2 | .poisoned => 3 | .timeout => 4

/-! ## Entry fields (R268) -/

/-- `n` bytes of an entry from offset `off`, as a number. -/
def eField (e : BitVec 512) (off n : Nat) : Nat := bits e.toNat (8 * off) (8 * n)

def eOpcode (e : BitVec 512) : Nat := eField e 0 1
def eFirst (e : BitVec 512) : Bool := e.getLsbD 8
def eLast (e : BitVec 512) : Bool := e.getLsbD 9
def eInd (e : BitVec 512) : Bool := e.getLsbD 10
def eFence (e : BitVec 512) : Bool := e.getLsbD 11
def eIntr (e : BitVec 512) : Bool := e.getLsbD 12
def eTag (e : BitVec 512) : Nat := eField e 2 2
def eDptr (e : BitVec 512) : Nat := eField e 0x28 8
def eDlen (e : BitVec 512) : Nat := eField e 0x30 4
def eOwn (e : BitVec 512) : Bool := e.getLsbD 511

/-! ## Structure checks (R296 step 1, R297) -/

/-- How a command takes data. -/
inductive DataRule
  /-- None: IND clear, DPTR and DLEN 0. -/
  | none
  /-- DPTR and DLEN have meanings of the command's own; IND must be clear. -/
  | own
  /-- A data buffer whose length in bytes the entry gives; through fragments too. -/
  | len (n : Nat)
  /-- A data buffer of any length. -/
  | any
  /-- A data buffer of this length, or no data with DLEN 0. -/
  | lenOrNone (n : Nat)
deriving DecidableEq, Repr

/-- What a command's entry may hold: the parameter bytes it uses, as (offset, bytes), and its data. -/
structure CmdForm where
  used : List (Nat × Nat)
  data : DataRule
deriving DecidableEq, Repr

/-- The block size of a volume in bytes. -/
def Volume.blockSize (v : Volume) : Nat := if v.big then 4096 else 512

/-- The form of a command by its opcode (R302, R304–R316, R520, R526, R529, R545, R550, R553, R665); none for an unassigned opcode. -/
def cmdForm (c : Chip) (io : Bool) (e : BitVec 512) : Option CmdForm :=
  let op := eOpcode e
  if io then
    if op = 0x80 ∨ op = 0x81 then
      let v := c.vol (eField e 4 1)
      some ⟨[(4, 1), (5, 1), (8, 8), (0x10, 4), (0x14, 4), (0x18, 2)],
        if v.state = .none then .any else .len (eField e 0x10 4 * (v.blockSize + 8 * (eField e 5 1 % 2)))⟩
    else none
  else match op with
    | 0x01 => some ⟨[(4, 1), (5, 1), (6, 1), (8, 4), (0x10, 8)], .own⟩
    | 0x02 => some ⟨[(4, 1)], .none⟩
    | 0x03 => some ⟨[(4, 2), (6, 1), (8, 4)], .own⟩
    | 0x04 => some ⟨[(4, 1), (6, 2)], .none⟩
    | 0x05 => some ⟨[(4, 1), (5, 1)], .len 4096⟩
    | 0x06 => some ⟨[(4, 1), (5, 1), (8, 8)], .any⟩
    | 0x10 => some ⟨[(4, 1), (5, 1), (6, 1), (7, 1), (8, 1)], .len (eField e 8 1)⟩
    | 0x11 => some ⟨[(4, 1)], .none⟩
    | 0x12 => some ⟨[(4, 1), (5, 1), (6, 1), (8, 8), (0x10, 8)], .none⟩
    | 0x13 => some ⟨[(4, 1)], .none⟩
    | 0x14 => some ⟨[(4, 1), (5, 1), (6, 1)], .none⟩
    | 0x15 => some ⟨[(4, 1)], .lenOrNone 32⟩
    | 0x16 => some ⟨[(4, 1), (5, 1), (6, 1)], .none⟩
    | 0x17 => some ⟨[(4, 1)], .none⟩
    | 0x18 => some ⟨[(4, 1)], .none⟩
    | 0x19 => some ⟨[(4, 1), (5, 1), (6, 1)], .none⟩
    | 0x20 => some ⟨[(4, 1), (5, 1), (6, 1)], .none⟩
    | 0x21 => some ⟨[(4, 1)], .none⟩
    | 0x22 => some ⟨[(4, 1), (5, 1), (6, 1), (7, 1)], .lenOrNone (eField e 7 1)⟩
    | 0x30 => some ⟨[(4, 1), (5, 1), (8, 32), (0x34, 4)], .any⟩
    | 0x31 => some ⟨[(4, 1), (5, 1)], .none⟩
    | 0x32 => some ⟨[(4, 1)], .len 64⟩
    | 0x33 => some ⟨[(4, 1), (8, 4)], .none⟩
    | 0x40 => some ⟨[(4, 4), (8, 2), (0xA, 1), (0xB, 1), (0xC, 1)], .none⟩
    | 0x41 => some ⟨[(4, 4)], .len 64⟩
    | 0x42 => some ⟨[(4, 4)], .none⟩
    | 0x43 => some ⟨[(4, 4)], .len 64⟩
    | 0x44 => some ⟨[(4, 4), (8, 1), (9, 1), (0xC, 4), (0x10, 4)], .len (16 * eField e 8 1)⟩
    | 0x48 => some ⟨[(4, 4), (8, 2), (0xA, 2), (0xC, 1), (0xD, 1), (0xE, 1), (0x10, 8), (0x18, 8)], .none⟩
    | 0x49 => some ⟨[(4, 4)], .none⟩
    | 0x4F => some ⟨[], .own⟩
    | 0x50 => some ⟨[(4, 4)], .len 64⟩
    | 0x51 => some ⟨[(4, 4)], .none⟩
    | _ => none

/-- A byte of the parameters that the command does not use and that is not 0. -/
def strayByte (e : BitVec 512) (used : List (Nat × Nat)) : List Nat :=
  ((List.range 36).map (· + 4) ++ [0x34, 0x35, 0x36, 0x37]).filter fun o =>
    !(used.any fun u => decide (u.1 ≤ o) && decide (o < u.1 + u.2)) && eField e o 1 != 0

/-- Offsets where DPTR, DLEN or IND do not suit the command. -/
def badData (e : BitVec 512) : DataRule → List Nat
  | .none => (if eInd e then [1] else []) ++ (if eDptr e != 0 then [0x28] else []) ++ (if eDlen e != 0 then [0x30] else [])
  | .own => if eInd e then [1] else []
  | .len n =>
    if eInd e then (if eDptr e % 16 != 0 then [0x28] else []) ++ (if eDlen e = 0 ∨ 4096 < eDlen e then [0x30] else [])
    else if eDlen e != n then [0x30] else []
  | .any =>
    if eInd e then (if eDptr e % 16 != 0 then [0x28] else []) ++ (if eDlen e = 0 ∨ 4096 < eDlen e then [0x30] else []) else []
  | .lenOrNone n =>
    if eInd e then (if eDptr e % 16 != 0 then [0x28] else []) ++ (if eDlen e = 0 ∨ 4096 < eDlen e then [0x30] else [])
    else if eDlen e != n ∧ eDlen e != 0 then [0x30] else []

/-- Offsets of fields whose value breaks the command's own layout. -/
def badValues (e : BitVec 512) (io : Bool) : List Nat :=
  let op := eOpcode e
  let chk (ok : Bool) (o : Nat) : List Nat := if ok then [] else [o]
  if io then
    chk (decide (eField e 5 1 < 2)) 5 ++ chk (decide (1 ≤ eField e 0x10 4) && decide (eField e 0x10 4 ≤ 8192)) 0x10
  else if op = 0x01 then
    chk (decide (eField e 5 1 < 64)) 5 ++ chk (decide (1 ≤ eField e 6 1) && decide (eField e 6 1 ≤ 16)) 6 ++
    chk (decide (2 ≤ eField e 8 4) && decide (eField e 8 4 ≤ 65536)) 8 ++ chk (eField e 0x10 8 % 16 == 0) 0x10 ++
    chk (eDptr e % 64 == 0) 0x28 ++ chk (eDlen e == 64 * eField e 8 4) 0x30
  else if op = 0x03 then
    chk (decide (eField e 6 1 < 64)) 6 ++
    chk (eField e 8 4 == 0 || (decide (16 ≤ eField e 8 4) && decide (eField e 8 4 ≤ 65536))) 8 ++
    chk (eDptr e % 64 == 0 && (eDptr e == 0) == (eField e 8 4 == 0)) 0x28 ++ chk (eDlen e == 16 * eField e 8 4) 0x30
  else if op = 0x05 then chk (decide (eField e 4 1 < 4)) 4
  else if op = 0x06 then chk (eField e 4 1 == 1 || eField e 4 1 == 2) 4 ++ chk (eField e 8 8 % 16 == 0) 8
  else if op = 0x12 then chk (decide (eField e 6 1 < 2)) 6
  else if op = 0x14 then chk (eField e 6 1 == 0 || eField e 6 1 == 1 || eField e 6 1 == 3) 6
  else if op = 0x19 then
    chk (decide (eField e 4 1 < 2)) 4 ++
    chk (if eField e 4 1 = 0 then eField e 6 1 == 0 else decide (1 ≤ eField e 6 1) && decide (eField e 6 1 ≤ 3)) 6
  else if op = 0x40 then
    chk (decide (eField e 0xA 1 < 4)) 0xA ++ chk (decide (eField e 0xB 1 < 8)) 0xB ++
    chk (decide (3 ≤ eField e 0xC 1) && decide (eField e 0xC 1 ≤ 5)) 0xC
  else if op = 0x44 then
    chk (eField e 8 1 == 1 || eField e 8 1 == 2) 8 ++ chk (decide (eField e 9 1 < 2)) 9
  else if op = 0x48 then
    chk (decide (eField e 8 2 < 4096)) 8 ++ chk (decide (eField e 0xC 1 < 2)) 0xC ++ chk (decide (eField e 0xD 1 < 16)) 0xD
  else if op = 0x4F then
    chk (eDptr e % 4096 == 0) 0x28 ++ chk (eDlen e % 1024 == 0) 0x30
  else []

/-- The structure check of an entry outside the question of groups: the DETAIL of ST_MALFORMED (R296, R297). -/
def structCheck (c : Chip) (io : Bool) (e : BitVec 512) : Option Nat :=
  match cmdForm c io e with
  | none => some 0
  | some f =>
    let bad := (if 32 ≤ eField e 1 1 then [1] else []) ++ strayByte e f.used ++ badData e f.data ++ badValues e io
    match bad with
    | [] => none
    | o :: r => some (r.foldl min o)

/-- The function may not issue the command (R296 step 2, R303, R551). -/
def deniedTo (f : Nat) (io : Bool) (e : BitVec 512) : Bool :=
  let op := eOpcode e
  !io && !isPf f && (decide (0x10 ≤ op) || op == 0x06 || (op == 0x05 && (eField e 4 1 == 1 || eField e 4 1 == 2)))

/-! ## Rings and doorbells (R276–R281, R287–R289, R308) -/

/-- Slot and phase of a position. -/
def Queue.index (q : Queue) (p : Nat) : Nat := p % q.size
def Queue.phase (q : Queue) (p : Nat) : Nat := p / q.size % 2

/-- `outstanding()` of a tail (index, phase) against the oldest entry not completed (R278); none when it falls outside 0 to size. -/
def Queue.outstanding (q : Queue) (ix ph : Nat) : Option Nat :=
  let base := (if ph ≠ q.phase q.done then q.size else 0) + ix
  if base < q.index q.done then none
  else if q.size < base - q.index q.done then none else some (base - q.index q.done)

/-- The queue exists: the admin queue when enabled, an I/O queue when created. -/
def Chip.live (c : Chip) (f g : Nat) : Bool := (c.queue f g).created && (c.fn f).enable

/-- A doorbell write that the device ignores posts DOORBELL_ERROR (R280, R308, R868). -/
def Chip.doorbellError (c : Chip) (f info value : Nat) : Chip :=
  c.raiseOne f { type := 2, queue := if info = 0 ∨ info = 0xFFFF then 0xFF else info - 1, info := info, data := value, seq := c.nextPlace }

/-- WQ_TAIL (R280, R281, R308). -/
def wqTailOp (f : Fn) (g : Grp) (value : W32) (c : Chip) : Chip :=
  let q := c.queue f g
  let ix := bits value.toNat 0 16
  let ph := bits value.toNat 16 1
  if (c.fn f).flr.isSome then c
  else if !c.live f g ∨ q.size ≤ ix then c.doorbellError f g value.toNat
  else match q.outstanding ix ph with
    | none => c.doorbellError f g value.toNat
    | some n =>
      if q.done + n < q.tail then c.doorbellError f g value.toNat
      else
        c.modFn f fun x =>
          let q' := { q with
            tail := q.done + n
            stopped := false
            pubs := if q.done + n = q.tail then q.pubs else q.pubs ++ [(q.done + n, x.stamp + 1)] }
          { x.setQueue g q' with stamp := x.stamp + 1 }

/-- The published position of an index, at or after the oldest entry not completed. -/
def Queue.posOf (q : Queue) (ix : Nat) : Nat := q.done + (ix + q.size - q.index q.done) % q.size

/-- WQ_INVAL (R288, R289, R308). -/
def wqInvalOp (f : Fn) (g : Grp) (value : W32) (c : Chip) : Chip :=
  let q := c.queue f g
  let ix := bits value.toNat 0 16
  if (c.fn f).flr.isSome then c
  else if !c.live f g then c.doorbellError f g value.toNat
  else if q.size ≤ ix then c
  else
    let p := q.posOf ix
    if q.tail ≤ p then c
    else if p < q.nextPos then c.modQueue f g fun q => { q with invalLate := satAdd 8 q.invalLate 1 }
    else c.modQueue f g fun q => { q with cache := terase q.cache p }

/-- The cached copy at a position. -/
def Queue.cached (q : Queue) (p : Nat) : Option (BitVec 512) := (q.cache.find? fun x => x.1 == p).map (·.2)

/-- The next position to fetch within `n` of the next to admit: the lowest one published and not cached. -/
def Queue.nextFetch (q : Queue) : Nat → Nat → Option Nat
  | 0, _ => none
  | n + 1, p => if q.tail ≤ p then none else if (q.cached p).isNone then some p else q.nextFetch n (p + 1)

/-- Entries read ahead: WQ_CFG.PREFETCH, or a whole group of 17 while the entry next to admit opens one (R273, R275; log entry 31). -/
def Chip.window (c : Chip) (q : Queue) : Nat :=
  match q.cached q.nextPos with
  | some e => if eFirst e && !eLast e then 17 else c.eff 1 0x100 0
  | none => c.eff 1 0x100 0

/-- A STANDBY or FENCED unit has no value of its block left, and fetches no entry (R687). -/
def Chip.outOfPlaces (c : Chip) : Bool := (c.par.role == .standby || c.par.role == .fenced) && c.par.blockLeft == 0

/-- ENTRY_FETCH (R281, R300, R687): the read of the next published entry returns. -/
def entryFetchOp (f : Fn) (g : Grp) (r : FetchResult) (c : Chip) : Chip :=
  let q := c.queue f g
  if !c.live f g || q.error || q.stopped || (c.fn f).flr.isSome || c.vault.stopped || c.outOfPlaces then c
  else match q.nextFetch (c.window q) q.nextPos with
    | none => c
    | some p => match r with
      | .ok e =>
        if eOwn e then c.modQueue f g fun q => { q with cache := tinsert q.cache p e }
        else c.modQueue f g fun q => { q with stopped := true }
      | .err x =>
        let c := c.modQueue f g fun q => { q with error := true }
        c.raiseOne f { type := 1, queue := if g.val = 0 then 0xFF else g.val - 1, info := hostErrCode x, data := q.index p, seq := c.nextPlace }

/-! ## Admission (R272–R275, R291–R293) -/

/-- What the entries from the next one on form: how many to admit together, and whether they are broken. None while that is not known. -/
def Queue.examine (q : Queue) : Nat → Nat → Bool → Option (Nat × Bool)
  | 0, _, _ => none
  | n + 1, i, fence =>
    match q.cached (q.nextPos + i) with
    | none => none
    | some e =>
      if i = 0 then
        if !eFirst e then some (1, true) else if eLast e then some (1, false) else q.examine n 1 false
      else if eFirst e then some (i, true)
      else if i = 16 then some (17, true)
      else if eLast e then some (i + 1, fence || eFence e)
      else q.examine n (i + 1) (fence || eFence e)

/-- Stamp of the doorbell write that published a position (R293). -/
def Queue.stampOf (q : Queue) (p : Nat) : Nat := match q.pubs.find? fun x => decide (p < x.1) with | some x => x.2 | none => 0

/-- Every entry of the queue that a write before stamp `s` published has completed. -/
def Queue.doneBefore (q : Queue) (s : Nat) : Bool := q.pubs.all fun x => decide (s ≤ x.2) || decide (x.1 ≤ q.done)

/-- (queue, position, stamp) of the fetched FENCE entries of a function that are not admitted. -/
def Func.fences (x : Func) : List (Nat × Nat × Nat) :=
  x.queues.flatMap fun gq => (gq.2.cache.filter fun pe => decide (gq.2.nextPos ≤ pe.1) && eFence pe.2).map fun pe => (gq.1, pe.1, gq.2.stampOf pe.1)

/-- A FENCE entry, or an entry behind one, must wait (R293). -/
def Func.fenceBlocks (x : Func) (g p : Nat) (e : BitVec 512) : Bool :=
  let s := (x.queue g).stampOf p
  (eFence e && !(x.queues.all fun gq => gq.2.doneBefore s)) ||
  x.fences.any fun y => decide (y.2.2 ≤ s) && !(y.1 == g && decide (p ≤ y.2.1))

/-- The status that admission gives an entry: FENCED, structure, rights; none where the command itself decides (R275, R296, R301). -/
def admitStatus (c : Chip) (f g : Nat) (broken : Bool) (e : BitVec 512) : Option (Nat × Nat) :=
  let io := g != 0
  if io ∧ (c.par.role = .standby ∨ c.par.role = .fenced) then some (stFenced, c.par.role.code)
  else if broken then some (stMalformed, 1)
  else match structCheck c io e with
    | some o => some (stMalformed, o)
    | none => if deniedTo f io e then some (stDenied, 0) else none

/-- Admit the next `n` entries of a queue with consecutive ADM_SEQ values. -/
def admitRun (f g : Nat) (broken : Bool) : Nat → Chip → Chip
  | 0, c => c
  | n + 1, c =>
    let q := c.queue f g
    match q.cached q.nextPos with
    | none => c
    | some e =>
      let (s, c) := c.takeSeq
      let a : Adm := { pos := q.nextPos, entry := e, seq := s, status := admitStatus c f g broken e }
      admitRun f g broken n (c.modQueue f g fun q =>
        { q with cache := terase q.cache q.nextPos, nextPos := q.nextPos + 1, work := q.work ++ [a] })

/-- ENTRY_ADMIT (R273, R275, R291, R293, R295): the next entry of a queue, or its whole group. -/
def entryAdmitOp (f : Fn) (g : Grp) (c : Chip) : Chip :=
  let q := c.queue f g
  if !c.live f g || (c.fn f).flr.isSome || c.vault.stopped || c.par.handing != .none || !c.admits then c
  else match q.examine 18 0 false, q.cached q.nextPos with
    | some (n, broken), some e => if (c.fn f).fenceBlocks g q.nextPos e then c else admitRun f g broken n c
    | _, _ => c

/-! ## Executing and completing entries (R282–R286) -/

/-- The admitted entry in ring slot `ix` of a queue. -/
def Chip.adm (c : Chip) (f g ix : Nat) : Option Adm := (c.queue f g).work.find? fun a => (c.queue f g).index a.pos == ix

/-- Change the admitted entry at a position. -/
def Chip.modAdm (c : Chip) (f g pos : Nat) (h : Adm → Adm) : Chip :=
  c.modQueue f g fun q => { q with work := q.work.map fun a => if a.pos = pos then h a else a }

/-- The entry at a position ends with a status. -/
def Chip.finish (c : Chip) (f g pos code detail : Nat) : Chip := c.modAdm f g pos fun a => { a with status := some (code, detail) }

/-- Run a command on its admitted entry: only when the entry stands in that slot, has the command's opcode and has not ended. -/
def Chip.onEntry (c : Chip) (f g ix op : Nat) (h : Adm → Chip → Chip) : Chip :=
  match c.adm f g ix with
  | some a => if a.status.isNone && !a.begun && eOpcode a.entry == op then h a c else c
  | none => c

/-- An admin command that ends at once with (code, DETAIL), having changed the chip. -/
def Chip.onAdmin (c : Chip) (f ix op : Nat) (h : Adm → Chip → (Nat × Nat) × Chip) : Chip :=
  c.onEntry f 0 ix op fun a c =>
    let (s, c) := h a c
    c.finish f 0 a.pos s.1 s.2

/-- A posted write to a function's host memory; none during a Function Level Reset (R327). -/
def Chip.hostWrite (c : Chip) (f addr : Nat) (l : List Byte) : Chip := if (c.fn f).flr.isSome then c else c.emit (.hostWrite f addr l)

/-- ENTRY_COMPLETE (R282, R283): the oldest entry of a queue has its status, and the device writes it. -/
def entryCompleteOp (f : Fn) (g : Grp) (c : Chip) : Chip :=
  let q := c.queue f g
  match q.work with
  | [] => c
  | a :: r => match a.status with
    | none => c
    | some (code, detail) =>
      if a.pos ≠ q.done then c
      else
        let at0 := q.base + 64 * q.index a.pos
        let c := c.hostWrite f (at0 + 0x38) (leBytes 6 a.seq ++ leBytes 1 code)
        let c := c.hostWrite f (at0 + 0x3F) (leBytes 1 (detail % 128))
        c.modQueue f g fun q => { q with work := r, done := q.done + 1, lastSeq := a.seq, intrDue := q.intrDue || eIntr a.entry }

/-- The 16 bytes of a queue shadow (R285). -/
def Queue.shadowBytes (q : Queue) : List Byte :=
  leBytes 4 (q.index q.done + q.phase q.done * 2 ^ 16) ++ leBytes 4 q.done ++ leBytes 6 q.lastSeq ++ leBytes 2 0

/-- A vector's MSI-X message is due (R286, R324). -/
def Func.due (x : Func) (v : Nat) : Func := if x.msix.contains v then x else { x with msix := x.msix ++ [v] }

/-- SHADOW_WRITE (R284–R286). -/
def shadowWriteOp (f : Fn) (g : Grp) (c : Chip) : Chip :=
  let q := c.queue f g
  if q.done = q.head then c
  else
    let c := c.hostWrite f q.shadow q.shadowBytes
    c.modFn f fun x =>
      let x := x.setQueue g { q with head := q.done, intrDue := false }
      if q.intrDue then x.due q.vector else x

/-- MSIX_MESSAGE (R286, R324): one message for everything merged into it. -/
def msixMessageOp (f : Fn) (v : Fin 64) (c : Chip) : Chip :=
  if (c.fn f).msix.contains v.val then
    let c := c.modFn f fun x => { x with msix := x.msix.filter (· != v.val) }
    if (c.fn f).flr.isSome then c else c.emit (.msix f v)
  else c

/-! ## Queue commands (R304–R311) -/

/-- CREATE_IOQ (R304–R306). -/
def createIoqOp (f : Fn) (ix : BitVec 16) (c : Chip) : Chip :=
  c.onAdmin f ix.toNat 0x01 fun a c =>
    let e := a.entry
    let g := eField e 4 1 + 1
    if (c.queue f g).created then ((stState, 1), c)
    else
      let q : Queue := { created := true, size := eField e 8 4, base := eDptr e, shadow := eField e 0x10 8, vector := eField e 5 1,
                         weight := eField e 6 1 }
      ((stOk, 0), (c.modFn f fun x => x.setQueue g q).hostWrite f q.shadow (leBytes 16 0))

/-- DELETE_IOQ (R307, R308). -/
def deleteIoqOp (f : Fn) (ix : BitVec 16) (c : Chip) : Chip :=
  c.onAdmin f ix.toNat 0x02 fun a c =>
    let g := eField a.entry 4 1 + 1
    let q := c.queue f g
    if !q.created then ((stRange, 4), c)
    else if (if q.error then !q.work.isEmpty else decide (q.done < q.tail)) then ((stQueueBusy, 0), c)
    else ((stOk, 0), c.modFn f fun x => x.setQueue g {})

/-- WQ_ADMIN_CFG written (06, "Registers"): ENABLE = 1 starts the admin queue or is refused with ADMIN_ERR; a set ENABLE ignores writes. -/
def adminQueueEnableOp (f : Fn) (value : W32) (c : Chip) : Chip :=
  let x := c.fn f
  if x.enable ∨ x.flr.isSome then c
  else
    let x := { x with sizeM1 := bits value.toNat 0 16, vector := bits value.toNat 16 6 }
    if !value.getLsbD 31 then c.setFn f x
    else if x.sizeM1 = 0 ∨ x.adminBase % 64 ≠ 0 ∨ x.adminShadow % 16 ≠ 0 then c.setFn f { x with adminErr := true }
    else
      let q : Queue := { created := true, size := x.sizeM1 + 1, base := x.adminBase, shadow := x.adminShadow, vector := x.vector }
      c.setFn f ({ x with adminErr := false, enable := true }.setQueue 0 q)

/-! ## The event ring (R317–R324, R868) -/

/-- The event ring is full (R321). -/
def Func.evtFull (x : Func) : Bool := x.evtTail - x.evtHead == x.evtSize

/-- The first 15 bytes of an event (R317). -/
def Ev.bytes (v : Ev) : List Byte :=
  leBytes 1 v.type ++ leBytes 1 v.queue ++ leBytes 2 v.info ++ leBytes 4 v.data ++ leBytes 6 v.seq ++ leBytes 1 0

/-- An event takes the next slot of a function's ring: bytes 0x0–0xE, then the phase byte (R317, R318). -/
def Chip.putEvent (c : Chip) (f : Nat) (v : Ev) : Chip :=
  let x := c.fn f
  let at0 := x.evtBase + 16 * (x.evtTail % x.evtSize)
  let c := c.hostWrite f at0 v.bytes
  let c := c.hostWrite f (at0 + 15) (leBytes 1 (128 * ((x.evtTail / x.evtSize + 1) % 2)))
  c.modFn f fun x => { x with evtTail := x.evtTail + 1, ring := x.ring ++ [v] }.due x.evtVector

/-- One copy of an event reaches one function: it is posted, or coalesced into an overflow counter, or dropped where nothing takes it
any more (R36, R320, R322). -/
def Chip.deliver (c : Chip) (v : Ev) (f : Nat) : Chip :=
  let x := c.fn f
  let lost := x.enable && x.flr.isNone && (!x.evtSet || (bitAt x.evtMask v.type && x.evtFull))
  if x.enable && x.flr.isNone && x.evtSet && bitAt x.evtMask v.type && !x.evtFull then (c.arrive 5).putEvent f v
  else
    let c := c.dropMoving 5
    if lost then
      c.modFn f fun x => { x with
        ovf := tput x.ovf 0 v.type (satAdd 32 (tget x.ovf 0 v.type) 1)
        eventsLost := true
        lostSince := satAdd 32 x.lostSince 1 }
    else c

/-- EVENT_POST (R320, R322, R761): the oldest raised event goes to every function it reaches, and the recorder takes its type-4 record. -/
def eventPostOp (c : Chip) : Chip :=
  match c.raised with
  | [] => c
  | x :: r =>
    let v := match x.live with | some b => { x.ev with data := (c.blk b).cause % 2 ^ 16 } | none => x.ev
    let c := { c with raised := r }
    let c := c.record 4 1 v.type v.data v.info
    x.targets.foldl (fun c f => c.deliver v f) c

/-- Once a slot is free after events were coalesced, an EVENTS_LOST event comes first (R323). -/
def Chip.tellLost (c : Chip) (f : Nat) : Chip :=
  let x := c.fn f
  if x.evtSet && decide (0 < x.lostSince) && !x.evtFull then
    let v : Ev := { type := 0xF, data := x.lostSince, seq := c.nextPlace }
    let c := (c.grant 5 1).putEvent f v
    c.modFn f fun x => { x with lostSince := 0 }
  else c

/-- WQ_EVT_HEAD (R321, R323, R868). -/
def wqEvtHeadOp (f : Fn) (value : W32) (c : Chip) : Chip :=
  let x := c.fn f
  let ix := bits value.toNat 0 16
  let ph := bits value.toNat 16 1
  let base := (if ph ≠ x.evtHead / x.evtSize % 2 then x.evtSize else 0) + ix
  if x.flr.isSome then c
  else if !x.evtSet ∨ x.evtSize ≤ ix ∨ base < x.evtHead % x.evtSize ∨ x.evtTail - x.evtHead < base - x.evtHead % x.evtSize then
    c.doorbellError f 0xFFFF value.toNat
  else
    let n := base - x.evtHead % x.evtSize
    let c := c.giveBack 5 n
    (c.modFn f fun x => { x with evtHead := x.evtHead + n, ring := x.ring.drop n }).tellLost f

/-- SET_EVENT_RING (R309–R311). Bits 0x1, 0x2 and 0xF of TYPE_MASK are forced to 1; a virtual function's mask is limited. -/
def setEventRingOp (f : Fn) (ix : BitVec 16) (c : Chip) : Chip :=
  c.onAdmin f ix.toNat 0x03 fun a c =>
    let e := a.entry
    let mask := eField e 4 2 ||| 0x8006
    let x := c.fn f
    if x.evtSet ∧ x.evtHead < x.evtTail then ((stQueueBusy, 0), c)
    else if eField e 8 4 = 0 then
      ((stOk, 0), c.modFn f fun x => { x with evtSet := false, evtBase := 0, evtSize := 16, evtMask := 0, evtVector := 0, evtTail := 0, evtHead := 0 })
    else
      ((stOk, 0), (c.modFn f fun x => { x with
        evtSet := true
        evtBase := eDptr e
        evtSize := eField e 8 4
        evtMask := if isPf f then mask else mask &&& 0x8086
        evtVector := eField e 6 1
        evtTail := 0
        evtHead := 0 }).tellLost f)

/-! ## Function Level Reset (R325–R329) -/

/-- The functions that a reset of `f` takes: a physical function takes the virtual functions of its port (R329). -/
def flrSet (f : Nat) : List Nat := if isPf f then (List.range 64).map (· + f) else [f]

/-- A Function Level Reset begins at one place of the admission order (R325, R327, R329). -/
def Chip.startFlr (c : Chip) (f : Nat) : Chip :=
  let (s, c) := c.takeSeq
  (flrSet f).foldl (fun c f => c.modFn f fun x => { x with flr := some s, msix := [] }) c

/-- A function after its reset: no queue, no ring, the admin queue disabled, its counters clear (R328). -/
def Func.afterFlr (place : Nat) : Func := { flrSeq := some place }

/-- FLR_COMPLETE (R325, R326, R328): every entry admitted before the reset has taken its effect; the unconsumed events of the ring count as
RETURNED (R36). -/
def flrCompleteOp (f : Fn) (c : Chip) : Chip :=
  let x := c.fn f
  match x.flr with
  | none => c
  | some s =>
    if x.queues.all fun gq => gq.2.work.all fun a => a.status.isSome then
      (c.giveBack 5 (x.evtTail - x.evtHead)).setFn f (Func.afterFlr s)
    else c

end Sys2Proof.Machine
end

