-- ==== Sys2Proof/Machine/Gf.lean ====
section
/-! DEFINITION. GF(2^8) arithmetic (R165–R167), reconstruction of strips byte by byte (R386, R387), and the three CRCs of R365. -/

namespace Sys2Proof.Machine

/-- One doubling in GF(2^8) with reduction polynomial 0x11D. -/
def gfDouble (a : Byte) : Byte := if a.getLsbD 7 then (a <<< 1) ^^^ 0x1D else a <<< 1

/-- The rounds of `gf_mul` still to run. -/
def gfMulLoop : Nat → Byte → Byte → Byte → Byte
  | 0, _, _, r => r
  | n + 1, a, b, r => gfMulLoop n (gfDouble a) (b >>> 1) (if b.getLsbD 0 then r ^^^ a else r)

/-- `gf_mul` (R165). -/
def gfMul (a b : Byte) : Byte := gfMulLoop 8 a b 0

/-- `n` doublings of 1. -/
def gfPow : Nat → Byte
  | 0 => 1
  | n + 1 => gfMul (gfPow n) 2

/-- `gf_exp` (R165). -/
def gfExp (k : Nat) : Byte := gfPow (k % 255)

/-- GFINV (R167): the x with gf_mul(x, a) = 1, and 0 for 0. -/
def gfInv (a : Byte) : Byte :=
  match (List.range 256).find? fun x => gfMul (BitVec.ofNat 8 x) a == 1 with
  | some x => BitVec.ofNat 8 x
  | none => 0

/-- The k below n with gf_exp(k) = a, counted up from k with p = gf_exp(k). -/
def gfLogLoop : Nat → Nat → Byte → Byte → Nat
  | 0, _, _, _ => 255
  | n + 1, k, p, a => if p = a then k else gfLogLoop n (k + 1) (gfDouble p) a

/-- GFLOG (R167): the k in 0–254 with gf_exp(k) = a, and 255 for 0. -/
def gfLog (a : Byte) : Nat := if a = 0 then 255 else gfLogLoop 255 0 1 a

/-- P of the data bytes (R386). -/
def pOf (ds : List Byte) : Byte := ds.foldl (· ^^^ ·) 0

/-- Q of the data bytes, the first with coefficient gf_exp(j) (R386). -/
def qFrom : Nat → List Byte → Byte
  | _, [] => 0
  | j, d :: r => gfMul (gfExp j) d ^^^ qFrom (j + 1) r

/-- Q of the data bytes (R386). -/
def qOf (ds : List Byte) : Byte := qFrom 0 ds

/-- The bytes with the unavailable ones taken as 0. -/
def known (l : List (Option Byte)) : List Byte := l.map (·.getD 0)

/-- The places of the unavailable data bytes. -/
def missing : Nat → List (Option Byte) → List Nat
  | _, [] => []
  | j, none :: r => j :: missing (j + 1) r
  | j, some _ :: r => missing (j + 1) r

/-- The list with place `i` replaced. -/
def setAt {α : Type} : List α → Nat → α → List α
  | [], _, _ => []
  | _ :: r, 0, v => v :: r
  | a :: r, n + 1, v => a :: setAt r n v

/-- One byte column of a stripe: d data bytes, then P, then Q, with at most two unavailable; the whole column (R387). With more than two
unavailable there is none. -/
def reconstruct (col : List (Option Byte)) : Option (List Byte) :=
  let n := col.length - 2
  let data := col.take n
  let p := (col.getD n none)
  let q := (col.getD (n + 1) none)
  let ds := known data
  let finish (ds : List Byte) : List Byte := ds ++ [pOf ds, qOf ds]
  match missing 0 data, p, q with
  | [], _, _ => some (ds ++ [p.getD (pOf ds), q.getD (qOf ds)])
  | [x], some p, _ =>
    let ds := setAt ds x (p ^^^ pOf ds)
    some (ds ++ [p, q.getD (qOf ds)])
  | [x], none, some q => some (finish (setAt ds x (gfMul (gfExp (255 - x)) (q ^^^ qOf ds))))
  | [x, y], some p, some q =>
    let pxy := p ^^^ pOf ds
    let qxy := q ^^^ qOf ds
    let gx := gfExp x
    let gy := gfExp y
    let dx := gfMul (gfInv (gx ^^^ gy)) (gfMul gy pxy ^^^ qxy)
    some (setAt (setAt ds x dx) y (pxy ^^^ dx) ++ [p, q])
  | _, _, _ => none

/-! ## CRCs -/

/-- Eight rounds of a reflected CRC. -/
def crcBits (poly : Nat) : Nat → Nat → Nat
  | 0, r => r
  | n + 1, r => crcBits poly n (if r % 2 = 1 then (r / 2) ^^^ poly else r / 2)

/-- A reflected CRC register run over bytes. -/
def crcRun (poly : Nat) : List Byte → Nat → Nat
  | [], r => r
  | b :: t, r => crcRun poly t (crcBits poly 8 (r ^^^ b.toNat))

/-- CRC32C over bytes, from a running register (polynomial 0x1EDC_6F41 reflected). -/
def crc32cRun (l : List Byte) (r : Nat) : Nat := crcRun 0x82F63B78 l r

/-- CRC32C of bytes (R365). -/
def crc32c (l : List Byte) : Nat := crc32cRun l 0xFFFFFFFF ^^^ 0xFFFFFFFF

/-- CRC-64 (NVMe) over bytes, from a running register (polynomial 0xAD93_D235_94C9_3659 reflected). -/
def crc64Run (l : List Byte) (r : Nat) : Nat := crcRun 0x9A6C9329AC4BC9B5 l r

/-- CRC-64 of bytes (R365). -/
def crc64 (l : List Byte) : Nat := crc64Run l 0xFFFFFFFFFFFFFFFF ^^^ 0xFFFFFFFFFFFFFFFF

/-- Eight rounds of the T10 guard, most significant bit first. -/
def t10Bits : Nat → Nat → Nat
  | 0, r => r
  | n + 1, r => t10Bits n (if 0x8000 ≤ r then (2 * r) % 0x10000 ^^^ 0x8BB7 else 2 * r)

/-- The T10 guard register run over bytes. -/
def t10Run : List Byte → Nat → Nat
  | [], r => r
  | b :: t, r => t10Run t (t10Bits 8 (r ^^^ (b.toNat * 256)))

/-- The T10 guard of a block (R365). -/
def t10 (l : List Byte) : Nat := t10Run l 0

end Sys2Proof.Machine
end

