-- ==== Sys2Proof/Machine/Operands.lean ====
section
/-! DEFINITION. Operand forms of Lanibex: g, w and p registers, the loop stack, the memory spaces with their windows, and 64-byte vectors. -/

namespace Sys2Proof.Machine

/-! ## Registers (04, "Architectural state") -/

/-- g register `a`; g0 reads 0. -/
def Engine.getG (x : Engine) (a : Nat) : W64 := if a = 0 then 0 else tget x.g 0 a

/-- Write g register `d`; a write to g0 is discarded. -/
def Engine.setG (x : Engine) (d : Nat) (v : W64) : Engine := if d = 0 then x else { x with g := tput x.g 0 d v }

/-- w register `a`. -/
def Engine.getW (x : Engine) (a : Nat) : Vec := tget x.w 0 a

/-- Write w register `d`. -/
def Engine.setW (x : Engine) (d : Nat) (v : Vec) : Engine := { x with w := tput x.w 0 d v }

/-- Predicate `i`; p0 reads 1. -/
def Engine.getP (x : Engine) (i : Nat) : Bool := if i = 0 then true else bitAt x.p i

/-- Write predicate `i`; a write to p0 is discarded. -/
def Engine.setP (x : Engine) (i : Nat) (v : Bool) : Engine :=
  if i = 0 ∨ 8 ≤ i then x else { x with p := x.p - b2n (bitAt x.p i) * 2 ^ i + b2n v * 2 ^ i }

/-- Pending count of a line. -/
def Engine.getPend (x : Engine) (line : Nat) : Nat := tget x.pend 0 line
def Engine.setPend (x : Engine) (line n : Nat) : Engine := { x with pend := tput x.pend 0 line n }

/-! ## Control flow (R160–R163) -/

/-- `word_end` (R161): the word at `e` retires, or a LOOP skips a body that ends at `e`. The innermost level stands first. -/
def wordEnd : List Level → Nat → List Level × Nat
  | [], e => ([], e + 1)
  | l :: r, e =>
    if e = l.stop then
      if l.left ≤ 1 then wordEnd r e else ({ l with left := l.left - 1, index := l.index + 1 } :: r, l.start)
    else (l :: r, e + 1)

/-- The word at the PC retires without a taken BRP. -/
def Engine.advance (x : Engine) : Engine :=
  let (ls, pc) := wordEnd x.loops x.pc
  { x with loops := ls, pc := pc }

/-- A taken BRP to `t`: levels whose body ends before `t` leave the loop stack (R163). -/
def Engine.branch (x : Engine) (t : Nat) : Engine :=
  { x with pc := t, loops := x.loops.dropWhile fun l => decide (l.stop < t) }

/-! ## Memory spaces and windows (R146–R149, R865) -/

/-- Bytes of a space (04, "Memory spaces"): 0 LM, 1 STG, 2 HBM, 3 PKT. -/
def spaceSize (e sp : Nat) : Nat :=
  if sp = 0 then (if e < 16 then 0xC0000 else 0x80000) else if sp = 1 then 0x2000000 else if sp = 2 then 0x600000000 else 0x4000000

/-- LM address of the window table of slot `k` (05, "Engine slots"). -/
def winTable (e k : Nat) : Nat := if e < 16 then 0x40000 + 0x100 * k else 0x8000 + 0x40 * k

/-- LM address of the dispatch area of slot `k` of a stripe engine. -/
def dispatchArea (k : Nat) : Nat := 0x40040 + 0x100 * k

/-- The implicit read window of a slot (R865). -/
def implicitWindows (e k : Nat) : List Window :=
  [⟨0, winTable e k, 64, true, false⟩] ++ if e < 16 then [⟨0, dispatchArea k, 96, true, false⟩] else []

/-- A window grants an access of bytes `[a, a + n)`. -/
def Window.grants (w : Window) (sp a n : Nat) (write : Bool) : Bool :=
  w.space == sp && decide (w.base ≤ a) && decide (a + n ≤ w.base + w.size) && (if write then w.wr else w.rd)

/-- Every byte of an access lies inside the slot's windows (R147); an access of no byte is always inside (R170). -/
def Run.inside (r : Run) (e sp a n : Nat) (write : Bool) : Bool :=
  n == 0 || (r.image.windows ++ implicitWindows e r.slot).any fun w => w.grants sp a n write

/-- MAXLEN of the word at `pc`, where the image annotates it (R246). -/
def Run.maxLen (r : Run) (pc : Nat) : Option Nat := (r.image.annots.find? fun p => p.1 == pc).map (·.2)

/-- A length beyond its annotation (R246). -/
def Run.tooLong (r : Run) (pc n : Nat) : Bool := match r.maxLen pc with | some m => decide (m < n) | none => false

/-! ## Page table entries (R424–R426) -/

/-- HBM address of page table entry `p`. -/
def pageEntry (p : Nat) : Nat := 0x12000000 + 32 * p

/-- `n` little-endian bytes of HBM as a number. -/
def Chip.hbmLe (c : Chip) (a n : Nat) : Nat := ofLe (mread hbmInit c.hbm a n)

/-- BOBBIN of page `p`; 0xFFFF_FFFF when the page is free. -/
def Chip.pageOwner (c : Chip) (p : Nat) : Nat := c.hbmLe (pageEntry p) 4

/-- The page table entries that bytes `[a, a + n)` of HBM touch. -/
def pagesTouched (a n : Nat) : List Nat :=
  let lo := max a 0x12000000
  let hi := min (a + n) 0x12400000
  if hi ≤ lo then [] else (List.range ((hi - 1 - 0x12000000) / 32 - (lo - 0x12000000) / 32 + 1)).map (· + (lo - 0x12000000) / 32)

/-- Bytes written to HBM. A page table entry that leaves 0xFFFF_FFFF counts as a grant of pool 2, one that takes it as a return (R426). -/
def Chip.hbmWrite (c : Chip) (a : Nat) (l : List Byte) : Chip :=
  let ps := pagesTouched a l.length
  let c' := { c with hbm := mwrite hbmInit c.hbm a l }
  ps.foldl (fun s p =>
    let o := c.pageOwner p
    let n := c'.pageOwner p
    if o = 0xFFFFFFFF ∧ n ≠ 0xFFFFFFFF then s.grant 2 1
    else if o ≠ 0xFFFFFFFF ∧ n = 0xFFFFFFFF then s.giveBack 2 1
    else s) c'

/-- Bytes of a space as engine `e` sees it. -/
def Chip.spRead (c : Chip) (e sp a n : Nat) : List Byte :=
  if sp = 0 then mread zeros (c.eng e).lm a n
  else if sp = 1 then mread zeros c.stg a n
  else if sp = 2 then mread hbmInit c.hbm a n
  else mread zeros c.pkt a n

/-- Bytes written to LM of engine `e`, STG or HBM; the packet buffer is never written this way (R174). -/
def Chip.spWrite (c : Chip) (e sp a : Nat) (l : List Byte) : Chip :=
  if sp = 0 then c.modEng e fun x => { x with lm := mwrite zeros x.lm a l }
  else if sp = 1 then { c with stg := mwrite zeros c.stg a l }
  else if sp = 2 then c.hbmWrite a l
  else c

/-! ## Vectors -/

/-- Byte `i` of a vector. -/
def Vec.byte (v : Vec) (i : Nat) : Byte := BitVec.extractLsb' (8 * i) 8 v

/-- The 64 bytes of a vector. -/
def vecBytes (v : Vec) : List Byte := (List.range 64).map fun i => BitVec.extractLsb' (8 * i) 8 v

/-- The vector of 64 bytes. -/
def vecOf (l : List Byte) : Vec := BitVec.ofNat 512 (ofLe (l.take 64))

/-- A bytewise map of two vectors. -/
def vmap2 (f : Byte → Byte → Byte) (a b : Vec) : Vec := vecOf (List.zipWith f (vecBytes a) (vecBytes b))

/-- The low byte of a g register. -/
def lowByte (g : W64) : Byte := BitVec.extractLsb' 0 8 g

/-- Sign-extended offset field of `n` bits, times `k`, added to a base address (R172, R173). -/
def offAddr (base : W64) (off : BitVec 14) (k : Nat) : Nat := (base + BitVec.ofInt 64 (off.toInt * k)).toNat

/-- Number of units of 64 bytes below a count. -/
def units64 (n : Nat) : Nat := n / 64

/-- One byte of SYNDB (R168): its effect on P at `p` and Q at `q` in space `sp`. -/
def syndbByte (e sp : Nat) (mode : Nat) (cf x : Byte) (p q : Nat) (c : Chip) : Chip :=
  let c := if mode = 0 then c.spWrite e sp q [gfMul cf x] else c
  let c := if mode % 2 = 1 then c.spWrite e sp p [(c.spRead e sp p 1).headD 0 ^^^ x] else c
  if mode / 2 % 2 = 1 then c.spWrite e sp q [(c.spRead e sp q 1).headD 0 ^^^ gfMul cf x] else c

/-- The bytes of one unit of SYNDB, in ascending order. -/
def syndbBytes (e sp mode : Nat) (cf : Byte) : List Byte → Nat → Nat → Chip → Chip
  | [], _, _, c => c
  | x :: r, p, q, c => syndbBytes e sp mode cf r (p + 1) (q + 1) (syndbByte e sp mode cf x p q c)

/-- SYNDB (R168): `n` units from `s`; each source unit is read before any byte of it is written. -/
def syndbLoop (e ssp dsp mode : Nat) (cf : Byte) : Nat → Nat → Nat → Nat → Chip → Chip
  | 0, _, _, _, c => c
  | n + 1, s, p, q, c =>
    syndbLoop e ssp dsp mode cf n (s + 64) (p + 64) (q + 64) (syndbBytes e dsp mode cf (c.spRead e ssp s 64) p q c)

end Sys2Proof.Machine
end

