-- ==== Sys2Proof/Machine/Vault.lean ====
section
/-! DEFINITION. The protected region as it lies in HBM (R418–R436): bobbin headers, page table, journal rings and region header; the plan (R452, R421);
the vault's image slots and the dump (R457–R463). -/

namespace Sys2Proof.Machine

/-! ## The region in HBM (R418, R420, R423) -/

/-- HBM address of bobbin header `b`. -/
def bobAt (b : Nat) : Nat := 0x11000000 + 1024 * b

/-- HBM address of page `p`. -/
def pageAt (p : Nat) : Nat := 0x14000000 + 0x10000 * p

/-- HBM address of the ring state of array `a`. -/
def ringAt (a : Nat) : Nat := 0x100 + 32 * a

/-- HBM address of the journal ring of array `a`. -/
def ringBase (a : Nat) : Nat := 0x01000000 + a * 0x01000000

/-- Bytes of a journal ring. -/
def ringSize : Nat := 0x01000000

def Chip.bobState (c : Chip) (b : Nat) : Nat := c.hbmLe (bobAt b) 1
def Chip.bobArray (c : Chip) (b : Nat) : Nat := c.hbmLe (bobAt b + 1) 1
def Chip.bobStripe (c : Chip) (b : Nat) : Nat := c.hbmLe (bobAt b + 8) 8
def Chip.bobOpenJseq (c : Chip) (b : Nat) : Nat := c.hbmLe (bobAt b + 0x10) 8
def Chip.bobLastJseq (c : Chip) (b : Nat) : Nat := c.hbmLe (bobAt b + 0x18) 8

/-- Page of chunk `k` of strip `i` in bobbin `b`; 0xFFFF_FFFF for none. -/
def Chip.bobPage (c : Chip) (b i k : Nat) : Nat := c.hbmLe (bobAt b + 0x40 + 4 * (4 * i + k)) 4

def Chip.ringHead (c : Chip) (a : Nat) : Nat := c.hbmLe (ringAt a) 8
def Chip.ringTail (c : Chip) (a : Nat) : Nat := c.hbmLe (ringAt a + 8) 8
def Chip.ringEpoch (c : Chip) (a : Nat) : Nat := c.hbmLe (ringAt a + 16) 4
def Chip.ringNext (c : Chip) (a : Nat) : Nat := c.hbmLe (ringAt a + 20) 8

/-- The listed distinct values of a rising list. -/
def dedupUp : List Nat → List Nat
  | [] => []
  | [x] => [x]
  | x :: y :: r => if x = y then dedupUp (y :: r) else x :: dedupUp (y :: r)

/-- The pages whose BOBBIN is not 0xFFFF_FFFF (R426), ascending. -/
def Chip.heldPages (c : Chip) : List Nat :=
  dedupUp ((c.hbm.filter fun x => decide (0x12000000 ≤ x.1) && decide (x.1 < 0x12400000) && decide (x.1 % 32 < 4)).map
    fun x => (x.1 - 0x12000000) / 32)

/-- CCH_OCC.HELD. -/
def Chip.heldCount (c : Chip) : Nat := c.heldPages.length

/-- The bobbins whose STATE is not FREE, ascending. -/
def Chip.bobbins (c : Chip) : List Nat :=
  (c.hbm.filter fun x => decide (0x11000000 ≤ x.1) && decide (x.1 < 0x12000000) && decide (x.1 % 1024 = 0)).map
    fun x => (x.1 - 0x11000000) / 1024

/-! ## The plan (R419–R421, R452) -/

/-- `plan_q` (R452). -/
def planQ (eCj sizeMaxQ : Nat) : Nat :=
  let mj := eCj * 10 * 72 / 100
  if mj ≤ 2000 then 0
  else
    let q := min (min ((mj - 2000) * 4 / 2000) sizeMaxQ) 32
    if q < 4 then 0 else q

/-- PAGES of a plan (R419). -/
def planPages (q : Nat) : Nat := if q = 0 then 0 else (q * 0x10000000 - 0x14000000) / 0x10000

/-- PAGES of the pair plan. -/
def Chip.pages (c : Chip) : Nat := planPages c.cache.pairQ

/-! ## Journal records (R431, R433) -/

/-- Bytes in use in the ring of array `a`. -/
def Chip.ringUsed (c : Chip) (a : Nat) : Nat := (c.ringHead a + ringSize - c.ringTail a) % ringSize

/-- Bytes free in the ring; HEAD never meets TAIL from behind (log entry 40). -/
def Chip.ringFree (c : Chip) (a : Nat) : Nat := ringSize - 32 - c.ringUsed a

/-- Bytes written to a ring at an offset that wraps at its end. -/
def Chip.ringWrite (c : Chip) (a off : Nat) (l : List Byte) : Chip :=
  let n := ringSize - off % ringSize
  let c := c.hbmWrite (ringBase a + off % ringSize) (l.take n)
  if l.length ≤ n then c else c.hbmWrite (ringBase a) (l.drop n)

/-- `n` bytes of a ring at an offset. -/
def Chip.ringRead (c : Chip) (a off n : Nat) : List Byte :=
  let k := ringSize - off % ringSize
  if n ≤ k then mread hbmInit c.hbm (ringBase a + off % ringSize) n
  else mread hbmInit c.hbm (ringBase a + off % ringSize) k ++ mread hbmInit c.hbm (ringBase a) (n - k)

/-- The record with JEPOCH, JSEQ and CRC as the device writes them (R433). -/
def sealRecord (jepoch jseq : Nat) (r : List Byte) : List Byte :=
  let r := r.take 4 ++ leBytes 4 jepoch ++ leBytes 8 jseq ++ (r.drop 16).take 12 ++ leBytes 4 0 ++ r.drop 32
  r.take 28 ++ leBytes 4 (crc32c r) ++ r.drop 32

/-- A record is appended to the ring of its array: it takes NEXT_JSEQ and HEAD moves. -/
def Chip.appendRecord (c : Chip) (a : Nat) (r : List Byte) : Chip :=
  let jseq := c.ringNext a
  let head := c.ringHead a
  let c := c.ringWrite a head (sealRecord (c.ringEpoch a) jseq r)
  c.hbmWrite (ringAt a) (leBytes 8 ((head + r.length) % ringSize)) |>.hbmWrite (ringAt a + 20) (leBytes 8 (jseq + 1))

/-- A record header with its TYPE, ARRAY, STRIPE and BOBBIN, its body following (R431). -/
def recordBytes (type size32 a stripe bobbin : Nat) (body : List Byte) : List Byte :=
  let l := leBytes 1 type ++ leBytes 1 size32 ++ leBytes 1 a ++ leBytes 1 0 ++ leBytes 12 0 ++ leBytes 8 stripe ++ leBytes 4 bobbin ++
    leBytes 4 0 ++ body
  l ++ List.replicate (32 * size32 - l.length) 0

/-- A record of the ring as it is walked from TAIL: offset, type, bytes, JSEQ, STRIPE and BOBBIN, and whether its CRC is right. -/
structure JRec where
  off : Nat
  type : Nat
  size : Nat
  jepoch : Nat
  jseq : Nat
  stripe : Nat
  bobbin : Nat
  body : List Byte
  crcOk : Bool
deriving DecidableEq, Repr

/-- The record at a ring offset. -/
def Chip.recordAt (c : Chip) (a off : Nat) : JRec :=
  let h := c.ringRead a off 32
  let f (o n : Nat) : Nat := ofLe ((h.drop o).take n)
  let size := 32 * min 8 (f 1 1)
  let r := c.ringRead a off size
  { off := off % ringSize, type := f 0 1, size := size, jepoch := f 4 4, jseq := f 8 8, stripe := f 0x10 8, bobbin := f 0x18 4,
    body := r.drop 32, crcOk := crc32c (r.take 28 ++ leBytes 4 0 ++ r.drop 32) == f 0x1C 4 }

/-- The records from an offset on, over `n` bytes; `fuel` bounds their number. -/
def Chip.walkRing (c : Chip) (a : Nat) : Nat → Nat → Nat → List JRec
  | 0, _, _ => []
  | fuel + 1, off, n =>
    if n = 0 then []
    else
      let r := c.recordAt a off
      if r.size = 0 ∨ n < r.size then [] else r :: c.walkRing a fuel (off + r.size) (n - r.size)

/-- The records of the ring, oldest first. -/
def Chip.records (c : Chip) (a : Nat) : List JRec := c.walkRing a (ringSize / 32) (c.ringTail a) (c.ringUsed a)

/-- JSEQ of the newest EPOCH record of a ring; 0 where there is none. -/
def newestEpoch (rs : List JRec) : Nat := rs.foldl (fun m r => if r.type = 7 then max m r.jseq else m) 0

/-- A record is live (R435). The member copies of a lost list are written as its record lands, so LOST_ADD and LOST_DEL records are not live. -/
def Chip.liveRec (c : Chip) (a epoch : Nat) (r : JRec) : Bool :=
  (r.bobbin != 0xFFFFFFFF && c.bobState r.bobbin != 0) ||
  (r.type == 7 && r.jseq == epoch) ||
  (r.type == 8 && (c.arr a).progressLive.contains r.jseq)

/-- TAIL moves over the longest run of records, from TAIL, that are not live (R436). -/
def Chip.advanceTail (c : Chip) (a : Nat) : Chip :=
  let rs := c.records a
  let e := newestEpoch rs
  match rs.dropWhile fun r => !c.liveRec a e r with
  | r :: _ => c.hbmWrite (ringAt a + 8) (leBytes 8 r.off)
  | [] => c.hbmWrite (ringAt a + 8) (leBytes 8 (c.ringHead a))

/-- The region header as the device writes it for a plan (R420). The ring states stay. -/
def Chip.writeRegionHeader (c : Chip) (q : Nat) : Chip :=
  c.hbmWrite 0 (leBytes 4 0x52505A56 ++ leBytes 4 1 ++ leBytes 8 (q * 0x10000000) ++ leBytes 4 (planPages q))

/-! ## Image slots and the dump (R457–R463) -/

/-- The image in slot 0 or 1. -/
def Vault.slot (v : Vault) (s : Bool) : Option VaultImage := if s then v.slot1 else v.slot0
def Vault.setSlot (v : Vault) (s : Bool) (i : Option VaultImage) : Vault := if s then { v with slot1 := i } else { v with slot0 := i }
def Vault.erased (v : Vault) (s : Bool) : Bool := if s then v.erased1 else v.erased0
def Vault.setErased (v : Vault) (s e : Bool) : Vault := if s then { v with erased1 := e } else { v with erased0 := e }

/-- IMAGE_SEQ of the complete image in a slot; 0 where there is none. -/
def Vault.seqOf (v : Vault) (s : Bool) : Nat := match v.slot s with | some i => if i.complete then i.seq else 0 | none => 0

/-- The current image's slot (R464). -/
def Vault.newest (v : Vault) : Option Bool :=
  if v.seqOf false = 0 ∧ v.seqOf true = 0 then none else some (decide (v.seqOf false < v.seqOf true))

/-- The bytes that a dump saves: the journal area and every held page (R459). -/
def Chip.dumpRegion (c : Chip) : Mem :=
  let held := c.heldPages
  c.hbm.filter fun x => decide (x.1 < 0x14000000) || held.contains ((x.1 - 0x14000000) / 0x10000)

/-- LAST_JSEQ of an array: the JSEQ of the newest record of its ring. -/
def Chip.lastJseq (c : Chip) (a : Nat) : Nat := c.ringNext a - 1

/-- What an image header says of the arrays present (R463). -/
def Chip.imageArrays (c : Chip) : List (Nat × Nat × Nat × Nat) :=
  ((List.range 16).filter fun a => (c.arr a).made).map fun a => (a, (c.arr a).uid, c.ringEpoch a, c.lastJseq a)

/-- The image that a stop writes: CLEAN when every bobbin is FREE (R462), a dump otherwise. -/
def Chip.image (c : Chip) (complete : Bool) : VaultImage :=
  let clean := c.bobbins.isEmpty && c.heldPages.isEmpty
  { seq := max c.vault.imageSeq (max (c.vault.seqOf false) (c.vault.seqOf true)) + 1
    clean := clean
    unit := c.par.unit
    planQ := c.cache.pairQ
    pages := if clean then 0 else c.heldCount
    arrays := c.imageArrays
    startNs := c.nowNs
    complete := complete
    region := if clean then c.hbm.filter (fun x => decide (x.1 < 0x1000)) else c.dumpRegion }

/-- The dump begins in the armed slot, which is no longer erased (R457, R459). With no slot armed nothing is written (R458). -/
def Chip.dumpStart (c : Chip) : Chip :=
  let v := c.vault
  if !v.armed then c
  else { c with vault := { (v.setSlot v.armedSlot (some (c.image false))).setErased v.armedSlot false with
    armed := false, dumping := true, dumpStart := c.tmb.up } }

/-- The trailer is written and the image is current (R459, R464). -/
def Chip.dumpEnd (c : Chip) : Chip :=
  let v := c.vault
  if !v.dumping then c
  else match v.slot v.armedSlot with
    | some i =>
      let v := v.setSlot v.armedSlot (some { i with complete := true })
      { c with vault := { v with dumping := false, current := some v.armedSlot, imageSeq := i.seq, lastPages := i.pages,
                                  lastDuration := min (2 ^ 32 - 1) ((c.tmb.up - v.dumpStart) / 2 ^ 16 / 1000) } }
    | none => { c with vault := { v with dumping := false } }

/-- A dump from its header to its trailer (R461, R462), unless a fault in the dump path makes one impossible. -/
def Chip.dumpWhole (c : Chip) : Chip :=
  if bitAt (c.blk 27).level 3 then c else c.dumpStart.dumpEnd

end Sys2Proof.Machine
end

