-- ==== Sys2Proof/Machine/Flags.lean ====
section
/-! DEFINITION. Causes and reactions (R716–R732), the ERR_OUT pin (R723, R724), the chip reset and the power-on reset (R90, R767, R830, R831). -/

namespace Sys2Proof.Machine

/-! ## ERR_OUT (R723, R724) -/

/-- Draft records of the configurable blocks. -/
def blockRecs : List Nat := (List.range 92).map (· + 1)

/-- Something asserts ERR_OUT: the boot hold, a test pulse, or a block handling a fault whose reaction asserted it (R723). -/
def Chip.errReason (c : Chip) : Bool :=
  c.grd.boot || c.grd.test || c.blocks.any fun x => x.2.handling && x.2.errOut

/-- ERR_OUT is driven low; its 10 µs minimum begins (R724). -/
def Chip.assertErr (c : Chip) : Chip :=
  if c.grd.errOutPin then c else { (c.emit (.errOut true)) with grd := { c.grd with errOutPin := true, errHold := true } }

/-- ERR_OUT is released once nothing holds it and its minimum has passed. -/
def Chip.releaseErr (c : Chip) : Chip :=
  if c.grd.errOutPin && !c.grd.errHold && !c.errReason then { (c.emit (.errOut false)) with grd := { c.grd with errOutPin := false } } else c

/-! ## Resets (R90, R767, R830, R831) -/

/-- Bit address of MBR_CFG.SPLIT. -/
def splitKey : Nat := 8 * 0x100 + 16

/-- The member blocks after a chip reset: SPLIT takes the value most recently accepted (R90). -/
def Chip.keepSplit (c : Chip) : Tab Block :=
  ((List.range 12).map fun g => recMbr (4 * g)).foldl (fun t r =>
    let s := tput [] 0 splitKey (tget (c.blk r).accepted 0 splitKey)
    tput t {} r { shadow := s, accepted := s, effective := s }) []

/-- The recorder after a chip reset that is no power-on reset (R763, R767). -/
def Chip.keepEvr (c : Chip) : Evr :=
  let freeze := c.eff 92 0x100 11 == 1
  { c.evr with
    post := none
    rseq := 0
    mark := 0
    frozen := freeze
    frozenBy := if freeze then 3 else 0 }

/-- What a member keeps across a reset: the drive itself, its media, its registrations and its sanitise. -/
def Member.keep (m : Member) : Member :=
  { ({} : Member) with
    registered := m.registered
    nguid := m.nguid
    capacity := m.capacity
    lba := m.lba
    serial := m.serial
    model := m.model
    fwRev := m.fwRev
    media := m.media
    bad := m.bad }

/-- A table with every value mapped. -/
def tmap {α : Type} (f : α → α) (t : Tab α) : Tab α := t.map fun x => (x.1, f x.2)

/-- What the vault keeps: its images and its erased slots (R830). -/
def Vault.keep (v : Vault) : Vault :=
  { slot0 := v.slot0, slot1 := v.slot1, erased0 := v.erased0, erased1 := v.erased1, badBlocks := v.badBlocks, pwrFail := v.pwrFail }

/-- Code flash across a reset: a program or an erase under way leaves its unit or sector undefined, and a suspended erase is abandoned
(R781). The undefined bytes are free values. -/
def scramble : List Nat → Nat → Mem → Mem
  | [], _, m => m
  | a :: r, k, m => scramble r (k + 1) (mput flashInit m a (BitVec.ofNat 8 (Config.freeValue k)))

/-- The flash bytes that a reset leaves undefined. -/
def Bank.torn (b : Bank) : List Nat :=
  (match b.op with
   | .programming => []
   | .erasing | .suspended => (List.range 0x10000).map (· + 0x10000 * b.sector)
   | .idle => []) ++
  match b.prog with
  | some p => (List.range 64).map (· + p.2)
  | none => []

/-- The flash as a reset leaves it, and how many free values it took. -/
def Chip.keepFlash (c : Chip) : Mem × Nat :=
  let ts := (tget c.cfl.banks {} 0).torn ++ (tget c.cfl.banks {} 1).torn
  (scramble ts c.free c.cfl.flash, ts.length)

/-- What every reset keeps: fuses, code flash, vault, member contents, the trusted roots (log entry 41), and the straps. -/
def Chip.keepAlways (c : Chip) : Chip :=
  let fl := c.keepFlash
  { ({} : Chip) with
    out := c.out
    free := c.free + fl.2
    members := tmap Member.keep c.members
    trust := c.trust
    vault := c.vault.keep
    cfl := { flash := fl.1 }
    sec := { secret := c.sec.secret, rootKey := c.sec.rootKey, key0 := c.sec.key0, secured := c.sec.secured, fwRows := c.sec.fwRows, keyRows := c.sec.keyRows, keys := c.sec.keys, revoked := c.sec.revoked }
    par := { unit := c.par.unit, pref := c.par.pref }
    age := { savedEq := c.age.savedEq, cleanStop := c.age.cleanStop, eq := c.age.eq, daily := c.age.daily, seconds := c.age.seconds }
    pwr := { perst := c.pwr.perst } }

/-- A chip reset (R830, R831) with the reset record's KIND, RECORD and CAUSE. A dump comes first unless one has just ended (R461). -/
def Chip.chipReset (c : Chip) (kind rec cause : Nat) (dump : Bool) : Chip :=
  let ns := c.nowNs
  let c := if dump then c.dumpWhole else c
  let c := c.assertErr
  { (c.emit .lineIdle).keepAlways with
    blocks := c.keepSplit
    evr := c.keepEvr
    aon := { c.aon with kind := kind, record := rec, cause := cause, ns := ns } }

/-- 42.96 equivalent hours, which a power loss without a clean stop adds (R740). -/
def unsavedEq : Nat := 154656 * 2 ^ 32

/-- A power-on reset (R830): only fuses, code flash, vault and member contents stay; the straps are sampled (R852). -/
def Chip.powerOn (c : Chip) (unit pref : Bool) : Chip :=
  let k := c.assertErr.keepAlways
  let lost := if c.age.cleanStop then 0 else unsavedEq
  { k with
    par := { unit := unit, pref := pref }
    age := { savedEq := c.age.savedEq + lost, cleanStop := true, eq := c.age.savedEq + lost, daily := c.age.daily }
    vault := { k.vault with pwrFail := false }
    pwr := {} }

/-! ## Causes (R725–R732) -/

/-- ENABLE of a block, in effect. -/
def Chip.enable (c : Chip) (r : Nat) : Nat := c.eff r 0x48 0

/-- REACT field of a cause, in effect. -/
def Chip.react (c : Chip) (r bit : Nat) : Nat := c.eff r 0x50 (4 * bit)

/-- The bits set in a mask of 16, ascending. -/
def bitsOf (m : Nat) : List Nat := (List.range 16).filter (bitAt m)

/-- The FAULT event of a block (R732). -/
def Chip.faultEvent (c : Chip) (r first code : Nat) (after : Bool) (seq : Nat) : Chip :=
  let ev : Ev := { type := 0xA, info := r + first * 2 ^ 8 + code * 2 ^ 12 + b2n after * 2 ^ 15, seq := seq }
  let fs := (List.range 128).filter (c.reaches 0xA)
  { (c.grantMoving 5 fs.length) with raised := c.raised ++ [{ ev := ev, targets := fs, live := some r }] }

/-- The recorder's freeze condition: a reaction with ERR_OUT, while FRZ_ERR is set (R763). -/
def Chip.armFreeze (c : Chip) : Chip :=
  if c.eff 92 0x100 10 = 1 ∧ c.evr.frozen = false ∧ c.evr.post = none then
    { c with evr := { c.evr with post := some (c.eff 92 0x100 16) } }
  else c

/-- The reaction with a code acts (R718). -/
def Chip.actReaction (c : Chip) (r first code lowest4 : Nat) : Chip :=
  match code with
  | 1 => (c.emit (.hkInterrupt r)).faultEvent r first 1 false c.nextPlace
  | 2 => (c.emit (.hkTrap r)).faultEvent r first 2 false c.nextPlace
  | 3 => c.modBlk r fun b => { b with resetting := true }
  | 4 => c.chipReset 2 r lowest4 true
  | 5 => c.faultEvent r first 5 false c.nextPlace
  | _ => c

/-- A block that is not handling starts handling the raised causes (R727). -/
def Chip.startHandling (c : Chip) (r : Nat) (bs : List Nat) : Chip :=
  let code := bs.foldl (fun m b => max m (c.react r b % 8)) 0
  let err := bs.any fun b => c.react r b % 8 == 5 || 8 ≤ c.react r b
  let first := bs.foldl min 15
  let lowest4 := (bs.filter fun b => c.react r b % 8 == 4).foldl min 15
  let c := c.modBlk r fun b => { b with handling := true, place := c.nextPlace, first := first, reacted := code, errOut := err }
  let c := if err then c.assertErr.armFreeze else c
  let c := bs.foldl (fun c b => c.record 2 r b (c.blk r).cause code) c
  c.actReaction r first code lowest4

/-- A cause raised while the block is handling merges (R728). The record's reaction code is 0: no reaction starts (log entry 42). -/
def Chip.mergeCause (c : Chip) (r bit : Nat) : Chip :=
  let c := c.modBlk r fun b =>
    { b with late := b.late ||| 2 ^ bit, merged := satAdd 32 b.merged 1, watch := if b.watch.contains bit then b.watch else b.watch ++ [bit] }
  c.record 2 r (bit + 0x8000) (c.blk r).cause 0

/-- Raised causes of one block (R727, R728). -/
def Chip.raiseBits (c : Chip) (r mask : Nat) : Chip :=
  match bitsOf mask with
  | [] => c
  | bs => if (c.blk r).handling then bs.foldl (fun c b => c.mergeCause r b) c else c.startHandling r bs

/-- Causes set in the STATUS of a block: those newly set and enabled are raised (R725, R726). -/
def Chip.setCauses (c : Chip) (r mask : Nat) : Chip :=
  let old := (c.blk r).cause
  let fresh := mask &&& (mask ^^^ (mask &&& old))
  (c.modBlk r fun b => { b with cause := old ||| mask }).raiseBits r (fresh &&& c.enable r)

/-- One cause set. -/
def Chip.setCause (c : Chip) (r bit : Nat) : Chip := c.setCauses r (2 ^ bit)

/-- The condition of a level cause begins or ends (R716). Its STATUS bit sets, and never clears by itself (R730). -/
def Chip.setLevel (c : Chip) (r bit : Nat) (on : Bool) : Chip :=
  let l := (c.blk r).level
  let rest := l - b2n (bitAt l bit) * 2 ^ bit
  let c := c.modBlk r fun b => { b with level := rest + b2n on * 2 ^ bit }
  if on then c.setCause r bit else c

/-- A set that newly enables causes whose STATUS bits are set raises them (R731). -/
def Chip.raiseEnabled (c : Chip) (r oldEnable : Nat) : Chip :=
  let now := c.enable r
  c.raiseBits r ((c.blk r).cause &&& (now &&& (now ^^^ (now &&& oldEnable))))

end Sys2Proof.Machine
end

