-- ==== Sys2Proof/Machine/Units.lean ====
section
/-! DEFINITION. Who may write (R57), events that take a place in the admission order (R32), the gateable units with their requests (R806–R811), and a port that
is idled (R582). -/

namespace Sys2Proof.Machine

/-- The writer reaches the register space (R57, R789): a physical function, firmware, or JTAG on a device that is not secured. -/
def Who.mayWrite (w : Who) (c : Chip) : Bool :=
  match w with
  | .fn f => isPf f
  | .firmware => true
  | .jtag => !c.sec.secured

/-- A write takes effect when its writer reaches the register space; otherwise it is ignored. -/
def Chip.asked (c : Chip) (w : Who) (h : Chip → Chip) : Chip := if Who.mayWrite w c then h c else c

/-- Fast clocks run: the unit is neither OFF nor in SIDING (R805). -/
def Chip.clocked (c : Chip) : Bool := c.pwr.state != .off && c.pwr.state != .siding

/-- At most `ns` nanoseconds have passed since the instant `t`. -/
def Chip.since (c : Chip) (t : Option Nat) (ns : Nat) : Bool := match t with | some u => decide (c.tmb.up ≤ u + ns * 2 ^ 16) | none => false

/-- A path delivers heartbeats: a valid one arrived within 10 µs (PAR_STATE). -/
def Chip.pathUp (c : Chip) (p : PathState) : Bool := c.since p.lastValid 10000

/-- PAR_STATE.PARTNER_SEEN. -/
def Chip.partnerSeen (c : Chip) : Bool := c.pathUp c.par.coupler || c.pathUp c.par.drawbar

/-- An event is admitted at one place of the admission order, and carries it (R32). -/
def Chip.happen (c : Chip) (type info data : Nat) : Chip :=
  let (s, c) := c.takeSeq
  c.raise { type := type, info := info, data := data % 2 ^ 32, seq := s }

/-- A POWER event (R833). -/
def Chip.powerEvent (c : Chip) (code rest data : Nat) : Chip := c.happen 0xE (code + 16 * rest) data

/-- A start-up milestone is posted once (R832). -/
def Chip.milestone (c : Chip) (n : Nat) : Chip :=
  if c.pwr.milestones.contains n then c
  else { c with pwr := { c.pwr with milestones := c.pwr.milestones ++ [n] } }.powerEvent 4 0 n

/-! ## Gateable units (R806–R811) -/

/-- Mask of wake group `g`, in effect. -/
def Chip.groupMask (c : Chip) (g : Nat) : Nat := c.eff 88 (0x140 + 4 * g) 0

/-- The union of the masks of the wake groups set in `gs`. -/
def Chip.groupsMask (c : Chip) (gs : Nat) : Nat :=
  ((List.range 16).filter (bitAt gs)).foldl (fun m g => m ||| c.groupMask g) 0

/-- The units that work on stripe engine `n` requests: the engine, the SHT_ instances of its channels 3n to 3n + 2, and HBM (R139, R809). -/
def seUnits (n : Nat) : Nat := 2 ^ n ||| 2 ^ (16 + 3 * n / 8) ||| 2 ^ (16 + (3 * n + 2) / 8) ||| 2 ^ 24

/-- Wake groups of an effective window record. -/
def Chip.winWake (c : Chip) (x : Nat) : Nat := c.eff 81 (winOff x + 0x2E) 0

/-- The units that some request holds now (R809). -/
def Chip.requested (c : Chip) : Nat :=
  let byWake := c.ports.foldl (fun m p => p.2.wakes.foldl (fun m w => m ||| c.groupMask w.1) m) 0
  let bySe := (c.engines.filter fun e => decide (e.1 < 16) && (e.2.run.isSome || !e.2.queue.isEmpty)).foldl (fun m e => m ||| seUnits e.1) 0
  let byWin := (c.engines.filter fun e => decide (e.1 < 16)).foldl (fun m e =>
    (e.2.queue ++ match e.2.run with | some r => r.taken | none => []).foldl (fun m i =>
      if i.source = 2 then m ||| c.groupsMask (c.winWake i.origin) else m) m) 0
  let byCmp := c.aon.cmps.foldl (fun m x => if x.2.holding then m ||| c.groupsMask x.2.groups else m) 0
  let byMiss := if c.rma.miss.any fun q => !q.2.isEmpty then 2 ^ 26 else 0
  let byFail := if c.vault.pwrFail then 0xFFFFFFF else 0
  byWake ||| bySe ||| byWin ||| byCmp ||| byMiss ||| byFail

/-- A request for units: the gated ones among them begin to wake (R808). -/
def Chip.request (c : Chip) (mask : Nat) : Chip := { c with pwr := { c.pwr with waking := c.pwr.waking ||| (mask &&& c.pwr.gated) } }

/-- A unit is gated. -/
def Chip.isGated (c : Chip) (u : Nat) : Bool := bitAt c.pwr.gated u

/-! ## Ports idled (R582) -/

def Chip.port (c : Chip) (p : Nat) : NetPort := tget c.ports {} p
def Chip.setPort (c : Chip) (p : Nat) (x : NetPort) : Chip := { c with ports := tput c.ports {} p x }
def Chip.modPort (c : Chip) (p : Nat) (f : NetPort → NetPort) : Chip := c.setPort p (f (c.port p))

/-- The code of TRD_STATE.STATE. -/
def TrdState.code : TrdState → Nat
  | .stopped => 0 | .armed => 1 | .running => 2 | .held => 3 | .faulted => 4

/-- A LINK_STATE event (R575). -/
def Chip.linkEvent (c : Chip) (p code data : Nat) : Chip := c.happen 9 (p + 16 * code) data

/-- The engine executes nothing more: its program, its wait, its open anchored run and the actions still to come are gone. -/
def Engine.halt (x : Engine) : Engine := { x with run := none, wait := none, anchor := none, actions := [], loops := [] }

/-- A port is idled: heddles to TRD_IDLE.GATES, no hold request, no WAKE request; its engine executes nothing (R582). -/
def Chip.idlePort (c : Chip) (p : Nat) : Chip :=
  let g := c.eff (recTrd p) 0x124 0
  (c.modPort p fun x => { x with heddles := g, hold := false, wakes := [], cycleStart := none, prevStart := none }).modEng (16 + p) Engine.halt

/-- The Treadle engine takes a new state; leaving RUNNING for STOPPED, HELD or FAULTED posts LINK_STATE code 6 (R575). -/
def Chip.setTrd (c : Chip) (p : Nat) (t : TrdState) : Chip :=
  let old := (c.port p).state
  let c := c.modPort p fun x => { x with state := t }
  if old = .running ∧ (t = .stopped ∨ t = .held ∨ t = .faulted) then c.linkEvent p 6 t.code else c

end Sys2Proof.Machine
end

