-- ==== Sys2Proof/Machine/Array.lean ====
section
/-! DEFINITION. Arrays (08, 10): placement, maps and holders, members' media, the metadata bytes of R408–R412, R446, R447, R515 and R536, the
lost-stripe list, position states, passes and their checkpoints, and the ARRAY_STATE and MEMBER_STATE events. -/

namespace Sys2Proof.Machine

/-! ## Placement (R239, R372, R383, R384, R479) -/

/-- The integers from 1 to n − 1 coprime with n, ascending. -/
def units (n : Nat) : List Nat := (List.range n).filter fun u => decide (1 ≤ u) && Nat.gcd u n == 1

/-- `phi` (R383). -/
def phi (n : Nat) : Nat := (units n).length

/-- `unit` (R383). -/
def unit (n idx : Nat) : Nat := (units n).getD idx 1

/-- Position of a column of row `r` (R383, R479). -/
def columnPos (n c r : Nat) : Nat := (c * unit n (r % phi n) + r % n) % n

/-- `locate` (R383): position and row of strip `i` of stripe `s`. -/
def locate (g : Geom) (s i : Nat) : Nat × Nat :=
  let r := s / g.q
  (columnPos g.n (s % g.q * g.w + i) r, r)

/-- The stripe engine that owns stripe `s` of array `a` (R239). -/
def ownerOf (a s : Nat) : Nat := (s + 3 * a) % 16

/-- `holder` (R479) under a placement map. -/
def holder (map : List Nat) (g : Geom) (s i : Nat) : Option Nat :=
  let (pos, row) := locate g s i
  let m := map.getD pos 14
  if m % 2 = 1 then some pos
  else
    let f := bits m 1 3
    if f = 7 then none
    else
      let y := columnPos g.n (g.q * g.w + f) row
      if map.getD y 14 % 2 = 1 then some y else none

/-- d × S of a geometry. -/
def Geom.d (g : Geom) : Nat := g.w - 2

/-- D of a geometry at strip size `S`. -/
def Geom.dataBytes (g : Geom) (S : Nat) : Nat := g.d * S

/-- E of a geometry: data bytes in a row (10, "Reshape"). -/
def Geom.rowBytes (g : Geom) (S : Nat) : Nat := g.q * g.d * S

/-- Stripes per row for n, w and k (R372). -/
def stripesPerRow (n w k : Nat) : Nat := (n - k) / w

/-- The limits of R372 on members, width and spare, and q at least 1. -/
def geomOk (n w k : Nat) : Bool :=
  decide (4 ≤ n) && decide (n ≤ 48) && decide (4 ≤ w) && decide (w ≤ 32) && decide (w ≤ n) && decide (k ≤ 4) && decide (0 < stripesPerRow n w k)

/-- Bytes of a chunk of a strip (R421, R472). -/
def chunkBytes (S : Nat) : Nat := min S 0x10000

/-- Chunks of a strip: the larger of 1 and S / 64 KiB. -/
def chunksOf (S : Nat) : Nat := max 1 (S / 0x10000)

/-! ## Maps of positions (R481, R486) -/

/-- The map byte of a position as a settled placement shows it: what it was before a move under way. -/
def Position.before (p : Position) : Nat :=
  let f := p.slot.getD 7
  match p.state with
  | .inService => 1 + 2 * f
  | .unavailable => 14
  | .onSpare => 2 * f
  | .rebuilding => if p.toRepl then 2 * f else 14

/-- The map byte that the present moves aim at. -/
def Position.target (p : Position) : Nat :=
  let f := p.slot.getD 7
  match p.state with
  | .inService => 1 + 2 * f
  | .unavailable => 14
  | .onSpare => 2 * f
  | .rebuilding => b2n p.toRepl + 2 * f

def RaidArray.beforeMap (a : RaidArray) : List Nat := match a.pass with | some p => p.before | none => a.pos.map Position.before
def RaidArray.targetMap (a : RaidArray) : List Nat := match a.pass with | some p => p.target | none => a.pos.map Position.before

/-- The POS_STATE code of R409. -/
def PosState.code : PosState → Nat
  | .inService => 0 | .unavailable => 1 | .rebuilding => 2 | .onSpare => 3

/-- Positions not IN_SERVICE, an ON_SPARE position counting as IN_SERVICE (R415, R484). -/
def RaidArray.unavail (a : RaidArray) : Nat := (a.pos.filter fun p => p.state == .unavailable || p.state == .rebuilding).length

/-- ARY_STATE.STATE (R415). -/
def RaidArray.stateCode (a : RaidArray) : Nat :=
  if !a.made then 0 else if a.failed then 5 else match a.unavail with | 0 => 1 | 1 => 2 | 2 => 3 | _ => 4

/-- ARY_STRIPES. -/
def RaidArray.stripes (a : RaidArray) : Nat := a.rows * a.geom.q

/-- A member that answers commands for its array (R386, "its member is not attached"). -/
def Member.attached (m : Member) : Bool := m.state == .bound || m.state == .retiring

/-- The member at a position, when it is attached. -/
def Chip.memberAt (c : Chip) (a y : Nat) : Option Nat :=
  match ((c.arr a).pos[y]?).bind (·.member) with
  | some m => if (c.mbr m).attached then some m else none
  | none => none

/-- A position whose strips may be read under the before map. -/
def Chip.readable (c : Chip) (a y : Nat) : Bool :=
  ((c.arr a).pos[y]?).any (fun p => p.state == .inService) && (c.memberAt a y).isSome

/-- A position whose strips may be read under the target map once rebuilt, and written under either. -/
def Chip.writable (c : Chip) (a y : Nat) : Bool :=
  ((c.arr a).pos[y]?).any (fun p => p.state == .inService || (p.state == .rebuilding && p.toRepl)) && (c.memberAt a y).isSome

/-! ## Geometry while a reshape runs (R503, R504) -/

/-- The reshape runs ascending (R502). -/
def Reshape.ascending (r : Reshape) (S : Nat) : Bool := decide (r.old.rowBytes S ≤ r.new.rowBytes S)

/-- Data offset up to which, or from which, items map on the new side: SELVEDGE, or past the row of the running step (R503, R505). -/
def Reshape.boundary (r : Reshape) (S : Nat) : Nat :=
  if r.stepping then (if r.ascending S then (r.row + 1) * r.new.rowBytes S else r.row * r.new.rowBytes S) else r.selvedge * S

/-- Byte `x` of the data space lies on the new side. -/
def Reshape.isNew (r : Reshape) (S x : Nat) : Bool :=
  if r.ascending S then decide (x < r.boundary S) else decide (r.boundary S ≤ x)

/-- The geometry of data byte `x`. -/
def RaidArray.geomAt (a : RaidArray) (x : Nat) : Geom :=
  match a.reshape with
  | some r => if r.isNew a.stripBytes x then r.new else r.old
  | none => a.geom

/-- The geometry of a stripe by its number: the new one where the stripe's range in it lies on the new side. -/
def RaidArray.geomOf (a : RaidArray) (s : Nat) : Geom :=
  match a.reshape with
  | some r => if r.isNew a.stripBytes (s * r.new.dataBytes a.stripBytes) then r.new else r.old
  | none => a.geom

/-! ## Passes: critical and visited stripes (R485, "Passes") -/

/-- The stripe has two or more strips unavailable at the pass start (R485). -/
def Pass.critical (p : Pass) (g : Geom) (s : Nat) : Bool :=
  decide (2 ≤ ((List.range g.w).filter fun i => match holder p.before g s i with | none => true | some y => bitAt p.unav y).length)

/-- The stripe has been visited. -/
def Pass.visited (p : Pass) (g : Geom) (s : Nat) : Bool := (p.main && decide (s < p.mark)) || (p.critical g s && (p.main || decide (s < p.mark)))

/-- Positions to read strip `i` from, in order (R488). -/
def Chip.readHolders (c : Chip) (a : Nat) (g : Geom) (s i : Nat) : List Nat :=
  let r := c.arr a
  let b := (holder r.beforeMap g s i).toList.filter (c.readable a)
  match r.pass with
  | some p => b ++ if p.visited g s then (holder p.target g s i).toList.filter (c.writable a) else []
  | none => b

/-- Positions to write strip `i` to (R487). -/
def Chip.writeHolders (c : Chip) (a : Nat) (g : Geom) (s i : Nat) : List Nat :=
  let r := c.arr a
  ((holder r.beforeMap g s i).toList ++ (holder r.targetMap g s i).toList).dedup.filter (c.writable a)

/-! ## Members' media -/

/-- The bytes of a drive that nothing has written read 0 (log entry 3). -/
def Member.bytes (m : Member) (off n : Nat) : List Byte := mread zeros m.media off n

/-- Some byte of a range reads with an unrecovered media error. -/
def Member.isBad (m : Member) (off n : Nat) : Bool := m.bad.any fun b => decide (b.1 < off + n) && decide (off < b.1 + b.2)

/-- A range leaves the ranges that read badly. -/
def Member.heal (m : Member) (off n : Nat) : Member :=
  { m with bad := m.bad.flatMap fun b =>
      if b.1 + b.2 ≤ off ∨ off + n ≤ b.1 then [b]
      else (if b.1 < off then [(b.1, off - b.1)] else []) ++ (if off + n < b.1 + b.2 then [(off + n, b.1 + b.2 - (off + n))] else []) }

/-- A member Write: the bytes land, the range reads again (R389, R491), and MBR_WRITTEN counts them. -/
def Member.put (m : Member) (off : Nat) (l : List Byte) : Member :=
  { m.heal off l.length with media := mwrite zeros m.media off l, written := (m.written + l.length) % 2 ^ 64 }

/-- A member Write of the `n` bytes of memory `src` from `base`, as `Member.put` of their list; both memories read 0 where nothing is listed, so the
listed cells are all that moves. -/
def Member.putCells (m : Member) (off n base : Nat) (src : Mem) : Member :=
  let lo := m.media.filter fun x => decide (x.1 < off)
  let hi := m.media.filter fun x => decide (off + n ≤ x.1)
  let mid := (src.filter fun x => decide (base ≤ x.1) && decide (x.1 < base + n)).map fun x => (x.1 - base + off, x.2)
  { m.heal off n with media := lo ++ (mid ++ hi), written := (m.written + n) % 2 ^ 64 }

/-- A change of the member at a position, and of the replacement that a retirement copies it to (R568). -/
def Chip.posPut (c : Chip) (a y : Nat) (f : Member → Member) : Chip :=
  let c := match c.memberAt a y with | some m => c.modMbr m f | none => c
  match (c.arr a).retire with
  | some t => if t.pos = y then c.modMbr t.repl f else c
  | none => c

/-- A Write to the member at a position, and to its retirement's replacement. -/
def Chip.posWrite (c : Chip) (a y off : Nat) (l : List Byte) : Chip := c.posPut a y fun x => x.put off l

/-- Member byte offset of byte `o` of a strip in row `r` (R384). -/
def stripOff (S r o : Nat) : Nat := 0x10000000 + r * S + o

/-! ## Bytes laid out in blocks -/

/-- Fields at rising offsets in a block of `n` bytes whose other bytes are 0; `at0` is where the block has been filled to. -/
def layoutFrom (n : Nat) : Nat → List (Nat × List Byte) → List Byte
  | at0, [] => List.replicate (n - at0) 0
  | at0, (o, l) :: r => List.replicate (o - at0) 0 ++ l ++ layoutFrom n (o + l.length) r

/-- A block of `n` bytes with its fields. -/
def layout (n : Nat) (fs : List (Nat × List Byte)) : List Byte := layoutFrom n 0 fs

/-- A 4 KiB block that ends in the CRC32C of its first 0xFFC bytes. -/
def block4k (fs : List (Nat × List Byte)) : List Byte :=
  let b := layout 0xFFC fs
  b ++ leBytes 4 (crc32c b)

/-! ## Superblocks (R409, R411) -/

/-- The superblock of an array for a position (R409). -/
def superblock (n : Nat) (a : RaidArray) (position : Nat) : List Byte :=
  block4k [(0, leBytes 4 0x424D5A56), (4, leBytes 2 1), (6, leBytes 1 n), (7, leBytes 1 position), (8, leBytes 16 a.uid),
    (0x18, leBytes 8 a.gen), (0x20, leBytes 1 a.geom.n), (0x21, leBytes 1 a.geom.w), (0x22, leBytes 1 a.geom.k), (0x23, leBytes 1 a.stripLog2),
    (0x24, leBytes 1 a.geom.q), (0x28, leBytes 4 a.prog), (0x30, leBytes 8 a.rows),
    (0x40, a.pos.map fun p => BitVec.ofNat 8 p.state.code), (0x70, a.pos.flatMap fun p => leBytes 16 p.id),
    (0x370, leBytes 8 a.lostGen), (0x378, leBytes 1 a.spill0), (0x379, leBytes 1 a.spill1)]

/-- The IN_SERVICE positions of an array. -/
def RaidArray.inService (a : RaidArray) : List Nat := (List.range a.pos.length).filter fun y => a.pos[y]?.any fun p => p.state == .inService

/-- Bytes written at one offset of every IN_SERVICE member, as each position's own. -/
def Chip.everyMember (c : Chip) (a off : Nat) (l : Nat → List Byte) : Chip :=
  (c.arr a).inService.foldl (fun c y => c.posWrite a y off (l y)) c

/-- A superblock update: GENERATION increments, copy A on every IN_SERVICE member, then copy B (R409, R411). -/
def Chip.superUpdate (c : Chip) (a : Nat) : Chip :=
  let c := c.modArr a fun r => { r with gen := r.gen + 1 }
  let r := c.arr a
  (c.everyMember a 0 (superblock a r)).everyMember a 0x100000 (superblock a r)

/-! ## ARRAY_STATE events (R521) -/

/-- An ARRAY_STATE event with its code, position and DATA, at an admission place. -/
def Chip.arrayEvent (c : Chip) (a code pos data seq : Nat) : Chip :=
  c.raise { type := 4, info := a + 16 * code + 2 ^ 8 * pos, data := data % 2 ^ 32, seq := seq }

/-- A change to an array, with the event of a new STATE (R415, R521 code 1). -/
def Chip.changeArr (c : Chip) (a seq : Nat) (f : RaidArray → RaidArray) : Chip :=
  let old := (c.arr a).stateCode
  let c := c.modArr a f
  let now := (c.arr a).stateCode
  if old = now then c else c.arrayEvent a 1 0x3F now seq

/-! ## The lost-stripe list (R403–R407, R410, R860) -/

/-- A list entry (R404). -/
def LostEntry.bytes (e : LostEntry) : List Byte := leBytes 8 e.stripe ++ leBytes 4 e.mask ++ leBytes 1 e.cause ++ leBytes 3 0

/-- The list on the members: entries before the header that covers them (R408, R410, R411). -/
def Chip.writeLost (c : Chip) (a : Nat) : Chip :=
  let c := c.modArr a fun r => { r with lostGen := r.lostGen + 1 }
  let r := c.arr a
  let es := r.lost.flatMap LostEntry.bytes
  let hd := block4k [(0, leBytes 4 0x534C5A56), (4, leBytes 4 r.lost.length), (8, leBytes 8 r.lostGen), (0x10, leBytes 4 (crc32c es))]
  let c := c.everyMember a 0x201000 fun _ => es ++ leBytes 16 0
  c.everyMember a 0x200000 fun _ => hd

/-- A journal record lands for an array, when a ring exists (R187, R405). -/
def Chip.journal (c : Chip) (a : Nat) (rec : List Byte) : Chip :=
  if c.cache.pairQ = 0 ∨ c.ringFree a < rec.length then c else c.appendRecord a rec

/-- A LOST_STRIPE event (R407). -/
def Chip.lostEvent (c : Chip) (a stripe : Nat) (revived : Bool) (seq : Nat) : Chip :=
  c.raise { type := 5, info := a + 16 * bits stripe 32 4 + 2 ^ 8 * b2n revived, data := stripe % 2 ^ 32, seq := seq }

/-- The entry of a stripe. -/
def RaidArray.lostAt (a : RaidArray) (s : Nat) : Option LostEntry := a.lost.find? fun e => e.stripe == s

/-- An entry put in ascending order of STRIPE. -/
def insertLost (e : LostEntry) : List LostEntry → List LostEntry
  | [] => [e]
  | x :: r => if e.stripe < x.stripe then e :: x :: r else if e.stripe = x.stripe then e :: r else x :: insertLost e r

/-- The mask of a list of strips. -/
def maskOf (l : List Nat) : Nat := l.foldl (fun m i => m ||| 2 ^ i) 0

/-- Strips of a stripe are lost (R390, R406, R860): the record lands, the copies are written, the event is posted. -/
def Chip.lostAdd (c : Chip) (a s : Nat) (strips : List Nat) (cause seq : Nat) : Chip :=
  let r := c.arr a
  let land (c : Chip) (e : LostEntry) : Chip :=
    let c := c.journal a (recordBytes 5 2 a s 0xFFFFFFFF e.bytes)
    let c := c.modArr a fun r => { r with lost := insertLost e r.lost }
    (c.writeLost a).lostEvent a s false seq
  match r.lostAt s with
  | some e => let m := e.mask ||| maskOf strips; if m = e.mask then c else land c { e with mask := m }
  | none =>
    if 65536 ≤ r.lost.length then c.changeArr a seq fun r => { r with failed := true }
    else land c ⟨s, maskOf strips, cause⟩

/-- A stripe leaves the list (R397). -/
def Chip.lostDel (c : Chip) (a s seq : Nat) : Chip :=
  match (c.arr a).lostAt s with
  | none => c
  | some e =>
    let c := c.journal a (recordBytes 6 2 a s 0xFFFFFFFF e.bytes)
    let c := c.modArr a fun r => { r with lost := r.lost.filter fun x => x.stripe != s }
    (c.writeLost a).lostEvent a s true seq

/-! ## Checkpoints and PROGRESS records (R513–R516) -/

/-- A geometry in four bytes: MEMBERS, WIDTH, SPARE, Q. -/
def Geom.bytes (g : Geom) : List Byte := leBytes 1 g.n ++ leBytes 1 g.w ++ leBytes 1 g.k ++ leBytes 1 g.q

/-- The checkpoint block of an array (R515). -/
def checkpoint (a : RaidArray) : List Byte :=
  let pad (l : List Nat) : List Byte := (List.range 48).map fun i => BitVec.ofNat 8 (l.getD i 0)
  let p := a.pass.getD { before := [], target := [] }
  let s := a.scrub.getD {}
  block4k [(0, leBytes 4 0x4B435A56), (4, leBytes 2 1), (8, leBytes 16 a.uid), (0x18, leBytes 8 a.ckGen), (0x20, leBytes 1 (b2n a.pass.isSome)),
    (0x21, leBytes 1 (b2n p.main)), (0x28, leBytes 8 p.mark), (0x30, leBytes 8 p.unav), (0x40, pad a.beforeMap), (0x70, pad a.targetMap),
    (0xA0, leBytes 8 s.mark), (0xA8, leBytes 8 s.start),
    (0xB0, leBytes 1 (match a.reshape with | none => 0 | some r => if r.paused then 2 else 1)), (0xB1, leBytes 1 (b2n (a.reshape.any (·.desc)))),
    (0xB4, match a.reshape with | some r => r.old.bytes | none => leBytes 4 0), (0xB8, match a.reshape with | some r => r.new.bytes | none => leBytes 4 0),
    (0xC0, leBytes 8 (match a.reshape with | some r => r.selvedge | none => 0))]

/-- A checkpoint on every IN_SERVICE member; the PROGRESS records that it covers are no longer live (R514, R516). -/
def Chip.writeCheckpoint (c : Chip) (a : Nat) : Chip :=
  let c := c.modArr a fun r => { r with ckGen := r.ckGen + 1, progressLive := [] }
  let r := c.arr a
  c.everyMember a (if r.ckGen % 2 = 0 then 0x400000 else 0x401000) fun _ => checkpoint r

/-- A PROGRESS record lands (R513); it stays live until something covers it (R514). -/
def Chip.progress (c : Chip) (a kind phase vol mark seq : Nat) : Chip :=
  if c.cache.pairQ = 0 then c
  else
    let j := c.ringNext a
    let c := c.journal a (recordBytes 8 2 a 0 0xFFFFFFFF (leBytes 1 kind ++ leBytes 1 phase ++ leBytes 1 vol ++ leBytes 5 0 ++ leBytes 8 mark ++ leBytes 8 seq))
    c.modArr a fun r => { r with progressLive := r.progressLive ++ [j] }

/-- The marks `before` and `after` stand on different sides of a multiple of `n` stripes' worth of data. -/
def crossed (unit before after : Nat) : Bool := before / unit != after / unit

/-! ## The volume table (R536, R537) -/

/-- The STATE code of R536. -/
def VolState.code : VolState → Nat
  | .none => 0 | .unformatted => 1 | .formatting => 2 | .ready => 3 | .sanitizing => 4

/-- The record of a volume (R536). -/
def Volume.record (v : Volume) (n : Nat) : List Byte :=
  let b := layout 0x3C [(0, leBytes 1 n), (1, leBytes 1 v.state.code), (2, leBytes 1 v.array), (3, leBytes 1 (b2n v.big)), (8, leBytes 8 v.first),
    (0x10, leBytes 8 v.count), (0x18, leBytes 8 v.mark), (0x20, leBytes 8 v.gen), (0x28, leBytes 8 v.seq)]
  b ++ leBytes 4 (crc32c b)

/-- Positions whose member is BOUND. -/
def Chip.boundPositions (c : Chip) (a : Nat) : List Nat :=
  (List.range (c.arr a).pos.length).filter fun y => (c.memberAt a y).any fun m => (c.mbr m).state == .bound

/-- A volume changes, and its record on every BOUND member: copy A, then copy B (R537). -/
def Chip.volUpdate (c : Chip) (v : Nat) (f : Volume → Volume) : Chip :=
  let a := (f (c.vol v)).array
  let c := c.modVol v fun x => { f x with gen := x.gen + 1 }
  let r := (c.vol v).record v
  let ys := c.boundPositions a
  let c := ys.foldl (fun c y => c.posWrite a y (0x404000 + 64 * v) r) c
  ys.foldl (fun c y => c.posWrite a y (0x408000 + 64 * v) r) c

/-! ## Journal epochs and spill copies (R446–R451) -/

/-- A spill header (R447). -/
def Chip.spillHeader (c : Chip) (a : Nat) : List Byte :=
  let r := c.arr a
  block4k [(0, leBytes 4 0x534A5A56), (4, leBytes 2 1), (8, leBytes 16 r.uid), (0x18, leBytes 4 (c.ringEpoch a)), (0x20, leBytes 8 r.headerGen),
    (0x28, leBytes 8 (r.spillJseq - 1)), (0x30, leBytes 8 (c.ringTail a))]

/-- The two spill positions, where they exist. -/
def RaidArray.spills (a : RaidArray) : List Nat := [a.spill0, a.spill1].filter (· != 0xFF)

/-- A current spill header on both copies, alternately in the two places (R446). -/
def Chip.writeSpillHeader (c : Chip) (a : Nat) : Chip :=
  let c := c.modArr a fun r => { r with headerGen := r.headerGen + 1 }
  let off := if (c.arr a).headerGen % 2 = 0 then 0x800000 else 0x801000
  let h := c.spillHeader a
  (c.arr a).spills.foldl (fun c y => c.posWrite a y off h) c

/-- The ring copy at a spill position, whole (R446, R450). The spill area starts at 0x0080_0000, the ring copy 0x0100_0000 further. -/
def Chip.writeSpillRing (c : Chip) (a y : Nat) : Chip := c.posPut a y fun x => x.putCells 0x1800000 ringSize (ringBase a) c.hbm

/-- The first IN_SERVICE position of `ys` at or after `x`, wrapping, that is not `x'`. -/
def nextFrom (ys : List Nat) (x : Nat) : Option Nat :=
  match ys.find? fun y => decide (x < y) with
  | some y => some y
  | none => ys.head?

/-- SPILL0 and SPILL1 advance to the next two IN_SERVICE positions (R451). -/
def Chip.advanceSpills (c : Chip) (a : Nat) : Chip :=
  let r := c.arr a
  let ys := r.inService
  let s0 := if r.spill1 = 0xFF then ys.head? else nextFrom ys r.spill1
  let s1 := s0.bind fun x => (nextFrom ys x).filter (· != x)
  let c := c.modArr a fun r => { r with spill0 := s0.getD 0xFF, spill1 := s1.getD 0xFF, spillJseq := c.ringNext a }
  (c.arr a).spills.foldl (fun c y => c.writeSpillRing a y) c

/-- A journal epoch begins (R448, R451): the EPOCH record, the new spill positions with their headers, and the superblock that names them. -/
def Chip.beginEpoch (c : Chip) (a reason : Nat) : Chip :=
  let e := c.ringEpoch a + 1
  let c := c.hbmWrite (ringAt a + 16) (leBytes 4 e)
  let j := c.ringNext a
  let body := leBytes 1 (b2n c.par.unit) ++ leBytes 1 reason ++ leBytes 2 0 ++ leBytes 8 j
  let c := if c.ringFree a < 64 then c else c.appendRecord a (recordBytes 7 2 a 0 0xFFFFFFFF body)
  ((c.advanceSpills a).writeSpillHeader a).superUpdate a

/-- A spill position became unavailable: its copy moves to the lowest IN_SERVICE position that holds neither (R450). -/
def Chip.moveSpill (c : Chip) (a y : Nat) : Chip :=
  let r := c.arr a
  if !r.spills.contains y then c
  else
    let next := (r.inService.find? fun z => !r.spills.contains z).getD 0xFF
    let c := if next = 0xFF then c else c.writeSpillRing a next
    let c := c.modArr a fun r => { r with spill0 := if r.spill0 = y then next else r.spill0, spill1 := if r.spill1 = y then next else r.spill1 }
    (c.writeSpillHeader a).superUpdate a

/-! ## Position states and passes (R481, R482, R485, R489) -/

/-- UNAV_START: the positions whose member is unattached or failed. -/
def Chip.unavNow (c : Chip) (a : Nat) : Nat :=
  maskOf ((List.range (c.arr a).pos.length).filter fun y => !c.readable a y)

/-- Stripes that a pass begins with as critical. -/
def Chip.criticalCount (c : Chip) (a : Nat) : Nat :=
  match (c.arr a).pass with
  | some p => ((List.range (c.arr a).stripes).filter (p.critical (c.arr a).geom)).length
  | none => 0

/-- Positions whose strips are all on spare as a pass starts: those that the before map gives a slot and no OWN. -/
def onSpareOf (before : List Nat) : List Nat := (List.range before.length).filter fun y => before.getD y 14 % 2 = 0 && bits (before.getD y 14) 1 3 != 7

/-- A map change begins a pass, or restarts the running one at the critical phase with its before map kept (R489, R521 codes 3 and 4). -/
def Chip.startPass (c : Chip) (a seq : Nat) : Chip :=
  let r := c.arr a
  let target := r.pos.map Position.target
  let old := r.pass
  let before := r.beforeMap
  let unav := c.unavNow a
  let spare := match old with | some p => p.spareAtStart | none => onSpareOf before
  let c := c.modArr a fun r => { r with pass := some { before := before, target := target, unav := unav, spareAtStart := spare } }
  let c := c.arrayEvent a (if old.isSome then 4 else 3) 0x3F (c.criticalCount a) seq
  c.writeCheckpoint a

/-- A position changes, with its event, the STATE event, and the superblock that records it (R481, R521 codes 1 and 2). -/
def Chip.setPos (c : Chip) (a y seq : Nat) (f : Position → Position) : Chip :=
  let c := c.changeArr a seq fun r => { r with pos := r.pos.modify y f }
  let code := ((c.arr a).pos[y]?).elim 0 (·.state.code)
  (c.superUpdate a).arrayEvent a 2 y code seq

/-- The lowest slot below k that no position holds (R482). -/
def RaidArray.freeSlot (a : RaidArray) : Option Nat := (List.range a.geom.k).find? fun f => !a.pos.any fun p => p.slot == some f

/-- An UNAVAILABLE position takes a spare slot and a pass begins, unless AUTO_SPARE is clear, no slot is free or a reshape is under way
(R482, R510). -/
def Chip.assignSpare (c : Chip) (a y seq : Nat) : Chip :=
  let r := c.arr a
  if c.eff (recSe a) 0x504 16 = 0 ∨ r.reshape.isSome then c
  else match r.freeSlot with
    | none => c
    | some f => (c.setPos a y seq fun p => { p with state := .rebuilding, toRepl := false, slot := some f }).startPass a seq

/-- The member at a position fails, is detached, goes away, or comes back as another (R481, R490, R510, R570). -/
def Chip.losePosition (c : Chip) (a y seq : Nat) : Chip :=
  let r := c.arr a
  match r.pos[y]? with
  | none => c
  | some p =>
    let c := match r.reshape with
      | some x => if x.paused ∨ x.pausing then c else c.modArr a fun r => { r with reshape := some { x with pausing := true, pauser := y } }
      | none => c
    match r.retire with
    | some t =>
      if t.pos = y then
        -- The retiring member failed: the copy continues as a pass to the replacement.
        let c := c.modArr a fun r => { r with retire := none }
        let c := c.setPos a y seq fun p => { p with state := .unavailable }
        (c.setPos a y seq fun p => { p with state := .rebuilding, toRepl := true, member := some t.repl, id := (c.mbr t.repl).nguid }).startPass a seq
      else c
    | none =>
    match p.state with
    | .inService => ((c.setPos a y seq fun p => { p with state := .unavailable }).moveSpill a y).assignSpare a y seq
    | .rebuilding =>
      if !p.toRepl then c
      else
        let wasSpare := r.pass.any fun q => q.spareAtStart.contains y
        let next : PosState := if p.slot.isNone then .unavailable else if wasSpare then .onSpare else .rebuilding
        (c.setPos a y seq fun p => { p with state := next, toRepl := false }).startPass a seq
    | _ => c

/-! ## Member states (R559, R571) -/

/-- The STATE code of R571. -/
def MbrState.code : MbrState → Nat
  | .absent => 0 | .attaching => 1 | .ready => 2 | .bound => 3 | .retiring => 4 | .retired => 5 | .sanitizing => 6 | .failed => 7 | .refused => 8

/-- A change of member state is admitted and posted (R559), MEMBER_FAILED holds while it is FAILED (R716), and the member's array takes the loss of
its position. -/
def Chip.memberState (c : Chip) (m : Nat) (next : MbrState) (reason : Nat) : Chip :=
  let old := c.mbr m
  let (s, c) := c.takeSeq
  let c := c.modMbr m fun x => { x with state := next }
  let c := (c.raise { type := 3, info := m + 2 ^ 8 * next.code, data := reason, seq := s }).setLevel (recMbr m) 3 (next == .failed)
  if old.attached ∧ next ≠ .bound ∧ next ≠ .retiring ∧ next ≠ .retired ∧ next ≠ .ready then
    match old.position with
    | some y => c.losePosition old.array y s
    | none => c
  else c

end Sys2Proof.Machine
end

