-- ==== Sys2Proof/Machine/Stripe.lean ====
section
/-! DEFINITION. What a stripe holds (08, 09): bobbins with their pages, the newest value of every sector, P and Q, reconstruction, writes through the
stripe's bobbin, its journal records and mirrors, and the destage. -/

namespace Sys2Proof.Machine

/-! ## Mirror traffic (R604, R679) -/

/-- A Coupler message joins the transmit queue. An ACTIVE unit mirrors, and an ALONE one whose copy has begun (R679, R701). -/
def Chip.toPartner (c : Chip) (m : CouplerMsg) : Chip :=
  if c.par.role = .active ∨ (c.par.role = .alone ∧ c.par.copySent) then { c with par := { c.par with queue := c.par.queue ++ [m] } } else c

/-- A range of the protected region is mirrored in messages of at most 64 KiB, the ticket on the last (R679). -/
def Chip.mirrorFrom (c : Chip) (e : Nat) (ingest : Bool) (ticket : Nat) : Nat → Nat → Nat → Chip
  | 0, _, _ => c
  | fuel + 1, off, n =>
    let k := min n 65536
    let last := decide (n ≤ 65536)
    let c := c.toPartner { cls := 5, prio := if ingest then 3 else 4, last := last, ingest := ingest, engine := e, offset := off,
                           ticket := if last then ticket else 0, payload := mread hbmInit c.hbm off k }
    if last then c else c.mirrorFrom e ingest ticket fuel (off + k) (n - k)

/-- The mirror of `[off, off + n)`. -/
def Chip.mirrorRange (c : Chip) (e : Nat) (ingest : Bool) (ticket off n : Nat) : Chip :=
  if n = 0 then c else c.mirrorFrom e ingest ticket (n / 65536 + 1) off n

/-- A journal record as it stands at ring offset `off` of array `a` is mirrored. -/
def Chip.mirrorRecord (c : Chip) (e : Nat) (ingest : Bool) (ticket a off n : Nat) : Chip :=
  c.toPartner { cls := 6, prio := if ingest then 3 else 4, last := true, ingest := ingest, engine := e,
                offset := ringBase a + off % ringSize, ticket := ticket, payload := c.ringRead a off n }

/-! ## Bobbins of a stripe (R428–R430) -/

/-- The OPEN bobbin of a stripe. -/
def Chip.openBob (c : Chip) (a s : Nat) : Option Nat :=
  c.bobbins.find? fun b => c.bobState b == 1 && c.bobArray b == a && c.bobStripe b == s

/-- The older bobbin of a stripe, DESTAGING or RETIRING. -/
def Chip.oldBob (c : Chip) (a s : Nat) : Option Nat :=
  c.bobbins.find? fun b => (c.bobState b == 2 || c.bobState b == 3) && c.bobArray b == a && c.bobStripe b == s

/-- Chunk and sector within its page of sector `k` of a strip. -/
def chunkOf (k : Nat) : Nat := k / 128
def sectorIn (k : Nat) : Nat := k % 128

/-- VALID bit `v` of page `p` (R424). -/
def Chip.pageValid (c : Chip) (p v : Nat) : Bool := bitAt (c.hbmLe (pageEntry p + 8 + v / 8) 1) (v % 8)

/-- Sector `k` of strip `i` as bobbin `b` holds it (R429). -/
def Chip.bobSector (c : Chip) (b i k : Nat) : Option (List Byte) :=
  let p := c.bobPage b i (chunkOf k)
  if p = 0xFFFFFFFF ∨ !c.pageValid p (sectorIn k) then none else some (mread hbmInit c.hbm (pageAt p + 512 * sectorIn k) 512)

/-! ## The value of a sector (R386–R388, R429, R469) -/

/-- P and Q of a stripe not yet resynchronised count as unavailable (R469). -/
def RaidArray.parityOff (a : RaidArray) (s i : Nat) : Bool :=
  match a.resync with
  | some r => decide ((a.geomOf s).w - 2 ≤ i) && !(r.done.contains s || (decide (s < r.mark) && !r.first.contains s))
  | none => false

/-- Sector `k` of strip `i` as a member returns it; none while the strip is unavailable for it (R386, R480). -/
def Chip.memberSector (c : Chip) (a : Nat) (g : Geom) (s i k : Nat) : Option (List Byte) :=
  if (c.arr a).parityOff s i then none
  else
    let off := stripOff (c.arr a).stripBytes (s / g.q) (512 * k)
    (c.readHolders a g s i).findSome? fun y => match c.memberAt a y with
      | some m => if (c.mbr m).isBad off 512 then none else some ((c.mbr m).bytes off 512)
      | none => none

/-- The newest value of a sector outside reconstruction: OPEN bobbin, older bobbin, member (R429). -/
def Chip.sector (c : Chip) (a : Nat) (g : Geom) (s i k : Nat) : Option (List Byte) :=
  ((c.openBob a s).bind fun b => c.bobSector b i k) <|> ((c.oldBob a s).bind fun b => c.bobSector b i k) <|> c.memberSector a g s i k

/-- The column of sector `k` over the w strips. -/
def Chip.column (c : Chip) (a : Nat) (g : Geom) (s k : Nat) : List (Option (List Byte)) := (List.range g.w).map fun i => c.sector a g s i k

/-- Every element present. -/
def allSome {α : Type} : List (Option α) → Option (List α)
  | [] => some []
  | none :: _ => none
  | some x :: r => (allSome r).map (x :: ·)

/-- A column completed byte by byte (R387); none with more than two strips missing. -/
def completeCol (w : Nat) (col : List (Option (List Byte))) : Option (List (List Byte)) :=
  match allSome col with
  | some l => some l
  | none =>
    let rows := allSome ((List.range 512).map fun t => reconstruct (col.map fun o => o.map fun l => l.getD t 0))
    rows.map fun rs => (List.range w).map fun i => rs.map fun r => r.getD i 0

/-- The strips of a stripe that are unavailable over sectors `[k, k + n)` (R386, R480). -/
def Chip.unavailStrips (c : Chip) (a : Nat) (g : Geom) (s k n : Nat) : List Nat :=
  (List.range g.w).filter fun i => (List.range n).any fun x => (c.memberSector a g s i (k + x)).isNone

/-- Sector `k` of strip `i`, reconstructed where needed. -/
def Chip.readSector (c : Chip) (a : Nat) (g : Geom) (s i k : Nat) : Option (List Byte) :=
  match c.sector a g s i k with
  | some l => some l
  | none => (completeCol g.w (c.column a g s k)).map fun l => l.getD i []

/-- Bytes `[o, o + n)` of strip `i` (R388); none where more than two strips are unavailable. -/
def Chip.readStrip (c : Chip) (a : Nat) (g : Geom) (s i o n : Nat) : Option (List Byte) :=
  if n = 0 then some []
  else
    let k0 := o / 512
    let k1 := (o + n - 1) / 512
    (allSome ((List.range (k1 - k0 + 1)).map fun x => c.readSector a g s i (k0 + x))).map fun ls => (ls.flatten.drop (o % 512)).take n

/-! ## Allocation (R421, R422, R425) -/

/-- One element of a list, as the program's choice leaves it: free among the candidates (log entry 4). -/
def Chip.choose (c : Chip) (l : List Nat) : Option Nat × Chip :=
  match l with
  | [] => (none, c)
  | x :: _ => let (v, c) := c.fresh l.length; (some (l.getD v x), c)

/-- Free pages of engine `e` within the pair plan. -/
def Chip.freePages (c : Chip) (e : Nat) : List Nat :=
  let held := c.heldPages
  (List.range c.pages).filter fun p => p % 16 == e && !held.contains p

/-- FREE bobbins of engine `e`. -/
def Chip.freeBobs (c : Chip) (e : Nat) : List Nat :=
  let used := c.bobbins
  (List.range 16384).filter fun b => b % 16 == e && !used.contains b

/-- The page of chunk `ch` of strip `i` of a bobbin, mapped now if it is not yet (R422, R424). -/
def Chip.needPage (c : Chip) (b i ch : Nat) : Option Nat × Chip :=
  let p := c.bobPage b i ch
  if p ≠ 0xFFFFFFFF then (some p, c)
  else match c.choose (c.freePages (b % 16)) with
    | (none, c) => (none, c)
    | (some p, c) =>
      let c := c.hbmWrite (pageEntry p) (leBytes 4 b ++ leBytes 1 i ++ leBytes 1 ch ++ leBytes 26 0)
      let c := c.hbmWrite (bobAt b + 0x40 + 4 * (4 * i + ch)) (leBytes 4 p)
      (some p, c.hbmWrite (bobAt b + 4) (leBytes 4 (c.hbmLe (bobAt b + 4) 4 + 1)))

/-- One sector written into a bobbin: its bytes, then its VALID bit (R427, R440). -/
def Chip.bobPut (c : Chip) (b i k : Nat) (l : List Byte) : Chip :=
  match c.needPage b i (chunkOf k) with
  | (none, c) => c
  | (some p, c) =>
    let c := c.hbmWrite (pageAt p + 512 * sectorIn k) l
    let at0 := pageEntry p + 8 + sectorIn k / 8
    c.hbmWrite at0 (leBytes 1 (c.hbmLe at0 1 ||| 2 ^ (sectorIn k % 8)))

/-- A record that names a bobbin is appended, and the bobbin's LAST_JSEQ follows it. -/
def Chip.bobRecord (c : Chip) (a b : Nat) (rec : List Byte) : Chip :=
  let j := c.ringNext a
  (c.journal a rec).hbmWrite (bobAt b + 0x18) (leBytes 8 j)

/-- The OPEN bobbin of a stripe, opened now if there is none (R430); none while the owner has no FREE bobbin. -/
def Chip.needBob (c : Chip) (a : Nat) (g : Geom) (s : Nat) : Option Nat × Chip :=
  match c.openBob a s with
  | some b => (some b, c)
  | none => match c.choose (c.freeBobs (ownerOf a s)) with
    | (none, c) => (none, c)
    | (some b, c) =>
      let j := c.ringNext a
      let hd := layout 1024 [(0, leBytes 1 1), (1, leBytes 1 a), (2, leBytes 1 g.w), (3, leBytes 1 (chunksOf (c.arr a).stripBytes)), (8, leBytes 8 s),
        (0x10, leBytes 8 j), (0x18, leBytes 8 j), (0x40, List.replicate 512 0xFF)]
      let c := c.hbmWrite (bobAt b) hd
      (some b, c.journal a (recordBytes 1 1 a s b []))

/-- A bobbin becomes FREE and its pages are freed (R430); pages freed from a volume under sanitise are zeroed first (R540). -/
def Chip.freeBob (c : Chip) (b : Nat) : Chip :=
  let ps := ((List.range 128).map fun j => c.hbmLe (bobAt b + 0x40 + 4 * j) 4).filter (· != 0xFFFFFFFF)
  let a := c.bobArray b
  let s := c.bobStripe b
  let wipe := c.volumes.any fun v => v.2.state == .sanitizing && v.2.array == a && decide (v.2.first ≤ s) && decide (s < v.2.first + v.2.count)
  let c := ps.foldl (fun c p =>
    let c := if wipe then c.hbmWrite (pageAt p) (List.replicate 0x10000 0) else c
    c.hbmWrite (pageEntry p) (leBytes 4 0xFFFFFFFF ++ leBytes 28 0)) c
  c.hbmWrite (bobAt b) (List.replicate 0x40 0 ++ List.replicate 512 0xFF)

/-- Pages that writing sectors `ks` of the strips `is` of a stripe would map. -/
def Chip.pagesNeeded (c : Chip) (a s : Nat) (chunks : List Nat) (is : List Nat) : Nat :=
  match c.openBob a s with
  | none => is.length * chunks.length
  | some b => (is.flatMap fun i => chunks.filter fun ch => c.bobPage b i ch == 0xFFFFFFFF).length

/-! ## Writing a stripe (R386, R393–R397, R427) -/

/-- A piece of new data: strip, offset in the strip, bytes. -/
structure Piece where
  strip : Nat
  off : Nat
  data : List Byte
deriving DecidableEq, Repr

/-- Bytes of a sector with a piece laid over them. -/
def Piece.over (p : Piece) (i k : Nat) (l : List Byte) : List Byte :=
  if p.strip ≠ i then l
  else
    let lo := max p.off (512 * k)
    let hi := min (p.off + p.data.length) (512 * (k + 1))
    if hi ≤ lo then l
    else l.take (lo - 512 * k) ++ (p.data.drop (lo - p.off)).take (hi - lo) ++ l.drop (hi - 512 * k)

/-- The piece touches sector `k` of its strip. -/
def Piece.touches (p : Piece) (k : Nat) : Bool := decide (p.off < 512 * (k + 1)) && decide (512 * k < p.off + p.data.length)

/-- The sectors that some piece touches, ascending. -/
def sectorsOf (S : Nat) (ps : List Piece) : List Nat := (List.range (S / 512)).filter fun k => ps.any fun p => p.touches k

/-- P and Q of data sectors. -/
def parity (ds : List (List Byte)) : List Byte × List Byte :=
  let cols := (List.range 512).map fun t => ds.map fun l => l.getD t 0
  (cols.map pOf, cols.map qOf)

/-- One sector column of a stripe takes new data: the changed data strips with P and Q go to the bobbin (R394, R427). -/
def Chip.putColumn (c : Chip) (b d k : Nat) (changed : List Nat) (ds : List (List Byte)) : Chip :=
  let (p, q) := parity ds
  let c := changed.foldl (fun c i => c.bobPut b i k (ds.getD i [])) c
  (c.bobPut b d k p).bobPut b (d + 1) k q

/-- Old data sectors of column `k`: zeros for a write that replaces or zeroes the stripe, the present ones otherwise. -/
def Chip.oldData (c : Chip) (a : Nat) (g : Geom) (s k : Nat) (fresh : Bool) : Option (List (List Byte)) :=
  if fresh then some (List.replicate g.d (List.replicate 512 0))
  else (completeCol g.w (c.column a g s k)).map fun l => l.take g.d

/-- The pieces applied to a stripe through bobbin `b`, sector by sector. -/
def Chip.applyPieces (c : Chip) (a : Nat) (g : Geom) (s b : Nat) (fresh : Bool) (ps : List Piece) : List Nat → Chip
  | [] => c
  | k :: r =>
    let c' := match c.oldData a g s k fresh with
      | none => c
      | some ds =>
        let new := (List.range g.d).map fun i => ps.foldl (fun l (p : Piece) => p.over i k l) (ds.getD i [])
        let changed := (List.range g.d).filter fun i => fresh || ps.any fun p => p.strip == i && p.touches k
        c.putColumn b g.d k changed new
    c'.applyPieces a g s b fresh ps r

/-- Chunks that hold the given sectors. -/
def chunksIn (ks : List Nat) : List Nat := (ks.map chunkOf).dedup

/-- The owner has room for the write: a bobbin, pages within the plan, and 1 MiB of ring (R421, R867). -/
def Chip.roomFor (c : Chip) (a s : Nat) (chunks is : List Nat) : Bool :=
  let e := ownerOf a s
  ((c.openBob a s).isSome || !(c.freeBobs e).isEmpty) && decide (c.pagesNeeded a s chunks is ≤ (c.freePages e).length)

/-- Everything a bobbin uses is mirrored after a write: header, page table entries and pages (R440). -/
def Chip.mirrorBob (c : Chip) (e : Nat) (ingest : Bool) (ticket b : Nat) : Chip :=
  let ps := ((List.range 128).map fun j => c.hbmLe (bobAt b + 0x40 + 4 * j) 4).filter (· != 0xFFFFFFFF)
  let c := ps.foldl (fun c p => (c.mirrorRange e ingest 0 (pageAt p) 65536).mirrorRange e ingest 0 (pageEntry p / 64 * 64) 64) c
  c.mirrorRange e ingest ticket (bobAt b) 1024

/-! ## Destage (R398, R399, R443, R444) -/

/-- Strip `i` of the bobbin's chunks: every valid sector goes to the holders (R443, R487). -/
def Chip.destageStrip (c : Chip) (a : Nat) (g : Geom) (s b i : Nat) : List Nat → Chip
  | [] => c
  | k :: r =>
    let c' := match c.bobSector b i k with
      | none => c
      | some l => (c.writeHolders a g s i).foldl (fun c y => c.posWrite a y (stripOff (c.arr a).stripBytes (s / g.q) (512 * k)) l) c
    c'.destageStrip a g s b i r

/-- Every valid sector of a bobbin goes to the members. -/
def Chip.destageAll (c : Chip) (a : Nat) (g : Geom) (s b : Nat) : Chip :=
  (List.range g.w).foldl (fun c i => c.destageStrip a g s b i (List.range ((c.arr a).stripBytes / 512))) c

end Sys2Proof.Machine
end

