-- ==== Sys2Proof/Machine/Items.lean ====
section
/-! DEFINITION. Work items (R176–R181, R376–R382): staging, item bodies, the dispatch queues with their holds (R867), and the images that items run. -/

namespace Sys2Proof.Machine

/-! ## The bytes of an item (R181, R380) -/

/-- The 96 bytes of a dispatch area or TAKE buffer (R181). -/
def Item.bytes (i : Item) : List Byte :=
  leBytes 8 i.seq ++ leBytes 4 i.handle ++ leBytes 1 i.source ++ leBytes 1 i.port ++ leBytes 2 0 ++ leBytes 4 i.origin ++ leBytes 4 0 ++
  leBytes 8 i.route ++ vecBytes i.body

/-- ROUTE (R380). -/
def routeOf (a strip stripe stage : Nat) : Nat := a + strip * 2 ^ 4 + stripe % 2 ^ 36 * 2 ^ 9 + stage * 2 ^ 45

def Item.strip (i : Item) : Nat := bits i.route 4 5
def Item.stripe (i : Item) : Nat := bits i.route 9 36
/-- STG address of the item header. -/
def Item.stage (i : Item) : Nat := 64 * bits i.route 45 19

/-- `n` bytes of ITEM from offset `o`, as a number. -/
def Item.field (i : Item) (o n : Nat) : Nat := bits i.body.toNat (8 * o) (8 * n)

/-- The vector of bytes at offsets, the rest 0. -/
def bodyOf (fs : List (Nat × List Byte)) : BitVec 512 := BitVec.ofNat 512 (ofLe (layout 64 fs))

/-! ## Items in the machine -/

/-- Items of an engine: queued, and taken by its program and not completed. -/
def Engine.items (x : Engine) : List Item := x.queue ++ match x.run with | some r => r.taken | none => []

/-- Some item of the machine has a property. -/
def Chip.anyItem (c : Chip) (p : Item → Bool) : Bool := c.engines.any fun e => e.2.items.any p

/-- A firmware service of an array has an item outstanding. -/
def Chip.serviceOut (c : Chip) (code a : Nat) : Bool := c.anyItem fun i => i.source == 3 && i.origin == code && i.array == a

/-- The image that an item of a slot runs by its ADM_SEQ (R255); admission order compares by signed difference. -/
def Slot.imageAt (s : Slot) (seq : Nat) : Option Image :=
  match s.cur with
  | some i => if 0 < timeDiff seq i.loadSeq ∨ i.loadSeq = 0 then some i else s.old
  | none => s.old

/-- The image and entry that an item runs; none for an empty slot or an entry point beyond ENTRY_COUNT (R241). -/
def Chip.imageOf (c : Chip) (e slot ep seq : Nat) : Option Image :=
  ((c.slot e slot).imageAt seq).filter fun i => decide (ep < i.entries.length)

/-- Proven count of an entry. -/
def Image.count (i : Image) (ep : Nat) : Nat := (i.entries.getD ep (0, 0)).2

/-! ## Stripe staging (R34 pool 1, R380, R381) -/

/-- Whole 4 KiB blocks of `n` bytes. -/
def stgBlocks (n : Nat) : Nat := (n + 4095) / 4096

/-- First block and blocks of the staging that engine `e`'s items hold, within its 2 MiB share. -/
def Chip.stgHeld (c : Chip) (e : Nat) : List (Nat × Nat) :=
  ((c.eng e).items.filter fun i => decide (0 < i.room)).map fun i => ((i.stage - e * 0x200000) / 4096, stgBlocks i.room)

/-- Where `n` bytes of staging may start in engine `e`'s share: any free run of blocks. -/
def Chip.stgFree (c : Chip) (e n : Nat) : List Nat :=
  let held := c.stgHeld e
  let k := stgBlocks n
  (List.range 512).filter fun b => decide (b + k ≤ 512) && held.all fun h => decide (b + k ≤ h.1) || decide (h.1 + h.2 ≤ b)

/-- Staging for an item of engine `e`, at a free place of its share (log entry 4); none while there is no room. -/
def Chip.allocStg (c : Chip) (e n : Nat) : Option Nat × Chip :=
  match c.choose (c.stgFree e n) with
  | (some b, c) => (some (e * 0x200000 + 4096 * b), c.grant 1 (stgBlocks n))
  | (none, c) => (none, c)

/-! ## Dispatch queues (R178–R180, R867) -/

/-- Put an item in ascending ADM_SEQ order, behind those of equal ADM_SEQ (R378). -/
def insertItem (i : Item) : List Item → List Item
  | [] => [i]
  | x :: r => if 0 < timeDiff x.seq i.seq then i :: x :: r else x :: insertItem i r

/-- A handle that no other item has, never 0. -/
def Chip.takeHandle (c : Chip) : Nat × Chip := (c.nextHandle, { c with nextHandle := if c.nextHandle + 1 = 2 ^ 32 then 1 else c.nextHandle + 1 })

/-- An item enters the dispatch queue of engine `e`, which pulses line 0x40 + e (R219) and requests the engine's units (R809). -/
def Chip.enqueue (c : Chip) (e : Nat) (i : Item) : Chip :=
  let (h, c) := c.takeHandle
  ((c.modEng e fun x => { x with queue := insertItem { i with handle := h } x.queue }).pulse (0x40 + e)).request (seUnits e)

/-- A write-class item (R867). -/
def Item.writeClass (i : Item) : Bool :=
  match i.source with
  | 0 => i.body.toNat % 256 == 0x81
  | 1 => i.twr.isNone && (i.field 0 1 == 1 || i.field 0 1 == 2)
  | 2 => true
  | _ => i.origin != 1 && i.origin != 10

/-- A DESTAGE item. -/
def Item.isDestage (i : Item) : Bool := i.source == 3 && i.origin == 1

/-- The engines hold the item unstarted (R867). -/
def Chip.isHeld (c : Chip) (i : Item) : Bool :=
  i.writeClass && (c.cache.overPlan || !c.vault.armed || (c.cache.pairQ != 0 && decide (c.ringFree i.array < 0x100000)))

/-- The next item of a dispatch queue: its first, or past a held one the first DESTAGE item (R179). -/
def Chip.nextItem (c : Chip) (e : Nat) : Option Item :=
  match (c.eng e).queue with
  | [] => none
  | i :: r => if c.isHeld i then r.find? Item.isDestage else some i

/-- Remove the item with a handle from a queue. -/
def Engine.unqueue (x : Engine) (handle : Nat) : Engine := { x with queue := x.queue.filter fun i => i.handle != handle }

/-! ## The ingest calendar (R476, R605, R606) -/

/-- Cycles of the 1.6 GHz clock until the earliest interval reserved for engine `e` begins: 0 inside one, none when none is ahead. -/
def Chip.gapBefore (c : Chip) (e : Nat) : Option Nat :=
  (c.wins.filter fun w => w.2.live && w.2.reserved.contains e).foldl (fun m w =>
    let now := c.nowNs
    if timeDiff w.2.resTo now ≤ 0 then m
    else
      let n := if timeDiff w.2.resFrom now ≤ 0 then 0 else (timeDiff w.2.resFrom now).toNat * 1600 / 1000
      match m with | some k => some (min k n) | none => some n) none

/-- Cycles that the engine has yet to spend, at most: what is left of the running entry's proven count, and the counts of the queue. -/
def Chip.ahead (c : Chip) (e : Nat) : Nat :=
  let x := c.eng e
  let run := match x.run with | some r => r.image.count r.ep - (c.tmb.up - r.started) * 1600 / 65536000 | none => 0
  x.queue.foldl (fun n i => n + match c.imageOf e i.slot i.ep i.seq with | some m => m.count i.ep | none => 0) run

/-- An item of `cost` cycles may be admitted to engine `e` (R606). -/
def Chip.fits (c : Chip) (e cost : Nat) : Bool := match c.gapBefore e with | some n => decide (c.ahead e + cost < n) | none => true

/-- The gap before the next ingest window is at least `cost` (R476). -/
def Chip.gapOk (c : Chip) (e cost : Nat) : Bool := match c.gapBefore e with | some n => decide (cost ≤ n) | none => true

/-! ## From a volume range to items (R376–R381) -/

/-- One part of a command: its stripe, strip, offset, bytes, and its place in the command's data. -/
structure Part where
  stripe : Nat
  strip : Nat
  off : Nat
  len : Nat
  at0 : Nat
deriving DecidableEq, Repr

/-- The parts of `n` bytes at byte `x` of an array's data space, cut at strip boundaries; `k` bytes come before them. -/
def RaidArray.parts (a : RaidArray) : Nat → Nat → Nat → Nat → List Part
  | 0, _, _, _ => []
  | fuel + 1, x, n, k =>
    if n = 0 then []
    else
      let S := a.stripBytes
      let D := (a.geomAt x).dataBytes S
      if D = 0 then []
      else
        let m := min n (S - x % S)
        ⟨x / D, x % D / S, x % S, m, k⟩ :: a.parts fuel (x + m) (n - m) (k + m)

/-- Byte of the data space at which a volume starts. -/
def Chip.volBase (c : Chip) (v : Nat) : Nat :=
  let a := c.arr (c.vol v).array
  (c.vol v).first * (match a.reshape with | some r => r.old.dataBytes a.stripBytes | none => a.dataBytes)

/-- Bytes of a volume. -/
def Chip.volBytes (c : Chip) (v : Nat) : Nat :=
  let a := c.arr (c.vol v).array
  (c.vol v).count * (match a.reshape with | some r => r.old.dataBytes a.stripBytes | none => a.dataBytes)

/-- The parts of bytes `[b, b + n)` of a volume. -/
def Chip.volParts (c : Chip) (v b n : Nat) : List Part :=
  let a := c.arr (c.vol v).array
  a.parts (n / 512 + 2) (c.volBase v + b) n 0

/-- Every part of a stripe is whole: the command covers every byte of its data strips (R381 FULL). -/
def fullStripe (d S : Nat) (ps : List Part) (s : Nat) : Bool :=
  ((ps.filter fun p => p.stripe == s).map (·.len)).sum == d * S

/-- The item header of R381. -/
def headerBytes (p : Part) (vol : Nat) (big first last full : Bool) (parts reftag apptag : Nat) : List Byte :=
  layout 64 [(0, leBytes 4 p.off), (4, leBytes 4 p.len), (8, leBytes 1 vol), (9, leBytes 1 (b2n big)),
    (0xA, leBytes 1 (b2n first + 2 * b2n last + 4 * b2n full)), (0xB, leBytes 1 parts), (0xC, leBytes 4 reftag), (0x10, leBytes 2 apptag)]

/-- The pieces of the header that a program reads back from staging. -/
def Chip.header (c : Chip) (i : Item) (o n : Nat) : Nat := ofLe (mread zeros c.stg (i.stage + o) n)

/-- The item is part of a full-stripe write. -/
def Chip.isFull (c : Chip) (i : Item) : Bool := bitAt (c.header i 0xA 1) 2

end Sys2Proof.Machine
end

