-- ==== Sys2Proof/Machine/Progress.lean ====
section
/-! DEFINITION. How background work moves on (10, 11): what the completion of a pass, scrub, reshape, format, sanitise, retirement or resynchronisation item
advances, with its PROGRESS records, checkpoints and events. -/

namespace Sys2Proof.Machine

/-- Stripes in 64 MiB and 1 GiB of an array's data space (R514, R516), at least 1. -/
def RaidArray.unit64M (a : RaidArray) : Nat := max 1 (0x4000000 / a.dataBytes)
def RaidArray.unit1G (a : RaidArray) : Nat := max 1 (0x40000000 / a.dataBytes)

/-- A mark moved from `m` to `m + 1`: PROGRESS at 64 MiB, checkpoint at 1 GiB. -/
def Chip.markRecords (c : Chip) (a kind phase m seq : Nat) : Chip :=
  let r := c.arr a
  let c := if crossed r.unit64M m (m + 1) then c.progress a kind phase 0 (m + 1) seq else c
  if crossed r.unit1G m (m + 1) then c.writeCheckpoint a else c

/-! ## Passes (R483, R492–R494) -/

/-- Strips whose target holder is none (R494). -/
def Chip.countUncovered (c : Chip) (a : Nat) (target : List Nat) : Nat :=
  let r := c.arr a
  ((List.range r.stripes).map fun s => ((List.range r.geom.w).filter fun i => (holder target r.geom s i).isNone).length).sum

/-- What a position is once its pass has ended (R481, R483). -/
def Position.afterPass (p : Position) : Position :=
  if p.state ≠ .rebuilding then p
  else if p.toRepl then { p with state := .inService, toRepl := false, slot := none } else { p with state := .onSpare }

/-- The pass ends: positions take their next states, slots are released, code 5 is posted, a checkpoint is written. A position that still waits for a slot
takes one that was released (R482). -/
def Chip.passEnd (c : Chip) (a seq : Nat) : Chip :=
  match (c.arr a).pass with
  | none => c
  | some p =>
    let u := c.countUncovered a p.target
    let moved := (List.range (c.arr a).pos.length).filter fun y => ((c.arr a).pos[y]?).any fun q => q.state == .rebuilding
    let c := c.modArr a fun r => { r with pass := none, uncovered := min (2 ^ 32 - 1) u }
    let c := moved.foldl (fun c y => c.setPos a y seq Position.afterPass) c
    let c := (c.arrayEvent a 5 0x3F u seq).writeCheckpoint a
    let c := match (c.arr a).reshape with
      | some r => if r.paused ∧ (c.arr a).stateCode = 1 then c.modArr a fun x => { x with reshape := some { r with paused := false, pausing := false, pauser := 0x3F } } else c
      | none => c
    match (List.range (c.arr a).pos.length).find? fun y => ((c.arr a).pos[y]?).any fun q => q.state == .unavailable && q.slot.isNone with
    | some y => c.assignSpare a y seq
    | none => c

/-- The first stripe at or after `s` that the pass's phase visits; none past the last. -/
def Pass.nextStripe (p : Pass) (g : Geom) (stripes s : Nat) : Option Nat :=
  ((List.range (stripes - s)).map (· + s)).find? fun x => p.main || p.critical g x

/-- The chunk of a pass item is done; after a stripe's last chunk MARK moves on, and the phase or the pass ends (R485, R493). -/
def Chip.passNext (c : Chip) (a seq : Nat) : Chip :=
  let r := c.arr a
  match r.pass with
  | none => c
  | some p =>
    if p.chunk + 1 < chunksOf r.stripBytes then c.modArr a fun r => { r with pass := some { p with chunk := p.chunk + 1 } }
    else
      let m := p.mark
      let c := c.modArr a fun r => { r with pass := some { p with chunk := 0, mark := m + 1 } }
      c.markRecords a 1 (b2n p.main) m seq

/-- A phase with no stripe left to visit ends: the critical phase gives way to the main one, the main phase ends the pass. -/
def Chip.passPhase (c : Chip) (a seq : Nat) : Chip :=
  let r := c.arr a
  match r.pass with
  | none => c
  | some p => match p.nextStripe r.geom r.stripes p.mark with
    | some s => if s = p.mark then c else c.modArr a fun r => { r with pass := some { p with mark := s, chunk := 0 } }
    | none =>
      if p.main then c.passEnd a seq
      else
        let c := c.modArr a fun r => { r with pass := some { p with main := true, mark := 0, chunk := 0 } }
        (c.progress a 1 1 0 0 seq).writeCheckpoint a

/-! ## Scrub (R495, R498) -/

/-- The scrub pass ends (R521 code 6). -/
def Chip.scrubEnd (c : Chip) (a seq : Nat) : Chip :=
  match (c.arr a).scrub with
  | none => c
  | some s =>
    let c := c.modArr a fun r => { r with scrub := none }
    (c.arrayEvent a 6 0x3F s.fixed seq).writeCheckpoint a

/-- The chunk of a scrub item is done. -/
def Chip.scrubNext (c : Chip) (a seq : Nat) : Chip :=
  let r := c.arr a
  match r.scrub with
  | none => c
  | some s =>
    if s.chunk + 1 < chunksOf r.stripBytes then c.modArr a fun r => { r with scrub := some { s with chunk := s.chunk + 1 } }
    else
      let c := c.modArr a fun r => { r with scrub := some { s with chunk := 0, mark := s.mark + 1 } }
      let c := c.markRecords a 2 0 s.mark seq
      if r.stripes ≤ s.mark + 1 then c.scrubEnd a seq else c

/-- A scrub pass begins at stripe 0 (R495, R516). -/
def Chip.scrubStart (c : Chip) (a : Nat) : Chip :=
  let now := c.nowNs
  (c.modArr a fun r => { r with scrub := some { start := now }, lastScrub := some now }).writeCheckpoint a

/-! ## Reshape (R502, R509, R510, R512) -/

/-- The end of the data space in bytes: past the highest volume. -/
def Chip.dataEnd (c : Chip) (a : Nat) : Nat :=
  c.volumes.foldl (fun m v => if v.2.state ≠ .none ∧ v.2.array = a then max m (c.volBase v.1 + c.volBytes v.1) else m) 0

/-- Rows of the new geometry that the data fills. -/
def Chip.reshapeRows (c : Chip) (a : Nat) : Nat :=
  match (c.arr a).reshape with
  | some r => let E := r.new.rowBytes (c.arr a).stripBytes; if E = 0 then 0 else (c.dataEnd a + E - 1) / E
  | none => 0

/-- The reshape ends: superblocks and volumes take the new geometry (R512). -/
def Chip.reshapeEnd (c : Chip) (a seq : Nat) : Chip :=
  match (c.arr a).reshape with
  | none => c
  | some r =>
    let S := (c.arr a).stripBytes
    let dOld := r.old.dataBytes S
    let dNew := max 1 (r.new.dataBytes S)
    let vs := (c.volumes.filter fun v => v.2.state != .none && v.2.array == a).map (·.1)
    let c := c.modArr a fun x => { x with geom := r.new, reshape := none }
    let c := vs.foldl (fun c v => c.volUpdate v fun x => { x with first := x.first * dOld / dNew, count := x.count * dOld / dNew }) c
    ((c.superUpdate a).arrayEvent a 8 0x3F 0 seq).writeCheckpoint a

/-- Every item of a step has completed: SELVEDGE moves over the row, PROGRESS is appended, and the reshape pauses or ends where it must. -/
def Chip.reshapeStepDone (c : Chip) (a seq : Nat) : Chip :=
  let r0 := c.arr a
  match r0.reshape with
  | none => c
  | some r =>
    let S := r0.stripBytes
    let E := r.new.rowBytes S
    let up := r.ascending S
    let sel := (if up then (r.row + 1) * E else r.row * E) / S
    let old := r.selvedge * S
    let row := if up then r.row + 1 else r.row - 1
    let last := if up then decide (c.reshapeRows a ≤ r.row + 1) else r.row == 0
    let r := { r with stepping := false, left := 0, selvedge := sel, row := row, paused := r.paused || r.pausing }
    let c := c.modArr a fun x => { x with reshape := some r }
    let c := c.progress a 3 0 0 sel seq
    let c := if crossed 0x40000000 old (sel * S) then (c.writeCheckpoint a).arrayEvent a 7 0x3F (sel * S / 0x40000000) seq else c
    if last then c.reshapeEnd a seq
    else if r.pausing then
      let c := c.modArr a fun x => { x with reshape := some { r with pausing := false } }
      (c.arrayEvent a 9 r.pauser r.pauser seq).writeCheckpoint a
    else c

/-- One item of the running step completed (R505, R509). -/
def Chip.reshapeItemDone (c : Chip) (a seq : Nat) : Chip :=
  match (c.arr a).reshape with
  | none => c
  | some r =>
    if r.left ≤ 1 then c.reshapeStepDone a seq
    else c.modArr a fun x => { x with reshape := some { r with left := r.left - 1 } }

/-! ## Format and sanitise (R539, R540, R542, R544) -/

/-- A PROGRESS event of a volume (R544): format is 1, sanitise 2. -/
def Chip.progressEvent (c : Chip) (id : Nat) (member : Bool) (what data seq : Nat) : Chip :=
  c.raise { type := 6, info := id + 2 ^ 8 * b2n member + 2 ^ 9 * what, data := data, seq := seq }

/-- The zeroing of spare columns that no position holds, in every row with a stripe of the volume (R540). -/
def Chip.zeroSpares (c : Chip) (v : Nat) : Chip :=
  let x := c.vol v
  let a := x.array
  let r := c.arr a
  let g := r.geom
  let S := r.stripBytes
  let rows := if g.q = 0 ∨ x.count = 0 then [] else (List.range ((x.first + x.count - 1) / g.q + 1 - x.first / g.q)).map (· + x.first / g.q)
  let heldSlots := r.pos.filterMap (·.slot)
  let cols := (List.range (g.n - g.q * g.w)).filter fun f => !heldSlots.contains f
  rows.foldl (fun c row => cols.foldl (fun c f =>
    let y := columnPos g.n (g.q * g.w + f) row
    if c.writable a y then c.posWrite a y (stripOff S row 0) (List.replicate S 0) else c) c) c

/-- The vault slot that is not armed begins its erase; the current image is gone until the next dump or clean stop (R540). -/
def Chip.eraseOther (c : Chip) : Chip :=
  let v := c.vault
  let s := !v.armedSlot
  { c with vault := { v.setSlot s none with erasing := some s, current := none } }

/-- One stripe of a format or sanitise is done. -/
def Chip.formatNext (c : Chip) (v seq : Nat) : Chip :=
  let x := c.vol v
  if x.state ≠ .formatting ∧ x.state ≠ .sanitizing then c
  else
    let n := x.cursor + 1
    let what := if x.state = .formatting then 1 else 2
    let c := c.modVol v fun y => { y with cursor := n }
    let c := if crossed (c.arr x.array).unit1G (n - 1) n then
        let c := c.progress x.array (what + 3) 0 v n seq
        let c := c.volUpdate v fun y => { y with mark := n }
        let c := c.modArr x.array fun r => { r with progressLive := r.progressLive.dropLast }
        c.progressEvent v false what (n * 1000 / max 1 x.count) seq
      else c
    if n < x.count then c
    else
      let c := if x.state = .sanitizing then (c.zeroSpares v).eraseOther else c
      let c := c.volUpdate v fun y => { y with state := .ready, mark := 0, cursor := 0 }
      c.progressEvent v false what 1000 seq

/-! ## Retirement and resynchronisation (R568, R468, R470) -/

/-- The retirement copy moves to the next row. -/
def Chip.retireNext (c : Chip) (a : Nat) : Chip :=
  c.modArr a fun r => { r with retire := r.retire.map fun t => { t with row := t.row + 1 } }

/-- A VAULT event of an array (R471). -/
def Chip.vaultEvent (c : Chip) (code a data : Nat) : Chip := c.happen 0xD (code + 16 * a) data

/-- Stripes of an array not yet resynchronised. -/
def RaidArray.resyncLeft (a : RaidArray) : Nat :=
  match a.resync with
  | some r => (a.stripes - r.mark) + (r.first.filter fun s => decide (s < r.mark) && !r.done.contains s).length -
      (r.done.filter fun s => decide (r.mark ≤ s)).length
  | none => 0

/-- A stripe has P and Q again (R468, R469); the last one ends the resynchronisation (R470). -/
def Chip.resyncDone (c : Chip) (a s : Nat) : Chip :=
  match (c.arr a).resync with
  | none => c
  | some r =>
    let c := c.modArr a fun x => { x with resync := some { r with done := if r.done.contains s then r.done else s :: r.done } }
    if (c.arr a).resyncLeft = 0 then (c.modArr a fun x => { x with resync := none }).vaultEvent 5 a 0 else c

/-- The mark of the ascending rest passes the stripes that are done. -/
def Resync.advance : Nat → Resync → Resync
  | 0, r => r
  | n + 1, r => if r.done.contains r.mark then Resync.advance n { r with mark := r.mark + 1 } else r

end Sys2Proof.Machine
end

