-- ==== Sys2Proof/Machine/Triggers.lean ====
section
/-! DEFINITION. Queue pairs, windows and triggered work (R623–R625, R633–R635, R657–R662): what both the packets and the completion of items act on. -/

namespace Sys2Proof.Machine

/-! ## Queue pairs -/

/-- Queue pair `n`, where it exists. -/
def Chip.qp (c : Chip) (n : Nat) : Option Qp := tget c.rma.qps none n
def Chip.setQp (c : Chip) (n : Nat) (q : Option Qp) : Chip := { c with rma := { c.rma with qps := tput c.rma.qps none n q } }
def Chip.modQp (c : Chip) (n : Nat) (f : Qp → Qp) : Chip := match c.qp n with | some q => c.setQp n (some (f q)) | none => c

/-- Window-table entry `i`. -/
def Chip.rmaWin (c : Chip) (i : Nat) : RmaWin := tget c.rma.wins {} i
def Chip.setRmaWin (c : Chip) (i : Nat) (w : RmaWin) : Chip := { c with rma := { c.rma with wins := tput c.rma.wins {} i w } }

/-- Triggered work request `i`. -/
def Chip.twr (c : Chip) (i : Nat) : Twr := tget c.rma.twrs {} i
def Chip.setTwr (c : Chip) (i : Nat) (t : Twr) : Chip := { c with rma := { c.rma with twrs := tput c.rma.twrs {} i t } }

/-- Path MTU in bytes of a queue pair: IBTA codes 3, 4 and 5. -/
def Qp.mtu (q : Qp) : Nat := 128 * 2 ^ q.pmtu

/-- A WINDOW event (R666). -/
def Chip.windowEvent (c : Chip) (code reason data : Nat) : Chip := c.happen 0xC (code + 16 * reason) data

/-- The STATE message that mirrors a change of remote-memory state (R655). -/
def Chip.mirrorState (c : Chip) : Chip := c.toPartner { cls := 7, prio := 3 }

/-- The traffic class that a priority code point maps to on a port. -/
def Chip.classOf (c : Chip) (p pcp : Nat) : Nat := c.eff (recTrd p) 0x104 (4 * pcp)

/-- The shapers of a port take their idle slopes since the latest update; the credit of a class with nothing to send does not pass 0 (802.1Qav). -/
def Chip.accrue (c : Chip) (p : Nat) : Chip :=
  let x := c.port p
  let dt := (timeDiff c.nowNs x.creditAt).toNat
  let credit : Tab Int := (List.range 8).foldl (fun t tc =>
    let v : Int := tget x.credit 0 tc + dt * c.eff (recTrd p) (0x140 + 4 * tc) 0
    tput t 0 tc (if x.queue.any (fun f => f.tc == tc) then v else min 0 v)) []
  c.setPort p { x with credit := credit, creditAt := c.nowNs }

/-- A frame joins the queue of a class of a port. -/
def Chip.queueFrame (c : Chip) (p tc : Nat) (k : TxKind) (bytes : Nat) : Chip :=
  (c.accrue p).modPort p fun x => { x with queue := x.queue ++ [⟨tc, k, bytes⟩] }

/-- A frame of a queue pair: its class follows its PCP. -/
def Chip.qpFrame (c : Chip) (n : Nat) (k : TxKind) (bytes : Nat) : Chip :=
  match c.qp n with
  | some q => c.queueFrame q.port (c.classOf q.port q.conn.pcp) k bytes
  | none => c

/-! ## Key checks (R633, R635 step 7) -/

/-- A key names a VALID window of this protection domain with the rights, and the range lies inside it. -/
def Chip.keyOk (c : Chip) (key pd rights off len : Nat) (sealed : Bool) : Bool :=
  let w := c.rmaWin (key / 4096)
  w.state == .valid && w.tag == key % 4096 && w.pd == pd && (w.access &&& rights) == rights && decide (off + len ≤ w.size) &&
  (!bitAt w.access 3 || sealed)

/-- Bytes of an HBM window. -/
def Chip.winRead (c : Chip) (key off n : Nat) : List Byte := mread hbmInit c.hbm ((c.rmaWin (key / 4096)).base + off) n
def Chip.winWrite (c : Chip) (key off : Nat) (l : List Byte) : Chip := c.hbmWrite ((c.rmaWin (key / 4096)).base + off) l

/-! ## Triggered work (R657–R662) -/

/-- `n` bytes of a descriptor from offset `o`, as a number. -/
def Twr.f (t : Twr) (o n : Nat) : Nat := bits t.desc.toNat (8 * o) (8 * n)
def Twr.action (t : Twr) : Nat := t.f 1 1
def Twr.trigQp (t : Twr) : Nat := t.f 4 4 % 2 ^ 18
def Twr.outQp (t : Twr) : Nat := t.f 0x10 4 % 2 ^ 18
def Twr.onCompl (t : Twr) : Bool := bitAt (t.f 2 1) 5

/-- The counter of a queue pair that a request waits on. -/
def Chip.twrCounter (c : Chip) (t : Twr) : Nat :=
  match c.qp t.trigQp with
  | some q => if t.onCompl then q.complCount else q.recvCount
  | none => 0

/-- An ARMED request whose counter has reached THRESHOLD, by signed 64-bit difference (R658). -/
def Chip.twrDue (c : Chip) (t : Twr) : Bool := t.state == 1 && decide (0 ≤ toSigned 64 (c.twrCounter t + 2 ^ 64 - t.f 8 8))

/-- A request ends in ERROR (R660, R661). -/
def Chip.twrError (c : Chip) (i reason : Nat) : Chip :=
  ((c.setTwr i { c.twr i with state := 4 }).mirrorState).windowEvent 4 reason i

/-- A request is DONE: its OUT_QP's COMPL_COUNT advances, and its line pulses with PULSE set (R661). The requests that this makes due fire with the step
that called it. -/
def Chip.twrDone (c : Chip) (i : Nat) : Chip :=
  let t := c.twr i
  let c := (c.setTwr i { t with state := 3 }).mirrorState
  let c := c.modQp t.outQp fun q => { q with complCount := (q.complCount + 1) % 2 ^ 64 }
  if bitAt (t.f 2 1) 4 then c.pulse (0x70 + t.f 2 1 % 16) else c

/-- The local window of an action passes its check: a source needs read, a destination write; key 0 names none where no byte is read (R657, R660). -/
def Chip.twrKeysOk (c : Chip) (t : Twr) : Bool :=
  let pd := match c.qp t.outQp with | some q => q.pd | none => 0x10000
  let sealed := match c.qp t.outQp with | some q => q.sealing | none => false
  let lk := t.f 0x14 4
  let off := t.f 0x18 8
  let len := t.f 0x2C 4
  let hbm (k : Nat) : Bool := !(c.rmaWin (k / 4096)).volumeType
  match t.action with
  | 1 | 2 => (lk == 0 && len == 0) || (hbm lk && c.keyOk lk pd 1 off len sealed)
  | 3 => lk == 0 || (hbm lk && c.keyOk lk pd 2 off len sealed)
  | 4 | 5 => lk == 0 || (hbm lk && c.keyOk lk pd 2 off 8 sealed)
  | 6 => (lk == 0 || (hbm lk && c.keyOk lk pd 1 off len sealed)) &&
    (t.f 0x28 4 == 0 || (hbm (t.f 0x28 4) && c.keyOk (t.f 0x28 4) pd 2 (t.f 0x20 8) len sealed))
  | _ => true

/-- PSNs that an action takes: a READ takes one for each response packet. -/
def Qp.psns (q : Qp) (action len : Nat) : Nat := if action = 4 ∨ action = 5 then 1 else max 1 ((len + q.mtu - 1) / q.mtu)

/-- A request of triggered work is queued on OUT_QP (R658). -/
def Chip.twrSend (c : Chip) (i : Nat) : Chip :=
  let t := c.twr i
  match c.qp t.outQp with
  | none => c.twrError i 2
  | some q =>
    if q.state ≠ .rts then c.twrError i 2
    else
      let len := t.f 0x2C 4
      let data := if t.action = 1 ∨ t.action = 2 then c.winRead (t.f 0x14 4) (t.f 0x18 8) len else []
      let k : TxKind := .rmaRequest t.outQp q.sqPsn t.action (t.f 0x20 8) (t.f 0x28 4) len (t.f 0x30 8) (t.f 0x38 8) data
      let c := c.modQp t.outQp fun q => { q with sqPsn := (q.sqPsn + q.psns t.action len) % 2 ^ 24, outs := q.outs ++ [⟨i, q.sqPsn⟩] }
      c.qpFrame t.outQp k data.length

/-- The item of a PROGRAM action: the descriptor with LOCAL_OFF and REMOTE_ADDR resolved to HBM addresses (R662). -/
def Chip.twrItem (c : Chip) (i seq : Nat) : Item :=
  let t := c.twr i
  let lk := t.f 0x14 4
  let rk := t.f 0x28 4
  let la := (if lk = 0 then 0 else (c.rmaWin (lk / 4096)).base) + t.f 0x18 8
  let ra := (if rk = 0 then 0 else (c.rmaWin (rk / 4096)).base) + t.f 0x20 8
  let raw := (List.range 64).map fun o => BitVec.ofNat 8 (t.f o 1)
  let body := raw.take 0x18 ++ leBytes 8 la ++ leBytes 8 ra ++ raw.drop 0x28
  { seq := seq, handle := 0, source := 1, port := match c.qp t.outQp with | some q => q.port | none => 0, origin := t.outQp, body := BitVec.ofNat 512 (ofLe body),
    slot := t.f 3 1 % 8, ep := t.f 3 1 / 16, twr := some i }

/-- A due request fires at an admission place (R658–R662). -/
def Chip.twrFire (c : Chip) (i seq : Nat) : Chip :=
  let c := (c.setTwr i { c.twr i with state := 2, firedAt := seq }).mirrorState
  let t := c.twr i
  if !c.twrKeysOk t then c.twrError i 1
  else match t.action with
    | 7 => c.twrDone i
    | 6 =>
      let it := c.twrItem i seq
      if (c.imageOf (i % 16) it.slot it.ep seq).isNone then c.twrError i 3 else c.enqueue (i % 16) it
    | _ => c.twrSend i

/-- Every due request fires in ascending entry number, and those that their counters make due after them. -/
def Chip.fireAll (c : Chip) (seq : Nat) : Nat → Chip
  | 0 => c
  | n + 1 =>
    match (c.rma.twrs.filter fun t => c.twrDue t.2).map (·.1) with
    | [] => c
    | l => (l.foldl (fun c i => c.twrFire i seq) c).fireAll seq n

/-- The requests that a counter's step made due fire (R658). Each of the 65,536 entries fires at most once. -/
def Chip.fireTwrs (c : Chip) (seq : Nat) : Chip := c.fireAll seq 65537

/-- A queue pair enters ERROR: the event of R625, and the end of its outstanding requests (R661). -/
def Chip.qpError (c : Chip) (n reason : Nat) : Chip :=
  match c.qp n with
  | none => c
  | some q =>
    if q.state ≠ .rts then c
    else
      let outs := q.outs
      let c := (c.setQp n (some { q with state := .error, outs := [], tries := 0 })).windowEvent 3 reason n
      outs.foldl (fun c o => c.twrError o.entry 2) c

/-- The item of a PROGRAM ends its request: ST_OK gives DONE, any other status ERROR (R661). -/
def Chip.twrItemDone (c : Chip) (i code seq : Nat) : Chip :=
  if (c.twr i).state ≠ 2 then c else if code = 0 then (c.twrDone i).fireTwrs seq else c.twrError i 3

end Sys2Proof.Machine
end

