-- ==== Sys2Proof/Machine/Complete.lean ====
section
/-! DEFINITION. The completion of items by their source (R193, R230, R382, R609–R613, R661), the faults of engines (R227, R230–R233), and how an item comes
to an engine or fails at once (R241). -/

namespace Sys2Proof.Machine

/-- A worst status so far, kept for the lowest part (R382). -/
def worse (old : Option (Nat × Nat × Nat)) (part code detail : Nat) : Option (Nat × Nat × Nat) :=
  if code = 0 then old
  else match old with
    | some (p, c, d) => if part < p then some (part, code, detail) else some (p, c, d)
    | none => some (part, code, detail)

/-- The status of a command whose items have all completed (R382). -/
def statusOf (w : Option (Nat × Nat × Nat)) : Nat × Nat := match w with | some (_, c, d) => (c, d) | none => (stOk, 0)

/-! ## Host entries (R382) -/

/-- One item of a host entry completed. -/
def Chip.hostItemDone (c : Chip) (i : Item) (code detail : Nat) : Chip :=
  let f := 64 * i.port + i.origin % 64
  let g := bits i.origin 6 8 + 1
  c.modAdm f g i.pos fun a =>
    let a := { a with left := a.left - 1, worst := worse a.worst i.part code detail }
    if a.left = 0 ∧ a.status.isNone then { a with status := some (statusOf a.worst) } else a

/-! ## Remote memory (R642) -/

/-- One item of an admitted message completed. -/
def Chip.rmaItemDone (c : Chip) (i : Item) (code detail : Nat) : Chip :=
  match i.twr with
  | some t => c.twrItemDone t code c.nextPlace
  | none => c.modQp i.origin fun q => { q with msgs := q.msgs.map fun m =>
      if m.seq = i.seq then { m with left := m.left - 1, worst := worse m.worst i.part code detail } else m }

/-! ## Ingest windows (R609–R613, R617) -/

/-- Ingest window `x` of the state. -/
def Chip.win (c : Chip) (x : Nat) : WinState := tget c.wins {} x
def Chip.setWin (c : Chip) (x : Nat) (w : WinState) : Chip := { c with wins := tput c.wins {} x w }
def Chip.modWin (c : Chip) (x : Nat) (f : WinState → WinState) : Chip := c.setWin x (f (c.win x))

/-- A field of an effective window record. -/
def Chip.winF (c : Chip) (x off lsb : Nat) : Nat := c.eff 81 (winOff x + off) lsb

/-- MARK moves over the frame indices that have completed (R610). -/
def WinState.advance : Nat → WinState → WinState
  | 0, w => w
  | n + 1, w =>
    let j := match w.mark with | some m => m + 1 | none => w.start
    match w.done.find? fun d => d.1 == j with
    | some d => WinState.advance n { w with mark := some j, markInfo := d.2, done := terase w.done j }
    | none => w

/-- MARK advanced: an acknowledgement is queued when none is (R613); a queued one takes its body as it leaves. -/
def Chip.queueAck (c : Chip) (x : Nat) : Chip :=
  if c.winF x 0 4 = 0 ∨ (c.win x).ackQueued then c
  else
    (c.modWin x fun w => { w with ackQueued := true }).queueFrame (c.winF x 1 0) (c.winF x 7 0) (.ack x) (70 + if c.winF x 7 4 = 0 then 0 else 6)

/-- An ingest item completed (R609, R610, R617). An item admitted before the window's latest restart leaves the window's marks alone (R611). -/
def Chip.ingestDone (c : Chip) (i : Item) (code landed : Nat) : Chip :=
  let x := i.origin
  if (c.win x).lap ≠ i.part then c
  else
    let late := code == 0 && i.field 0x20 8 != 0 && decide (0 < timeDiff landed (i.field 0x20 8 % 2 ^ 48))
    let (l, c) := if code = 0 then (landed, c) else c.fresh (2 ^ 48)
    let info : FrameDone := { landed := l, ingress := i.field 0x18 8 % 2 ^ 48, seq := i.seq }
    let old := (c.win x).mark
    let c := c.modWin x fun w =>
      let w := { w with done := tinsert (terase w.done (i.field 0 8)) (i.field 0 8) info
                        failed := if code = 0 then w.failed else satAdd 32 w.failed 1
                        late := if late then satAdd 32 w.late 1 else w.late }
      w.advance (w.done.length + 1)
    let c := if (c.win x).mark = old then c else (c.queueAck x).mirrorState
    if late then c.setCause 81 3 else c

/-! ## Firmware services (R866) -/

/-- A service item completed: what it covers moves on, except where the engine faulted or the unit was fenced. A reshape item that did not run goes back to
its engine, since its step waits for it (R509). -/
def Chip.serviceDone (c : Chip) (e : Nat) (i : Item) (code : Nat) : Chip :=
  let a := i.array
  let c := if i.origin = 1 then { c with cache := { c.cache with issued := c.cache.issued.filter (· != i.pos) } } else c
  if code = stEngineFault ∨ code = stFenced ∨ code = stNoProgram then
    if i.origin = 6 ∧ code ≠ stNoProgram then c.enqueue e i else c
  else match i.origin with
    | 2 => c.modArr a fun r => { r with repairs := r.repairs.filter fun x => !(x.1 == i.stripe && x.2.2 == i.field 1 1) }
    | 3 => c.passNext a i.seq
    | 4 => c.retireNext a
    | 5 => c.scrubNext a i.seq
    | 6 => c.reshapeItemDone a i.seq
    | 7 | 8 => c.formatNext i.pos i.seq
    | 9 => c.resyncDone a i.stripe
    | _ => c

/-! ## Completion -/

/-- An item completes with (code, DETAIL); `landed` is its landed time. Its staging and its packet-buffer cells return (R34, R602). -/
def Chip.completeItem (c : Chip) (e : Nat) (i : Item) (code detail landed : Nat) : Chip :=
  let c := (c.giveBack 1 (stgBlocks i.room)).giveBack 0 i.cells
  match i.source with
  | 0 => c.hostItemDone i code detail
  | 1 => c.rmaItemDone i code detail
  | 2 => c.ingestDone i code landed
  | _ => c.serviceDone e i code

/-- The DETAIL of a status that an engine or a stock program gives. -/
def Chip.detailOf (c : Chip) (e code : Nat) : Nat := if code = stEngineFault then e else if code = stFenced then c.par.role.code else 0

/-- An item goes to engine `e`, or completes with ST_NO_PROGRAM (R241). -/
def Chip.submit (c : Chip) (e : Nat) (i : Item) : Chip :=
  if (c.imageOf e i.slot i.ep i.seq).isNone then c.completeItem e i stNoProgram 0 c.nowNs else c.enqueue e i

/-! ## Engine faults (R224, R227, R230–R233) -/

/-- Fault codes. -/
def fIllegal : Nat := 1
def fAlign : Nat := 2
def fRange : Nat := 3
def fWriteProt : Nat := 4
def fLoop : Nat := 5
def fPc : Nat := 6
def fEcc : Nat := 7
def fWcet : Nat := 8
def fOpenEntry : Nat := 9
def fSoft : Nat := 10

/-- A fault of engine `e`: it stops, its registers record the fault, its taken items complete with ST_ENGINE_FAULT, a Treadle engine's port is idled, and
ENGINE_FAULT sets (R227, R230, R233, R581). -/
def Chip.engineFault (c : Chip) (e code soft word : Nat) : Chip :=
  let x := c.eng e
  let items := match x.run with | some r => r.taken | none => []
  let slot := match x.run with | some r => r.slot | none => x.faultSlot
  let c := c.setEng e { x with run := none, wait := none, anchor := none, actions := [], loops := [], haltPending := false, faulted := true,
                               faultCode := code, faultSlot := slot, faultPc := x.pc, faultWord := word, softCode := soft }
  let c := if e < 16 then items.foldl (fun c i => c.completeItem e i stEngineFault e c.nowNs) c
    else (c.idlePort (e - 16)).setTrd (e - 16) .faulted
  c.setCause (recEng e) 3

/-- The fault of a halted Shuttle chain reaches its engine: at once when idle, at the next instruction boundary otherwise (R356). -/
def Chip.haltEngine (c : Chip) (e : Nat) : Chip :=
  if (c.eng e).run.isNone then c.engineFault e fEcc 0 0 else c.modEng e fun x => { x with haltPending := true }

end Sys2Proof.Machine
end

