-- ==== Sys2Proof/Machine/Time.lean ====
section
/-! DEFINITION. The time base (03): the tick, offset measurements and the states of R105, re-epoch, the partner's time, PPS and timestamps. -/

namespace Sys2Proof.Machine

/-! ## The passing of time -/

/-- Units of 2^−16 ns in one period of 800 MHz. -/
def tickUnits : Nat := 81920

/-- One tick: schedule time advances by one period of the 800 MHz clock at the rate in effect, or in SIDING the always-on copy by one
period of the crystal (03, "Timekeeping in Siding"; log entry 2). -/
def tickOp (c : Chip) : Chip :=
  if c.pwr.state = .off then c
  else if c.pwr.state = .siding then
    { c with aon := { c.aon with copy := c.aon.copy + 2000000000 }, tmb := { c.tmb with up := c.tmb.up + 2000000000 } }
  else
    let extra : Int := c.tmb.rate * 81920 / 65536000000
    { c with tmb := { c.tmb with now := (c.tmb.now + (81920 + extra)).toNat, up := c.tmb.up + tickUnits } }

/-- Time passes until schedule time `t` ns, where it lies ahead by the signed difference (R102; log entry 6). -/
def Chip.passTo (c : Chip) (t : Nat) : Chip :=
  let d := timeDiff t c.nowNs
  if 0 < d then
    let n := d.toNat * 2 ^ 16 - c.tmb.now % 2 ^ 16
    { c with tmb := { c.tmb with now := c.tmb.now + n, up := c.tmb.up + n } }
  else c

/-- Time passes by `n` ns. -/
def Chip.pass (c : Chip) (n : Nat) : Chip :=
  { c with tmb := { c.tmb with now := c.tmb.now + n * 2 ^ 16, up := c.tmb.up + n * 2 ^ 16 } }

/-! ## TMB_TIME_STATE and its events (R857) -/

/-- VALID. -/
def Chip.timeValid (c : Chip) : Bool := c.tmb.state != .unset

/-- TMB_TIME_STATE. -/
def Chip.timeWord (c : Chip) : Nat :=
  let t := c.tmb
  b2n (t.state != .unset) + 2 * b2n (t.state == .locked) + 4 * b2n (t.state == .holdover) + 8 * b2n t.offsetLarge + 16 * b2n t.following +
  32 * b2n t.wakeExceeded + 64 * b2n t.ppsInSeen + 128 * b2n t.slave.isSome +
  256 * (match t.slave with | some p => p.val | none => 0) + 1024 * b2n t.todPending + 2 ^ 16 * (t.epoch % 2 ^ 16)

/-- A TIME_STATE event and its record (R857, R759 kind 6). -/
def Chip.timeEvent (c : Chip) : Chip :=
  let w := c.timeWord
  (c.record 6 76 (w % 256) (c.tmb.epoch % 2 ^ 16) 0).happen 8 (w % 2 ^ 16) (c.tmb.epoch % 2 ^ 16)

/-- The time base enters a state; SOURCE_LOST holds while it is HOLDOVER (R716), and the first LOCKED of an epoch and of a start are noted
(R111, R652, R832). -/
def Chip.enterTime (c : Chip) (s : TimeState) : Chip :=
  let c := { c with tmb := { c.tmb with state := s, run := 0 } }
  let c := c.timeEvent.setLevel 76 3 (s == .holdover)
  if s = .locked then
    let c := { c with tmb := { c.tmb with lockedEpoch := true, lockedEver := true }, rma := { c.rma with ready := true } }
    (c.pulse 0xF1).milestone 5
  else c

/-- OFFSET_LARGE takes a value (R110); a change posts an event. -/
def Chip.setLarge (c : Chip) (b : Bool) : Chip :=
  if c.tmb.offsetLarge = b then c else { c with tmb := { c.tmb with offsetLarge := b } }.timeEvent

/-- FOLLOWING_PARTNER takes a value (R120); a change posts an event. -/
def Chip.setFollowing (c : Chip) (b : Bool) : Chip :=
  if c.tmb.following = b then c else { c with tmb := { c.tmb with following := b } }.timeEvent

/-! ## The servo (R108, R110) -/

/-- The rate correction after a measurement: at the ±500 ppm limit while OFFSET_LARGE; otherwise what firmware's servo chooses within it,
which the spec does not give: a free value. -/
def Chip.servo (c : Chip) (off : Int) : Chip :=
  if c.tmb.offsetLarge then { c with tmb := { c.tmb with rate := if 0 < off then -32768000 else 32768000 } }
  else
    let (v, c) := c.fresh 65536001
    { c with tmb := { c.tmb with rate := (v : Int) - 32768000 } }

/-! ## The crystal (R133, R741) -/

/-- LIFE_USED in units of 0.1 %, without its saturation (R739). Thermal age counts 2^−32 s of the acceleration factor. -/
def Chip.lifeUsed (c : Chip) : Nat := c.age.eq * 1000 / (2 ^ 32 * 3600 * 219150)

/-- XTAL of AGE_MARGIN and the MARGIN cause are evaluated where a margin changes (R736, R737). -/
def Chip.marginBits (c : Chip) : Nat :=
  let lead := c.eff 90 0x100 16
  let wear := (List.range 48).any fun m =>
    ((c.mbr m).state == .bound) && decide (tget c.age.remain 0xFFFF m < lead)
  b2n (decide (780 ≤ c.age.setpoint)) + 2 * b2n (decide (900 ≤ c.lifeUsed)) +
    4 * b2n (decide (c.eff 76 0x148 0 < c.age.obsPpm)) + 8 * b2n wear

/-- The MARGIN cause follows AGE_MARGIN (R737). -/
def Chip.checkMargin (c : Chip) : Chip := c.setLevel 90 3 (c.marginBits != 0)

/-- The step of the first epoch after a Siding exit is recorded, and compared with WAKE_ERR (R133); the crystal monitor takes it (R741). -/
def Chip.wakeStepDone (c : Chip) (step : Int) : Chip :=
  let t := c.tmb
  if !t.wakePending then c
  else
    let c := { c with tmb := { t with wakePending := false, wakeStep := satInt (2 ^ 31 - 1) step } }
    let c := if (t.wakeErr : Int) < step.natAbs then { c with tmb := { c.tmb with wakeExceeded := true } }.setCause 76 4 else c
    if t.sidingNs = 0 then c
    else
      let ppm := min 65535 (step.natAbs * 100000000 / t.sidingNs)
      let c := { c with age := { c.age with obsPpm := max c.age.obsPpm ppm } }
      (c.record 7 90 2 c.age.obsPpm 0).checkMargin

/-! ## Measurements (R105, R106) -/

/-- The counter steps by `−off` ns, or to exactly `to` ns where the source names the time. -/
def Chip.stepCounter (c : Chip) (off : Int) (dest : Option Nat) : Chip :=
  let n : Int := match dest with
    | some t => (t : Int) * 2 ^ 16
    | none => (c.tmb.now : Int) - off * 2 ^ 16
  { c with tmb := { c.tmb with now := if n < 0 then (n % 2 ^ 64).toNat else n.toNat } }

/-- The epoch step (R105): the counter steps, EPOCH increments, VALID sets. -/
def Chip.epochStep (c : Chip) (off : Int) (dest : Option Nat) (next : TimeState) : Chip :=
  let c := c.stepCounter off dest
  let c := { c with tmb := { c.tmb with epoch := (c.tmb.epoch + 1) % 2 ^ 16, lockedEpoch := false, measured := true, freeAfterSiding := false } }
  (c.enterTime next).wakeStepDone (-off)

/-- Whether the measurement lies within LOCK_THRESH. -/
def Chip.within (c : Chip) (off : Int) : Bool := decide (off.natAbs ≤ c.eff 76 0x110 0)

/-- One more measurement of the run that LOCK_COUNT counts. -/
def Chip.countRun (c : Chip) (hit : Bool) (next : TimeState) : Chip :=
  if !hit then { c with tmb := { c.tmb with run := 0 } }
  else if c.eff 76 0x110 12 ≤ c.tmb.run + 1 then c.enterTime next
  else { c with tmb := { c.tmb with run := c.tmb.run + 1 } }

/-- A measurement in a valid time base: OFFSET_LARGE, the lock, and the rate (R105, R110). -/
def Chip.measureValid (c : Chip) (off : Int) : Chip :=
  let c := c.setLarge (decide (1000 * c.eff 76 0x110 16 < off.natAbs))
  let c := match c.tmb.state with
    | .locking => c.countRun (c.within off) .locked
    | .locked => c.countRun (!c.within off) .locking
    | .holdover => c.enterTime .locking
    | .unset => c
  c.servo off

/-- An offset measurement: the epoch step in UNSET, and otherwise the lock and the rate. -/
def Chip.measure (c : Chip) (off : Int) (dest : Option Nat) : Chip :=
  let c := { c with tmb := { c.tmb with offset := satInt (2 ^ 31 - 1) off, measured := true } }
  if c.tmb.state = .unset then c.epochStep off dest .locking else c.measureValid off

/-- A measurement from the unit's own source: it leaves the partner without a step (R120). -/
def Chip.measureOwn (c : Chip) (off : Int) (dest : Option Nat) : Chip := (c.setFollowing false).measure off dest

/-- TMB_SOURCE.MODE in effect: 0 PTP, 1 PPS, 2 FREE. -/
def Chip.timeMode (c : Chip) : Nat := c.eff 76 0x108 0

/-- SYNC_RECEIVE (R106): a Sync on the PTP slave port, its offset in ns with the path delay applied. -/
def syncReceiveOp (p : Port) (off : Int) (c : Chip) : Chip :=
  if !c.clocked ∨ c.timeMode ≠ 0 ∨ !bitAt (c.eff 76 0x108 4) p.val then c
  else { c with tmb := { c.tmb with slave := some p } }.measureOwn off none

/-- Distance of a time in ns from the nearest whole second (R106). -/
def fromSecond (ns : Nat) : Int :=
  let r := ns % 1000000000
  if r ≤ 500000000 then (r : Int) else (r : Int) - 1000000000

/-- TOD_SET.SECONDS in ns. -/
def Chip.todNs (c : Chip) : Nat := c.eff 76 0x130 0 * 1000000000

/-- PPS_IN_EDGE (R130, R106, R856). -/
def ppsInEdgeOp (c : Chip) : Chip :=
  if !c.clocked then c
  else
    let c := { c with tmb := { c.tmb with ppsInTs := c.nowLayout, ppsInSeen := true } }
    if c.timeMode ≠ 1 then c
    else
      let ns : Nat := c.tmb.now / 2 ^ 16
      if c.tmb.state = .unset ∧ c.tmb.todPending then
        { c with tmb := { c.tmb with todPending := false } }.measureOwn ((ns : Int) - c.todNs) (some c.todNs)
      else c.measureOwn (fromSecond ns) none

/-- FREE_MEASUREMENT (R106): the first whole microsecond in UNSET with FREE in effect. After a Siding exit the measurement is 0. -/
def freeMeasurementOp (c : Chip) : Chip :=
  if !c.clocked ∨ c.timeMode ≠ 2 ∨ c.tmb.state ≠ .unset then c
  else
    let n := (65536000 - c.tmb.now % 65536000) % 65536000
    let c := { c with tmb := { c.tmb with now := c.tmb.now + n, up := c.tmb.up + n } }
    let off : Int := if c.tmb.freeAfterSiding then 0 else (c.tmb.now / 2 ^ 16 : Nat) - (c.todNs : Int)
    let dest := if c.tmb.freeAfterSiding then none else some c.todNs
    let c := { c with tmb := { c.tmb with offset := satInt (2 ^ 31 - 1) off } }
    let c := c.epochStep off dest .locked
    { c with tmb := { c.tmb with rate := toSigned 32 (c.eff 76 0x128 0) } }

/-- SOURCE_LOST (R107, R105): the rate in effect is kept. -/
def sourceLostOp (c : Chip) : Chip :=
  if c.timeMode = 2 ∧ !c.tmb.following then c
  else
    let c := { c with tmb := { c.tmb with measured := false, slave := none } }
    match c.tmb.state with
    | .locking | .locked => (c.setFollowing false).enterTime .holdover
    | _ => c

/-! ## Re-epoch (R113–R117) -/

/-- The time base enters UNSET: it runs at the nominal rate from its value. -/
def Chip.unsetTime (c : Chip) : Chip :=
  let c := { c with tmb := { c.tmb with offsetLarge := false, following := false, rate := 0, lockedEpoch := false, measured := false } }
  if c.tmb.state = .unset then c else c.enterTime .unset

/-- A WAITT that waits on a stripe engine ends at once with REEPOCH, 2 (R201). -/
def Engine.endWaitt (x : Engine) : Engine :=
  match x.wait with
  | some (.waitt d _) => { (x.setG d 2).advance with wait := none }
  | _ => x

/-- TIME_REEPOCH (R113–R115, R581). -/
def timeReepochOp (c : Chip) : Chip :=
  let c := c.pulse 0xF2
  let c := (List.range 4).foldl (fun c p =>
    if (c.port p).state = .faulted then (c.idlePort p) else (c.idlePort p).setTrd p .stopped) c
  let c := (List.range 16).foldl (fun c e => c.modEng e Engine.endWaitt) c
  c.unsetTime

/-! ## PPS and messages (R100, R122, R127–R129) -/

/-- Schedule time in PTP ns of the next whole second plus OFFSET that is at or after now. -/
def Chip.nextPps (c : Chip) : Nat :=
  let off := toSigned 32 (c.eff 76 0x13C 0)
  let ns : Int := (c.tmb.now / 2 ^ 16 : Nat)
  let k := (ns - off + 999999999) / 1000000000
  (k * 1000000000 + off).toNat

/-- PPS_OUT_RISE (R127–R129). While VALID is clear a FREE output pulses at the counter's whole seconds. -/
def ppsOutRiseOp (c : Chip) : Chip :=
  let free := c.eff 76 0x138 1 = 1
  if !c.clocked ∨ c.tmb.ppsOut ∨ (if c.timeValid then c.eff 76 0x138 0 = 0 else ¬ free) then c
  else
    let t := if c.timeValid then c.nextPps else (c.tmb.now / 2 ^ 16 + 999999999) / 1000000000 * 1000000000
    let n := t * 2 ^ 16 - c.tmb.now
    let up := c.tmb.up + n
    let early := match c.tmb.lastPpsRise with | some u => decide (up < u + 500000000 * 2 ^ 16) | none => false
    if early then c
    else
      { (c.emit (.pps true)) with tmb := { c.tmb with now := c.tmb.now + n, up := up, ppsOut := true, lastPpsRise := some up } }

/-- PPS_OUT_FALL (R127, R129): the pulse has lasted WIDTH. -/
def ppsOutFallOp (c : Chip) : Chip :=
  if !c.tmb.ppsOut then c
  else
    let ends := match c.tmb.lastPpsRise with | some u => u + c.eff 76 0x138 8 * 1000 * 2 ^ 16 | none => c.tmb.up
    let n := ends - c.tmb.up
    { (c.emit (.pps false)) with tmb := { c.tmb with now := c.tmb.now + n, up := c.tmb.up + n, ppsOut := false } }

/-- PTP_MESSAGE_SEND (R100, R122, R579, R670): a PTP event message leaves a port that runs PTP with the port's own source MAC; its message timestamp
point is recorded. -/
def ptpMessageSendOp (p : Port) (c : Chip) : Chip :=
  if !c.clocked ∨ !(c.port p).linkUp ∨ !bitAt (c.eff 76 0x108 4) p.val then c
  else (c.modPort p fun x => { x with ptpTx := c.nowLayout }).emit (.frame p .ptp (leBytes 6 (c.eff 83 (0x120 + 8 * p.val) 0)))

/-- WHOLE_SECOND (R219): while VALID is set, a whole second of PTP time pulses line 0xF0. -/
def wholeSecondOp (c : Chip) : Chip :=
  if !c.timeValid then c
  else
    let n := (65536000000000 - c.tmb.now % 65536000000000) % 65536000000000
    { c with tmb := { c.tmb with now := c.tmb.now + n, up := c.tmb.up + n } }.pulse 0xF0

/-! ## Meanings -/

/-- An outcome that always goes on: the effect of a command on the machine while its clocks run (R805). -/
def onChip (h : Chip → Chip) (s : State) : Host.Outcome State Fault Refusal :=
  .next { s with chip := if s.chip.clocked then h s.chip else s.chip }

/-- The effect of a command that reaches the always-on domain, or the unit as a whole, in every power state (R805). -/
def onAon (h : Chip → Chip) (s : State) : Host.Outcome State Fault Refusal := .next { s with chip := h s.chip }

/-- A register write by `w` with its effect (R57). -/
def onWrite (w : Who) (h : Chip → Chip) (s : State) : Host.Outcome State Fault Refusal := onChip (fun c => c.asked w h) s

def execSyncReceive (p : Port) (offset : Int) (s : State) := onChip (syncReceiveOp p offset) s
def execPpsInEdge (s : State) := onChip ppsInEdgeOp s
def execFreeMeasurement (s : State) := onChip freeMeasurementOp s
def execSourceLost (s : State) := onChip sourceLostOp s
def execTimeReepoch (w : Who) (s : State) := onWrite w timeReepochOp s
def execPpsOutRise (s : State) := onChip ppsOutRiseOp s
def execPpsOutFall (s : State) := onChip ppsOutFallOp s
def execPtpMessageSend (p : Port) (s : State) := onChip (ptpMessageSendOp p) s
def execWholeSecond (s : State) := onChip wholeSecondOp s

end Sys2Proof.Machine
end

