-- ==== Sys2Proof/Machine/Shuttle.lean ====
section
/-! DEFINITION. Shuttle channels (07): descriptors and their issue checks, the moves with their transforms, checksums and guards, the channel states of R346
and R347, and halts. -/

namespace Sys2Proof.Machine

/-! ## Descriptors (R337, R338, R340, R341, R362, R363, R368, R371) -/

/-- The descriptor that 32 bytes spell (R337). -/
def descOf (l : List Byte) : Desc :=
  let f (o n : Nat) : Nat := ofLe ((l.drop o).take n)
  let op := f 0 1
  let flags := f 1 1
  let sp := f 2 1
  let shape := f 3 1
  let integ := f 0x18 1
  let hf := f 0x19 1
  { op := op, first := bitAt flags 0, last := bitAt flags 1, srcSpace := sp % 8, dstSpace := bits sp 3 3, elem := shape % 4 + 1, ways := shape / 4 + 1,
    len := f 4 4, src := f 8 8, dst := f 0x10 8, crc := integ % 4, cont := bitAt integ 2, guard := bits integ 3 3, big := bitAt integ 6,
    hostFn := 64 * bits hf 6 1 + hf % 64, appTag := f 0x1A 2, aux := f 0x1C 4,
    clean := decide (flags < 4) && decide (sp < 64) && decide (integ < 128) && decide (hf < 128) &&
      (sp % 8 == 4 || bits sp 3 3 == 4 || hf == 0) && (op == 2 || op == 3 || shape < 4) && (op != 6 || shape == 0) }

/-- Bytes in a guarded block. -/
def Desc.block (d : Desc) : Nat := if d.big then 4096 else 512

/-- Bytes written to the destination for a whole descriptor, or spanned by it from DST (R361, R362, R363). -/
def Desc.dstExtent (d : Desc) : Nat :=
  match d.op with
  | 1 => match d.guard with
    | 1 => d.len / d.block * (d.block + 8)
    | 2 => d.len / (d.block + 8) * d.block
    | _ => d.len
  | 3 => let L := d.len / d.ways; let t := if d.aux = 0 then L else d.aux; (d.ways - 1) * t + L
  | 4 => let L := d.len / d.elem / 8; let t := if d.aux = 0 then L else d.aux; (8 * d.elem - 1) * t + L
  | 6 => 32
  | _ => d.len

/-- Bytes spanned by the source from SRC. -/
def Desc.srcExtent (d : Desc) : Nat :=
  match d.op with
  | 2 => let L := d.len / d.ways; let t := if d.aux = 0 then L else d.aux; (d.ways - 1) * t + L
  | 5 => let L := d.len / d.elem / 8; let t := if d.aux = 0 then L else d.aux; (8 * d.elem - 1) * t + L
  | 6 => 0
  | _ => d.len

/-- A transform (R362–R364). -/
def Desc.transform (d : Desc) : Bool := d.op == 2 || d.op == 3 || d.op == 4 || d.op == 5

/-- The fields of a descriptor suit its OP (R337, R340, R341). -/
def Desc.fieldsOk (d : Desc) : Bool :=
  d.clean && decide (1 ≤ d.op) && decide (d.op ≤ 6) && decide (d.srcSpace ≤ 5) && decide (d.dstSpace ≤ 5) &&
  d.dstSpace != 3 && d.srcSpace != 5 && d.srcSpace != 4 && decide (d.guard ≤ 3) &&
  (if d.op = 6 then
    d.len == 0 && d.src == 0 && d.srcSpace == 0 && d.crc == 0 && !d.cont && d.guard == 0 && !d.big && d.appTag == 0 && d.aux == 0 &&
    decide (d.dstSpace < 3) && d.dst % 32 == 0
  else
    decide (1 ≤ d.len) && decide (d.len ≤ 0x1000000) &&
    (if d.transform then
      d.guard == 0 && !d.cont && d.appTag == 0 &&
      (if d.op = 2 ∨ d.op = 3 then d.len % (d.ways * d.elem) == 0 else d.len % (8 * d.elem) == 0)
    else
      (if d.guard = 0 then d.aux == 0 else if d.guard = 1 then d.len % d.block == 0 else d.len % (d.block + 8) == 0)))

/-- The sides of a descriptor lie inside the slot's windows (R147, R341). -/
def Desc.inside (d : Desc) (r : Run) (e : Nat) : Bool :=
  (d.op == 6 || r.inside e d.srcSpace d.src d.srcExtent false) && (decide (3 < d.dstSpace) || r.inside e d.dstSpace d.dst d.dstExtent true)

/-- HOSTFN is the function of a host-entry item that the program has taken and not completed (R341). -/
def Desc.hostOk (d : Desc) (r : Run) : Bool := d.dstSpace != 4 || r.taken.any fun i => i.source == 0 && 64 * i.port + i.origin % 64 == d.hostFn

/-- Source and destination extents overlap in one space where that is refused (R361). -/
def Desc.overlaps (d : Desc) : Bool :=
  (d.transform || (d.op == 1 && d.guard != 0)) && d.srcSpace == d.dstSpace && decide (d.srcSpace ≤ 3) &&
  decide (d.src < d.dst + d.dstExtent) && decide (d.dst < d.src + d.srcExtent)

/-- The chain at an LM address: descriptors up to the first with LAST, at most 16; none when the shape of R338 is broken. -/
def Chip.chainAt (c : Chip) (e : Nat) : Nat → Nat → Bool → Option (List Desc)
  | 0, _, _ => none
  | n + 1, at0, first =>
    let d := descOf (mread zeros (c.eng e).lm at0 32)
    if d.first ≠ first then none
    else if d.last then some [d]
    else (c.chainAt e n (at0 + 32) false).map (d :: ·)

/-! ## Moves (R358–R371) -/

/-- `count` elements of `k` bytes. -/
def elemsOf (k : Nat) (l : List Byte) : Nat → List (List Byte)
  | 0 => []
  | n + 1 => l.take k :: elemsOf k (l.drop k) n

/-- A check's kinds in the order of R371: guard, application tag, reference tag; 0 where the block passes (R369). -/
def checkBlock (data pi : List Byte) (appTag ref : Nat) : Nat :=
  let app := ofBe ((pi.drop 2).take 2)
  if app = 0xFFFF then 0
  else if ofBe (pi.take 2) ≠ t10 data then 1
  else if app ≠ appTag then 2
  else if ofBe (pi.drop 4) ≠ ref then 3 else 0

/-- Protection information of a block (R367). -/
def piOf (data : List Byte) (appTag ref : Nat) : List Byte := beBytes 2 (t10 data) ++ beBytes 2 appTag ++ beBytes 4 ref

/-- What a descriptor does with its source bytes: destination pieces (offset from DST, bytes) in the order they are written, the bytes its CRCs run over,
and the kind of the check of each guarded block, in order. -/
structure Moved where
  out : List (Nat × List Byte)
  crc : List Byte
  kinds : List Nat
deriving DecidableEq, Repr

/-- The guarded blocks of a source (R367–R370). -/
def guardMove (d : Desc) : Nat → Nat → List Byte → Moved
  | 0, _, _ => ⟨[], [], []⟩
  | n + 1, i, l =>
    let bs := d.block
    let data := l.take bs
    let ref := (d.aux + i) % 2 ^ 32
    let src := if d.guard = 1 then bs else bs + 8
    let pi := if d.guard = 1 then piOf data d.appTag ref else (l.drop bs).take 8
    let kind := if d.guard = 1 then 0 else checkBlock data pi d.appTag ref
    let w := if d.guard = 2 then data else data ++ pi
    let r := guardMove d n (i + 1) (l.drop src)
    ⟨(i * w.length, w) :: r.out, data ++ r.crc, kind :: r.kinds⟩

/-- The move of a descriptor other than DIGEST over the bytes of its source extent (R360, R362–R364, R366). -/
def Desc.move (d : Desc) (s : List Byte) : Moved :=
  let k := d.elem
  match d.op with
  | 2 =>
    let L := d.len / d.ways
    let t := if d.aux = 0 then L else d.aux
    let out := (List.range (d.len / k)).flatMap fun x => (s.drop (x % d.ways * t + x / d.ways * k)).take k
    ⟨[(0, out)], out, []⟩
  | 3 =>
    let L := d.len / d.ways
    let t := if d.aux = 0 then L else d.aux
    ⟨(List.range (d.len / k)).map fun x => (x % d.ways * t + x / d.ways * k, (s.drop (x * k)).take k), s, []⟩
  | 4 =>
    let els := (elemsOf k s (d.len / k)).map ofLe
    let L := d.len / k / 8
    let t := if d.aux = 0 then L else d.aux
    ⟨(List.range (8 * k)).map fun b => (b * t, (List.range L).map fun q =>
      BitVec.ofNat 8 (((List.range 8).map fun j => b2n (bitAt (els.getD (8 * q + j) 0) b) * 2 ^ j).sum)), s, []⟩
  | 5 =>
    let N := d.len / k
    let L := N / 8
    let t := if d.aux = 0 then L else d.aux
    let out := (List.range N).flatMap fun j =>
      leBytes k (((List.range (8 * k)).map fun b => b2n (bitAt ((s.getD (b * t + j / 8) 0).toNat) (j % 8)) * 2 ^ b).sum)
    ⟨[(0, out)], out, []⟩
  | _ =>
    if d.guard = 0 then ⟨[(0, s)], s, []⟩
    else guardMove d (d.len / (if d.guard = 1 then d.block else d.block + 8)) 0 s

/-- The digest record of a channel (R371). -/
def Channel.digest (h : Channel) : List Byte :=
  leBytes 4 (if h.used32 then h.crc32 ^^^ 0xFFFFFFFF else 0) ++ leBytes 4 h.fails ++ leBytes 8 (if h.used64 then h.crc64 ^^^ 0xFFFFFFFFFFFFFFFF else 0) ++
  leBytes 4 (h.firstBlock.getD 0xFFFFFFFF) ++ leBytes 1 h.firstKind ++ leBytes 3 0 ++ leBytes 8 h.written

/-- Bytes to a destination: those for a function under reset go to the sink and count in OVERRUN (R350); SINK takes them uncounted (R371). -/
def Chip.destWrite (c : Chip) (n : Nat) (d : Desc) (off : Nat) (l : List Byte) : Chip :=
  let e := (c.chan n).issuer
  if d.dstSpace < 3 then (c.spWrite e d.dstSpace (d.dst + off) l).modChan n fun h => { h with written := h.written + l.length }
  else if d.dstSpace = 4 then
    if (c.fn d.hostFn).flr.isSome then c.modChan n fun h => { h with overrun := (h.overrun + l.length) % 2 ^ 64 }
    else (c.hostWrite d.hostFn (d.dst + off) l).modChan n fun h => { h with written := h.written + l.length }
  else c

/-- The pieces of a move written, up to `n` bytes of them. -/
def Chip.writePieces (c : Chip) (ch : Nat) (d : Desc) : List (Nat × List Byte) → Nat → Chip
  | [], _ => c
  | (o, l) :: r, n => if n = 0 then c else (c.destWrite ch d o (l.take n)).writePieces ch d r (n - l.length)

/-- Failed checks counted in the chain's digest (R370): blocks are numbered from chain start. -/
def Channel.countKinds (h : Channel) : List Nat → Channel
  | [] => h
  | k :: r =>
    let h' := if k = 0 then h else { h with fails := h.fails + 1, firstBlock := h.firstBlock <|> some h.blocks,
                                            firstKind := if h.firstBlock.isNone then k else h.firstKind }
    { h' with blocks := h'.blocks + 1 }.countKinds r

/-- The CRCs of a descriptor (R366): a CRC that it selects restarts or continues. -/
def Channel.runCrc (h : Channel) (d : Desc) (l : List Byte) : Channel :=
  let h := if d.crc % 2 = 1 then { h with crc32 := crc32cRun l (if d.cont then h.crc32 else 0xFFFFFFFF), used32 := true } else h
  if 2 ≤ d.crc then { h with crc64 := crc64Run l (if d.cont then h.crc64 else 0xFFFFFFFFFFFFFFFF), used64 := true } else h

/-- The bytes of a descriptor's source extent. -/
def Chip.srcBytes (c : Chip) (n : Nat) (d : Desc) (hostData : List Byte) : List Byte :=
  if d.srcSpace = 4 then hostData.take d.srcExtent else c.spRead (c.chan n).issuer d.srcSpace d.src d.srcExtent

/-- A descriptor carried out whole. -/
def Chip.runDesc (c : Chip) (n : Nat) (d : Desc) (hostData : List Byte) : Chip :=
  if d.op = 6 then c.destWrite n d 0 (c.chan n).digest
  else
    let m := d.move (c.srcBytes n d hostData)
    let c := c.writePieces n d m.out (m.out.map fun p => p.2.length).sum
    c.modChan n fun h => (h.runCrc d m.crc).countKinds m.kinds

/-- The part of a running descriptor that is written when it is cut or halted: how many bytes is free (log entry 4). -/
def Chip.tearDesc (c : Chip) (n : Nat) (d : Desc) : Chip :=
  let m := d.move (c.srcBytes n d [])
  let total := if d.op = 6 ∨ d.srcSpace = 4 then 0 else (m.out.map fun p => p.2.length).sum
  let (v, c) := c.fresh (total + 1)
  c.writePieces n d m.out v

/-! ## Channel states (R346, R347, R859) -/

/-- The chain's slots return to pool 4 (R345). -/
def Chip.leaveChain (c : Chip) (n : Nat) : Chip := c.giveBack 4 (c.chan n).chain.length

/-- A chain is accepted on an IDLE channel (R345, R346); RETRIES is that of the latest accepted set (R85). -/
def Chip.startChain (c : Chip) (n issuer : Nat) (ds : List Desc) : Chip :=
  let h := c.chan n
  (c.grant 4 ds.length).setChan n { h with
    state := .running, desc := 0, issuer := issuer, chain := ds, tries := 0, retryAddr := none, retries := c.acc (recSht (n / 8)) 0x100 0,
    pausePend := false, stopPend := false, crc32 := 0xFFFFFFFF, crc64 := 0xFFFFFFFFFFFFFFFF, used32 := false, used64 := false, fails := 0,
    firstBlock := none, firstKind := 0, blocks := 0, written := 0 }

/-- The end of a chain before or at its last descriptor: 0 LAST, 1 STOP, 2 CUT. -/
def Chip.endChain (c : Chip) (n by0 : Nat) : Chip :=
  (c.leaveChain n).modChan n fun h => { h with state := .idle, endBy := by0, pausePend := false, stopPend := false }

/-- DESCRIPTOR_COMPLETE (R339, R346, R351–R353, R859). -/
def descriptorCompleteOp (n : Chan) (hostData : List Byte) (c : Chip) : Chip :=
  let h := c.chan n
  match h.state, h.chain[h.desc]? with
  | .running, some d =>
    if !c.clocked then c
    else
      let c := c.runDesc n d hostData
      if d.last then (c.endChain n 0).pulse n
      else if h.stopPend then c.endChain n 1
      else if h.pausePend then c.modChan n fun h => { h with state := .paused, pausePend := false }
      else c.modChan n fun h => { h with desc := h.desc + 1, tries := 0, retryAddr := none }
  | _, _ => c

/-- Writes to SHT_CHc_CTRL come from firmware; those from the host ports are ignored (07, "Registers"). -/
def Who.internal (w : Who) (c : Chip) : Bool :=
  match w with
  | .fn _ => false
  | .firmware => true
  | .jtag => !c.sec.secured

/-- PAUSE (R347). -/
def pauseOp (w : Who) (n : Chan) (c : Chip) : Chip :=
  if Who.internal w c && (c.chan n).state == .running then c.modChan n fun h => { h with pausePend := true } else c

/-- RESUME (R346, R347): ignored in RUNNING. -/
def resumeOp (w : Who) (n : Chan) (c : Chip) : Chip :=
  if Who.internal w c && (c.chan n).state == .paused then
    c.modChan n fun h => { h with state := .running, desc := h.desc + 1, tries := 0, retryAddr := none }
  else c

/-- STOP (R346, R347): at once when PAUSED. -/
def stopOp (w : Who) (n : Chan) (c : Chip) : Chip :=
  if !Who.internal w c then c
  else match (c.chan n).state with
    | .running => c.modChan n fun h => { h with stopPend := true }
    | .paused => c.endChain n 1
    | _ => c

/-- Bytes of a read burst in flight that a cut discards (R349): at most 4,096 from host memory, 256 from a memory of the device. -/
def Desc.burst (d : Desc) : Nat := if d.srcSpace = 4 then 4096 else 256

/-- A channel is cut (R347, R349): the running descriptor stays as far as it got, the burst in flight goes to the sink. -/
def Chip.cutChan (c : Chip) (n : Nat) : Chip :=
  let h := c.chan n
  match h.state, h.chain[h.desc]? with
  | .running, some d =>
    let c := c.tearDesc n d
    let (v, c) := c.fresh (d.burst + 1)
    (c.modChan n fun h => { h with overrun := (h.overrun + v) % 2 ^ 64 }).endChain n 2
  | .paused, _ => c.endChain n 2
  | _, _ => c

/-- CUT (R347). -/
def cutOp (w : Who) (n : Chan) (c : Chip) : Chip := if Who.internal w c then c.cutChan n else c

/-- CH_HALT holds while a channel of the instance is HALTED (R716). -/
def Chip.haltLevel (c : Chip) (n : Nat) : Chip :=
  let k := n / 8
  let on := (List.range 8).any fun i => (c.chan (8 * k + i)).state == .halted
  c.setLevel (recSht k) 3 on

/-- CLEAR (R346, R357, R869). -/
def clearOp (w : Who) (n : Chan) (c : Chip) : Chip :=
  if Who.internal w c && (c.chan n).state == .halted then (c.modChan n fun h => { h with state := .idle }).haltLevel n else c

/-- CHANNEL_HALT (R346, R355, R356): HALT_INFO and HALT_ADDR, slots returned, CH_HALT raised, an issuing engine faults. -/
def Chip.haltChan (c : Chip) (n cause addr : Nat) (d : Desc) : Chip :=
  let h := c.chan n
  let c := (c.tearDesc n d).leaveChain n
  let c := c.modChan n fun x => { x with state := .halted, endBy := 3, haltCause := cause, haltSide := false, haltDesc := h.desc, haltTries := h.tries,
                                         haltAddr := addr, pausePend := false, stopPend := false }
  let c := c.haltLevel n
  if h.issuer < 16 then c.haltEngine h.issuer else c

/-- SHUTTLE_READ_ERROR (R355): causes 1 to 3 on a host read, 5 on a memory of the device. -/
def shuttleReadErrorOp (n : Chan) (cause : BitVec 3) (addr : W64) (c : Chip) : Chip :=
  let h := c.chan n
  let k := cause.toNat
  match h.state, h.chain[h.desc]? with
  | .running, some d =>
    if (if d.srcSpace = 4 then k == 1 || k == 2 || k == 3 else k == 5) then c.haltChan n k addr.toNat d else c
  | _, _ => c

/-- HOST_READ_TIMEOUT (R355): retried up to RETRIES times, then a halt with cause 4. -/
def hostReadTimeoutOp (n : Chan) (addr : W64) (c : Chip) : Chip :=
  let h := c.chan n
  match h.state, h.chain[h.desc]? with
  | .running, some d =>
    if d.srcSpace ≠ 4 then c
    else
      let tries := if h.retryAddr = some addr.toNat then h.tries else 0
      if tries < h.retries then c.modChan n fun h => { h with tries := tries + 1, retryAddr := some addr.toNat }
      else (c.modChan n fun h => { h with tries := tries }).haltChan n 4 addr.toNat d
  | _, _ => c

/-! ## Meanings -/

def execDescriptorComplete (n : Chan) (hostData : List Byte) (s : State) := onChip (descriptorCompleteOp n hostData) s
def execPause (w : Who) (n : Chan) (s : State) := onChip (pauseOp w n) s
def execResume (w : Who) (n : Chan) (s : State) := onChip (resumeOp w n) s
def execStop (w : Who) (n : Chan) (s : State) := onChip (stopOp w n) s
def execCut (w : Who) (n : Chan) (s : State) := onChip (cutOp w n) s
def execClear (w : Who) (n : Chan) (s : State) := onChip (clearOp w n) s
def execShuttleReadError (n : Chan) (cause : BitVec 3) (addr : W64) (s : State) := onChip (shuttleReadErrorOp n cause addr) s
def execHostReadTimeout (n : Chan) (addr : W64) (s : State) := onChip (hostReadTimeoutOp n addr) s

end Sys2Proof.Machine
end

