-- ==== Sys2Proof/Machine/Lanibex.lean ====
section
/-! DEFINITION. Lanibex (04): how an instruction issues and faults, then the integer, predicate, immediate, scalar and vector memory, control-flow and
GF(2^8) instructions. -/

namespace Sys2Proof.Machine

/-! ## Issue (R153, R154, R164, R224–R227, R861) -/

/-- What an instruction comes to: a new machine, or a fault (code, soft code) before any effect of it. -/
abbrev Lx := Except (Nat × Nat) Chip

/-- A fault with no soft code. -/
def lxFault (code : Nat) : Lx := .error (code, 0)

/-- Instructions that keep an anchored run open (R212). -/
def anchorable : Instr → Bool
  | .gate .. | .hold .. | .wake .. | .sig .. | .snapt .. => true
  | _ => false

/-- The engine can execute: a program runs, does not wait, and neither fault, stop nor gating keeps it from its clock. -/
def Chip.executes (c : Chip) (e : Eng) : Bool :=
  let x := c.eng e
  x.run.isSome && x.wait.isNone && !x.faulted && !c.vault.stopped && c.clocked && !(e.isSe && c.isGated e)

/-- The word at the PC is the word of the instruction, where the image's code is known. The code of a stock program is not (log entry 32). -/
def Run.holds (r : Run) (pc : Nat) (i : Instr) : Bool := r.image.code.isEmpty || r.image.code[pc]? == encodeLx i

/-- An instruction at the PC of engine `e`: a pending ECC fault, PC and ILLEGAL come first, then the instruction itself. -/
def Chip.issue (c : Chip) (e : Eng) (i : Instr) (h : Run → Chip → Lx) : Chip :=
  let x := c.eng e
  match x.run with
  | none => c
  | some r =>
    if !c.executes e then c
    else
      let word := match encodeLx i with | some w => w.toNat | none => 0
      if x.haltPending then c.engineFault e fEcc 0 word
      else if r.image.codeWords ≤ x.pc then c.engineFault e fPc 0 0
      else if !r.holds x.pc i then c
      else if !i.wf then c.engineFault e fIllegal 0 word
      else
        let c := if anchorable i then c else c.modEng e fun x => { x with anchor := none }
        match h r c with
        | .ok c => c
        | .error (code, soft) => c.engineFault e code soft word

/-- An instruction that only changes its engine, and goes on to the next word. -/
def Chip.issueReg (c : Chip) (e : Eng) (i : Instr) (h : Engine → Engine) : Chip :=
  c.issue e i fun _ c => .ok (c.modEng e fun x => (h x).advance)

/-- An instruction that writes gd from the registers. -/
def Chip.issueG (c : Chip) (e : Eng) (i : Instr) (d : BitVec 5) (v : Engine → W64) : Chip := c.issueReg e i fun x => x.setG d.toNat (v x)

/-- An instruction that writes a predicate from the registers. -/
def Chip.issueP (c : Chip) (e : Eng) (i : Instr) (d : BitVec 5) (v : Engine → Bool) : Chip := c.issueReg e i fun x => x.setP (d.toNat % 8) (v x)

/-! ## Integer, predicate and immediate instructions (R157–R159) -/

def Engine.g5 (x : Engine) (a : BitVec 5) : W64 := x.getG a.toNat
def Engine.p5 (x : Engine) (a : BitVec 5) : Bool := x.getP (a.toNat % 8)

/-- A shift amount: gb[5:0]. -/
def shAmt (b : W64) : Nat := b.toNat % 64

def addOp (e : Eng) (d a b : BitVec 5) (c : Chip) : Chip := c.issueG e (.add e d a b) d fun x => x.g5 a + x.g5 b
def subOp (e : Eng) (d a b : BitVec 5) (c : Chip) : Chip := c.issueG e (.sub e d a b) d fun x => x.g5 a - x.g5 b
def andOp (e : Eng) (d a b : BitVec 5) (c : Chip) : Chip := c.issueG e (.and e d a b) d fun x => x.g5 a &&& x.g5 b
def orOp (e : Eng) (d a b : BitVec 5) (c : Chip) : Chip := c.issueG e (.or e d a b) d fun x => x.g5 a ||| x.g5 b
def xorOp (e : Eng) (d a b : BitVec 5) (c : Chip) : Chip := c.issueG e (.xor e d a b) d fun x => x.g5 a ^^^ x.g5 b
def shlOp (e : Eng) (d a b : BitVec 5) (c : Chip) : Chip := c.issueG e (.shl e d a b) d fun x => x.g5 a <<< shAmt (x.g5 b)
def shrOp (e : Eng) (d a b : BitVec 5) (c : Chip) : Chip := c.issueG e (.shr e d a b) d fun x => x.g5 a >>> shAmt (x.g5 b)
def sarOp (e : Eng) (d a b : BitVec 5) (c : Chip) : Chip := c.issueG e (.sar e d a b) d fun x => (x.g5 a).sshiftRight (shAmt (x.g5 b))
def mulOp (e : Eng) (d a b : BitVec 5) (c : Chip) : Chip := c.issueG e (.mul e d a b) d fun x => x.g5 a * x.g5 b
def mulhuOp (e : Eng) (d a b : BitVec 5) (c : Chip) : Chip :=
  c.issueG e (.mulhu e d a b) d fun x => BitVec.ofNat 64 ((x.g5 a).toNat * (x.g5 b).toNat / 2 ^ 64)
def minuOp (e : Eng) (d a b : BitVec 5) (c : Chip) : Chip := c.issueG e (.minu e d a b) d fun x => if x.g5 a ≤ x.g5 b then x.g5 a else x.g5 b
def maxuOp (e : Eng) (d a b : BitVec 5) (c : Chip) : Chip := c.issueG e (.maxu e d a b) d fun x => if x.g5 a ≤ x.g5 b then x.g5 b else x.g5 a
def divuOp (e : Eng) (d a b : BitVec 5) (c : Chip) : Chip :=
  c.issueG e (.divu e d a b) d fun x => if x.g5 b = 0 then 0xFFFFFFFFFFFFFFFF else x.g5 a / x.g5 b
def remuOp (e : Eng) (d a b : BitVec 5) (c : Chip) : Chip := c.issueG e (.remu e d a b) d fun x => if x.g5 b = 0 then x.g5 a else x.g5 a % x.g5 b
def selOp (e : Eng) (d a b : BitVec 5) (p : BitVec 3) (c : Chip) : Chip :=
  c.issueG e (.sel e d a b p) d fun x => if x.getP p.toNat then x.g5 a else x.g5 b

def eqOp (e : Eng) (d a b : BitVec 5) (c : Chip) : Chip := c.issueP e (.eq e d a b) d fun x => x.g5 a == x.g5 b
def neOp (e : Eng) (d a b : BitVec 5) (c : Chip) : Chip := c.issueP e (.ne e d a b) d fun x => x.g5 a != x.g5 b
def ltuOp (e : Eng) (d a b : BitVec 5) (c : Chip) : Chip := c.issueP e (.ltu e d a b) d fun x => (x.g5 a).ult (x.g5 b)
def ltOp (e : Eng) (d a b : BitVec 5) (c : Chip) : Chip := c.issueP e (.lt e d a b) d fun x => (x.g5 a).slt (x.g5 b)
def geuOp (e : Eng) (d a b : BitVec 5) (c : Chip) : Chip := c.issueP e (.geu e d a b) d fun x => !(x.g5 a).ult (x.g5 b)
def geOp (e : Eng) (d a b : BitVec 5) (c : Chip) : Chip := c.issueP e (.ge e d a b) d fun x => !(x.g5 a).slt (x.g5 b)
def tltOp (e : Eng) (d a b : BitVec 5) (c : Chip) : Chip :=
  c.issueP e (.tlt e d a b) d fun x => decide (timeDiff ((x.g5 a).toNat / 2 ^ 16) ((x.g5 b).toNat / 2 ^ 16) < 0)
def pandOp (e : Eng) (d a b : BitVec 5) (c : Chip) : Chip := c.issueP e (.pand e d a b) d fun x => x.p5 a && x.p5 b
def porOp (e : Eng) (d a b : BitVec 5) (c : Chip) : Chip := c.issueP e (.por e d a b) d fun x => x.p5 a || x.p5 b
def pnotOp (e : Eng) (d a b : BitVec 5) (c : Chip) : Chip := c.issueP e (.pnot e d a b) d fun x => !x.p5 a

def addiOp (e : Eng) (d a : BitVec 5) (imm : BitVec 16) (c : Chip) : Chip := c.issueG e (.addi e d a imm) d fun x => x.g5 a + imm.signExtend 64
def andiOp (e : Eng) (d a : BitVec 5) (imm : BitVec 16) (c : Chip) : Chip := c.issueG e (.andi e d a imm) d fun x => x.g5 a &&& imm.setWidth 64
def oriOp (e : Eng) (d a : BitVec 5) (imm : BitVec 16) (c : Chip) : Chip := c.issueG e (.ori e d a imm) d fun x => x.g5 a ||| imm.setWidth 64
def xoriOp (e : Eng) (d a : BitVec 5) (imm : BitVec 16) (c : Chip) : Chip := c.issueG e (.xori e d a imm) d fun x => x.g5 a ^^^ imm.setWidth 64
def shliOp (e : Eng) (d a : BitVec 5) (imm : BitVec 16) (c : Chip) : Chip := c.issueG e (.shli e d a imm) d fun x => x.g5 a <<< (imm.toNat % 64)
def shriOp (e : Eng) (d a : BitVec 5) (imm : BitVec 16) (c : Chip) : Chip := c.issueG e (.shri e d a imm) d fun x => x.g5 a >>> (imm.toNat % 64)
def sariOp (e : Eng) (d a : BitVec 5) (imm : BitVec 16) (c : Chip) : Chip :=
  c.issueG e (.sari e d a imm) d fun x => (x.g5 a).sshiftRight (imm.toNat % 64)
def moviOp (e : Eng) (d a : BitVec 5) (imm : BitVec 16) (c : Chip) : Chip := c.issueG e (.movi e d a imm) d fun _ => imm.signExtend 64

/-- Bits [16h + 15:16h] replaced (R159). -/
def movkVal (old : W64) (h : Nat) (imm : BitVec 16) : W64 :=
  (old &&& ~~~((0xFFFF : W64) <<< (16 * h))) ||| ((imm.setWidth 64 : W64) <<< (16 * h))

def movkOp (e : Eng) (d a : BitVec 5) (imm : BitVec 16) (c : Chip) : Chip :=
  c.issueG e (.movk e d a imm) d fun x => movkVal (x.g5 d) (a.toNat % 4) imm

/-! ## Scalar and vector memory (R172–R174) -/

/-- The checks of an access in the order of R861: alignment, then the windows. -/
def Chip.access (r : Run) (e : Eng) (sp a n align : Nat) (write : Bool) (k : Lx) : Lx :=
  if a % align ≠ 0 then lxFault fAlign else if !r.inside e sp a n write then lxFault fRange else k

/-- LD (R172). -/
def ldOp (e : Eng) (d a : BitVec 5) (sz : BitVec 2) (off : BitVec 14) (c : Chip) : Chip :=
  c.issue e (.ld e d a sz off) fun r c =>
    let n := 2 ^ sz.toNat
    let ad := offAddr ((c.eng e).g5 a) off n
    Chip.access r e 0 ad n n false (.ok (c.modEng e fun x => (x.setG d.toNat (BitVec.ofNat 64 (ofLe (mread zeros x.lm ad n)))).advance))

/-- ST (R172). -/
def stOp (e : Eng) (d a : BitVec 5) (sz : BitVec 2) (off : BitVec 14) (c : Chip) : Chip :=
  c.issue e (.st e d a sz off) fun r c =>
    let n := 2 ^ sz.toNat
    let ad := offAddr ((c.eng e).g5 a) off n
    Chip.access r e 0 ad n n true (.ok (c.modEng e fun x =>
      { x with lm := mwrite zeros x.lm ad (leBytes n (x.g5 d).toNat) }.advance))

/-- SLOAD (R173). -/
def sloadOp (e : Eng) (d a : BitVec 5) (sp : BitVec 2) (off : BitVec 14) (c : Chip) : Chip :=
  c.issue e (.sload e d a sp off) fun r c =>
    let ad := offAddr ((c.eng e).g5 a) off 64
    Chip.access r e sp.toNat ad 64 64 false (.ok (c.modEng e fun x => (x.setW (d.toNat % 16) (vecOf (c.spRead e sp.toNat ad 64))).advance))

/-- SSTORE (R173, R174). -/
def sstoreOp (e : Eng) (d a : BitVec 5) (sp : BitVec 2) (off : BitVec 14) (c : Chip) : Chip :=
  c.issue e (.sstore e d a sp off) fun r c =>
    let ad := offAddr ((c.eng e).g5 a) off 64
    if ad % 64 ≠ 0 then lxFault fAlign
    else if sp.toNat = 3 then lxFault fWriteProt
    else Chip.access r e sp.toNat ad 64 64 true
      (.ok ((c.spWrite e sp.toNat ad (vecBytes ((c.eng e).getW (d.toNat % 16)))).modEng e Engine.advance))

/-! ## Control flow (R160–R163) -/

/-- BRP (R160, R163). -/
def brpOp (e : Eng) (sense : Bool) (p : BitVec 3) (off : BitVec 16) (c : Chip) : Chip :=
  c.issue e (.brp e sense p off) fun _ c =>
    .ok (c.modEng e fun x => if x.getP p.toNat == sense then x.branch (x.pc + off.toNat) else x.advance)

/-- The engine after a LOOP that does not fault (R161, R162). -/
def Engine.loop (x : Engine) (n bound len : Nat) : Engine :=
  let x := x.setP 7 (decide (bound < n))
  let n := min n bound
  if n = 0 then
    let (ls, pc) := wordEnd x.loops (x.pc + len)
    { x with loops := ls, pc := pc }
  else { x with loops := ⟨x.pc + 1, x.pc + len, n, 0⟩ :: x.loops, pc := x.pc + 1 }

/-- LOOP (R161). -/
def loopOp (e : Eng) (k : BitVec 5) (bound : BitVec 13) (len : BitVec 8) (c : Chip) : Chip :=
  c.issue e (.loop e k bound len) fun _ c =>
    let x := c.eng e
    if x.loops.length = 4 then lxFault fLoop
    else if x.loops.head?.any fun t => decide (t.stop < x.pc + len.toNat) then lxFault fLoop
    else .ok (c.modEng e fun x => x.loop (x.g5 k).toNat bound.toNat len.toNat)

/-! ## Vectors and GF(2^8) (R165–R171) -/

def Engine.w4 (x : Engine) (a : BitVec 4) : Vec := x.getW a.toNat

/-- A vector instruction that writes wd. -/
def Chip.issueW (c : Chip) (e : Eng) (i : Instr) (d : BitVec 4) (v : Engine → Vec) : Chip := c.issueReg e i fun x => x.setW d.toNat (v x)

/-- Each byte of a vector multiplied by a constant. -/
def gfScale (k : Byte) (v : Vec) : Vec := vecOf ((vecBytes v).map (gfMul k))

def pxorOp (e : Eng) (vd va vb : BitVec 4) (g : BitVec 5) (c : Chip) : Chip := c.issueW e (.pxor e vd va vb g) vd fun x => x.w4 va ^^^ x.w4 vb
def vzeroOp (e : Eng) (vd va vb : BitVec 4) (g : BitVec 5) (c : Chip) : Chip := c.issueW e (.vzero e vd va vb g) vd fun _ => 0
def vmovOp (e : Eng) (vd va vb : BitVec 4) (g : BitVec 5) (c : Chip) : Chip := c.issueW e (.vmov e vd va vb g) vd fun x => x.w4 va
def gfmulOp (e : Eng) (vd va vb : BitVec 4) (g : BitVec 5) (c : Chip) : Chip :=
  c.issueW e (.gfmul e vd va vb g) vd fun x => gfScale (lowByte (x.g5 g)) (x.w4 va)
def gfmacOp (e : Eng) (vd va vb : BitVec 4) (g : BitVec 5) (c : Chip) : Chip :=
  c.issueW e (.gfmac e vd va vb g) vd fun x => x.w4 vd ^^^ gfScale (lowByte (x.g5 g)) (x.w4 va)
/-- SYND: wd is the P accumulator, wb the Q accumulator (R166). Both take the value of wa from before the instruction. -/
def syndOp (e : Eng) (vd va vb : BitVec 4) (g : BitVec 5) (c : Chip) : Chip :=
  c.issueReg e (.synd e vd va vb g) fun x =>
    let a := x.w4 va
    (x.setW vd.toNat (x.w4 vd ^^^ a)).setW vb.toNat (x.w4 vb ^^^ gfScale (lowByte (x.g5 g)) a)
def vextOp (e : Eng) (vd va vb : BitVec 4) (g : BitVec 5) (c : Chip) : Chip :=
  c.issueReg e (.vext e vd va vb g) fun x => x.setG g.toNat (BitVec.extractLsb' (64 * (vb.toNat % 8)) 64 (x.w4 va))

/-- Lane `i` of a vector replaced. -/
def setLane (v : Vec) (i : Nat) (g : W64) : Vec :=
  (v &&& ~~~((BitVec.ofNat 512 (2 ^ 64 - 1)) <<< (64 * i))) ||| ((g.setWidth 512 : Vec) <<< (64 * i))

def vinsOp (e : Eng) (vd va vb : BitVec 4) (g : BitVec 5) (c : Chip) : Chip :=
  c.issueW e (.vins e vd va vb g) vd fun x => setLane (x.w4 vd) (vb.toNat % 8) (x.g5 g)
def vbcastOp (e : Eng) (vd va vb : BitVec 4) (g : BitVec 5) (c : Chip) : Chip :=
  c.issueW e (.vbcast e vd va vb g) vd fun x => vecOf (List.replicate 64 (lowByte (x.g5 g)))

/-- A byte as a g value. -/
def byteG (b : Byte) : W64 := b.setWidth 64

def gfmulsOp (e : Eng) (d a b : BitVec 5) (c : Chip) : Chip :=
  c.issueG e (.gfmuls e d a b) d fun x => byteG (gfMul (lowByte (x.g5 a)) (lowByte (x.g5 b)))
def gfinvOp (e : Eng) (d a b : BitVec 5) (c : Chip) : Chip := c.issueG e (.gfinv e d a b) d fun x => byteG (gfInv (lowByte (x.g5 a)))
def gfexpOp (e : Eng) (d a b : BitVec 5) (c : Chip) : Chip := c.issueG e (.gfexp e d a b) d fun x => byteG (gfExp (x.g5 a).toNat)
def gflogOp (e : Eng) (d a b : BitVec 5) (c : Chip) : Chip := c.issueG e (.gflog e d a b) d fun x => BitVec.ofNat 64 (gfLog (lowByte (x.g5 a)))

/-- SYNDB (R168–R171): the count first, then alignment of the addresses that the mode uses, then the windows. -/
def syndbOp (e : Eng) (d a b k : BitVec 5) (mode : BitVec 2) (ssp dsp : Bool) (c : Chip) : Chip :=
  c.issue e (.syndb e d a b k mode ssp dsp) fun r c =>
    let x := c.eng e
    let p := (x.g5 d).toNat
    let q := (x.getG (d.toNat + 1)).toNat
    let s := (x.g5 a).toNat
    let n := (x.g5 b).toNat
    let m := mode.toNat
    let src := if ssp then 2 else 1
    let dst := if dsp then 2 else 1
    let usesP := m % 2 == 1
    let usesQ := m != 1
    if n % 64 ≠ 0 ∨ 262144 < n ∨ r.tooLong x.pc n then lxFault fRange
    else if s % 64 ≠ 0 ∨ (usesP && p % 64 != 0) ∨ (usesQ && q % 64 != 0) then lxFault fAlign
    else if !r.inside e src s n false ||
        (usesP && !(r.inside e dst p n false && r.inside e dst p n true)) ||
        (usesQ && !((m == 0 || r.inside e dst q n false) && r.inside e dst q n true)) then lxFault fRange
    else .ok ((syndbLoop e src dst m (lowByte (x.g5 k)) (n / 64) s p q c).modEng e Engine.advance)

/-! ## Meanings -/

def execAdd (e : Eng) (d a b : BitVec 5) (s : State) := onChip (addOp e d a b) s
def execSub (e : Eng) (d a b : BitVec 5) (s : State) := onChip (subOp e d a b) s
def execAnd (e : Eng) (d a b : BitVec 5) (s : State) := onChip (andOp e d a b) s
def execOr (e : Eng) (d a b : BitVec 5) (s : State) := onChip (orOp e d a b) s
def execXor (e : Eng) (d a b : BitVec 5) (s : State) := onChip (xorOp e d a b) s
def execShl (e : Eng) (d a b : BitVec 5) (s : State) := onChip (shlOp e d a b) s
def execShr (e : Eng) (d a b : BitVec 5) (s : State) := onChip (shrOp e d a b) s
def execSar (e : Eng) (d a b : BitVec 5) (s : State) := onChip (sarOp e d a b) s
def execMul (e : Eng) (d a b : BitVec 5) (s : State) := onChip (mulOp e d a b) s
def execMulhu (e : Eng) (d a b : BitVec 5) (s : State) := onChip (mulhuOp e d a b) s
def execMinu (e : Eng) (d a b : BitVec 5) (s : State) := onChip (minuOp e d a b) s
def execMaxu (e : Eng) (d a b : BitVec 5) (s : State) := onChip (maxuOp e d a b) s
def execDivu (e : Eng) (d a b : BitVec 5) (s : State) := onChip (divuOp e d a b) s
def execRemu (e : Eng) (d a b : BitVec 5) (s : State) := onChip (remuOp e d a b) s
def execSel (e : Eng) (d a b : BitVec 5) (p : BitVec 3) (s : State) := onChip (selOp e d a b p) s
def execEq (e : Eng) (d a b : BitVec 5) (s : State) := onChip (eqOp e d a b) s
def execNe (e : Eng) (d a b : BitVec 5) (s : State) := onChip (neOp e d a b) s
def execLtu (e : Eng) (d a b : BitVec 5) (s : State) := onChip (ltuOp e d a b) s
def execLt (e : Eng) (d a b : BitVec 5) (s : State) := onChip (ltOp e d a b) s
def execGeu (e : Eng) (d a b : BitVec 5) (s : State) := onChip (geuOp e d a b) s
def execGe (e : Eng) (d a b : BitVec 5) (s : State) := onChip (geOp e d a b) s
def execTlt (e : Eng) (d a b : BitVec 5) (s : State) := onChip (tltOp e d a b) s
def execPand (e : Eng) (d a b : BitVec 5) (s : State) := onChip (pandOp e d a b) s
def execPor (e : Eng) (d a b : BitVec 5) (s : State) := onChip (porOp e d a b) s
def execPnot (e : Eng) (d a b : BitVec 5) (s : State) := onChip (pnotOp e d a b) s
def execAddi (e : Eng) (d a : BitVec 5) (imm : BitVec 16) (s : State) := onChip (addiOp e d a imm) s
def execAndi (e : Eng) (d a : BitVec 5) (imm : BitVec 16) (s : State) := onChip (andiOp e d a imm) s
def execOri (e : Eng) (d a : BitVec 5) (imm : BitVec 16) (s : State) := onChip (oriOp e d a imm) s
def execXori (e : Eng) (d a : BitVec 5) (imm : BitVec 16) (s : State) := onChip (xoriOp e d a imm) s
def execShli (e : Eng) (d a : BitVec 5) (imm : BitVec 16) (s : State) := onChip (shliOp e d a imm) s
def execShri (e : Eng) (d a : BitVec 5) (imm : BitVec 16) (s : State) := onChip (shriOp e d a imm) s
def execSari (e : Eng) (d a : BitVec 5) (imm : BitVec 16) (s : State) := onChip (sariOp e d a imm) s
def execMovi (e : Eng) (d a : BitVec 5) (imm : BitVec 16) (s : State) := onChip (moviOp e d a imm) s
def execMovk (e : Eng) (d a : BitVec 5) (imm : BitVec 16) (s : State) := onChip (movkOp e d a imm) s
def execLd (e : Eng) (d a : BitVec 5) (sz : BitVec 2) (off : BitVec 14) (s : State) := onChip (ldOp e d a sz off) s
def execSt (e : Eng) (d a : BitVec 5) (sz : BitVec 2) (off : BitVec 14) (s : State) := onChip (stOp e d a sz off) s
def execSload (e : Eng) (d a : BitVec 5) (sp : BitVec 2) (off : BitVec 14) (s : State) := onChip (sloadOp e d a sp off) s
def execSstore (e : Eng) (d a : BitVec 5) (sp : BitVec 2) (off : BitVec 14) (s : State) := onChip (sstoreOp e d a sp off) s
def execBrp (e : Eng) (sense : Bool) (p : BitVec 3) (off : BitVec 16) (s : State) := onChip (brpOp e sense p off) s
def execLoop (e : Eng) (c : BitVec 5) (bound : BitVec 13) (len : BitVec 8) (s : State) := onChip (loopOp e c bound len) s
def execPxor (e : Eng) (vd va vb : BitVec 4) (g : BitVec 5) (s : State) := onChip (pxorOp e vd va vb g) s
def execVzero (e : Eng) (vd va vb : BitVec 4) (g : BitVec 5) (s : State) := onChip (vzeroOp e vd va vb g) s
def execVmov (e : Eng) (vd va vb : BitVec 4) (g : BitVec 5) (s : State) := onChip (vmovOp e vd va vb g) s
def execGfmul (e : Eng) (vd va vb : BitVec 4) (g : BitVec 5) (s : State) := onChip (gfmulOp e vd va vb g) s
def execGfmac (e : Eng) (vd va vb : BitVec 4) (g : BitVec 5) (s : State) := onChip (gfmacOp e vd va vb g) s
def execSynd (e : Eng) (vd va vb : BitVec 4) (g : BitVec 5) (s : State) := onChip (syndOp e vd va vb g) s
def execVext (e : Eng) (vd va vb : BitVec 4) (g : BitVec 5) (s : State) := onChip (vextOp e vd va vb g) s
def execVins (e : Eng) (vd va vb : BitVec 4) (g : BitVec 5) (s : State) := onChip (vinsOp e vd va vb g) s
def execVbcast (e : Eng) (vd va vb : BitVec 4) (g : BitVec 5) (s : State) := onChip (vbcastOp e vd va vb g) s
def execGfmuls (e : Eng) (d a b : BitVec 5) (s : State) := onChip (gfmulsOp e d a b) s
def execGfinv (e : Eng) (d a b : BitVec 5) (s : State) := onChip (gfinvOp e d a b) s
def execGfexp (e : Eng) (d a b : BitVec 5) (s : State) := onChip (gfexpOp e d a b) s
def execGflog (e : Eng) (d a b : BitVec 5) (s : State) := onChip (gflogOp e d a b) s
def execSyndb (e : Eng) (d a b c : BitVec 5) (mode : BitVec 2) (ssp dsp : Bool) (s : State) := onChip (syndbOp e d a b c mode ssp dsp) s

end Sys2Proof.Machine
end

