-- ==== Sys2Proof/Machine/LanibexDev.lean ====
section
/-! DEFINITION. Lanibex (04): the instructions that act on the device (Shuttles, items, journal, mirrors, landing, waits, event lines, the port, the snapshot
trigger), program start and end, anchored actions, pulses and the Guard's watchdog. -/

namespace Sys2Proof.Machine

/-! ## Tickets (R184, R185, R189–R191) -/

/-- The next ticket of an engine: ISSUED + 1, skipping 0 (R184). -/
def Engine.nextTicket (x : Engine) : Nat := if (x.issued + 1) % 2 ^ 48 = 0 then 1 else (x.issued + 1) % 2 ^ 48

/-- A JRNL or MIRR takes a ticket. -/
def Engine.takeTicket (x : Engine) : Engine := { x with issued := x.nextTicket, tickets := x.tickets ++ [{ num := x.nextTicket }] }

/-- What LAND returns for a confirmed ticket. -/
def Engine.landedValue (x : Engine) (t : Nat) : Nat :=
  let v := tget x.landed (0, false) t
  v.1 * 2 ^ 16 + b2n v.2

/-- A waiting LAND ends: confirmed first, then on the role (R189, R190). -/
def Chip.landWake (c : Chip) (e : Nat) : Chip :=
  let x := c.eng e
  match x.wait with
  | some (.land d t) =>
    if 0 ≤ timeDiff x.confirmed t then c.setEng e { (x.setG d (BitVec.ofNat 64 (x.landedValue t))).advance with wait := none }
    else if c.par.role = .fenced ∨ c.par.role = .standby then c.setEng e { (x.setG d 3).advance with wait := none }
    else c
  | _ => c

/-- CONFIRMED covers the tickets, from the oldest, that are confirmed. -/
def confirmedFrom (old : Nat) : List Ticket → Nat × List Ticket
  | [] => (old, [])
  | t :: r => if t.partnerDone then confirmedFrom t.num r else (old, t :: r)

/-- One ticket is confirmed at this instant, under the ALONE clause or by the partner: CONFIRMED follows, line 0x50 + e pulses, a waiting LAND ends. -/
def Chip.confirmTicket (c : Chip) (e t : Nat) (alone : Bool) : Chip :=
  let x := c.eng e
  if x.tickets.any fun k => k.num == t && !k.partnerDone then
    let ts := x.tickets.map fun k => if k.num = t then { k with partnerDone := true } else k
    let (m, ts) := confirmedFrom x.confirmed ts
    let c := c.setEng e { x with tickets := ts, confirmed := m, landed := tinsert (terase x.landed t) t (c.nowNs, alone) }
    (c.pulse (0x50 + e)).landWake e
  else c

/-- In ALONE every ticket whose local write is complete is confirmed (R185, R191). -/
def Chip.confirmAlone (c : Chip) (e : Nat) : Chip :=
  ((c.eng e).tickets.filter fun k => k.localDone && !k.partnerDone).foldl (fun c k => c.confirmTicket e k.num true) c

/-- TICKET_LOCAL_COMPLETE (R185): the local write of a ticket is complete. -/
def ticketLocalCompleteOp (e : Se) (t : BitVec 48) (c : Chip) : Chip :=
  let c := c.modEng e fun x => { x with tickets := x.tickets.map fun k => if k.num = t.toNat then { k with localDone := true } else k }
  if c.par.role = .alone then c.confirmAlone e else c

/-! ## SHUT and TAKE (R176–R183, R341–R344) -/

/-- A channel is granted to the engine by its program's image (R238). -/
def Run.channelOk (r : Run) (e n : Nat) : Bool := decide (3 * e ≤ n) && decide (n < 3 * e + r.image.channels)

/-- Write gd and go on. -/
def Chip.retG (c : Chip) (e : Nat) (d : BitVec 5) (v : Nat) : Chip := c.modEng e fun x => (x.setG d.toNat (BitVec.ofNat 64 v)).advance

/-- SHUT (R182, R183, R341–R345). -/
def shutOp (e : Eng) (d a b : BitVec 5) (c : Chip) : Chip :=
  c.issue e (.shut e d a b) fun r c =>
    let x := c.eng e
    let n := (x.g5 b).toNat
    let ad := (x.g5 a).toNat
    if 64 ≤ n ∨ !r.channelOk e n then lxFault fRange
    else if (c.chan n).state ≠ .idle then .ok (c.retG e d 1)
    else match c.chainAt e 16 ad true with
      | none => if ad % 32 ≠ 0 then lxFault fAlign else lxFault fRange
      | some ds =>
        if r.tooLong x.pc ds.length then lxFault fRange
        else if ad % 32 ≠ 0 then lxFault fAlign
        else if !r.inside e 0 ad (32 * ds.length) false ∨ ds.any (fun s => !(s.fieldsOk && s.inside r e && s.hostOk r)) then lxFault fRange
        else if ds.any Desc.overlaps then .ok (c.retG e d 2)
        else .ok ((c.startChain n e ds).retG e d 0)

/-- The running program may take the item: the same slot, entry point and image (R177, R178). -/
def Chip.takeable (c : Chip) (e : Nat) (r : Run) (i : Item) : Bool :=
  i.slot == r.slot && i.ep == r.ep && decide (c.imageOf e i.slot i.ep i.seq = some r.image)

/-- A taken host item puts its entry past its abort commit point (R180). -/
def Chip.commitEntry (c : Chip) (i : Item) : Chip :=
  if i.source = 0 then c.modAdm (64 * i.port + i.origin % 64) (bits i.origin 6 8 + 1) i.pos fun a => { a with committed := true } else c

/-- TAKE (R177–R181). -/
def takeOp (e : Eng) (d a b : BitVec 5) (c : Chip) : Chip :=
  c.issue e (.take e d a b) fun r c =>
    let ad := ((c.eng e).g5 a).toNat
    Chip.access r e 0 ad 96 32 true (.ok (match (c.nextItem e).filter (c.takeable e r) with
      | none => c.retG e d 0
      | some i =>
        let c := c.modEng e fun x => { x.unqueue i.handle with
          lm := mwrite zeros x.lm ad i.bytes
          run := some { r with taken := r.taken ++ [i] } }
        (c.commitEntry i).retG e d i.handle))

/-! ## JRNL, MIRR, LAND (R184–R191, R434) -/

/-- A record type that a program may append (R432, R434). -/
def jrnlType (t : Nat) : Bool := (decide (1 ≤ t) && decide (t ≤ 8) && t != 7) || decide (0x80 ≤ t)

/-- JRNL (R186, R187, R434). -/
def jrnlOp (e : Eng) (d a b : BitVec 5) (c : Chip) : Chip :=
  c.issue e (.jrnl e d a b) fun r c =>
    let x := c.eng e
    let ad := (x.g5 a).toNat
    let n := (x.g5 b).toNat
    let bs := mread zeros x.lm ad n
    let f (o : Nat) : Nat := (bs.getD o 0).toNat
    if n % 32 ≠ 0 ∨ n = 0 ∨ 256 < n ∨ r.tooLong x.pc n then lxFault fRange
    else Chip.access r e 0 ad n 32 false (
      if 32 * f 1 ≠ n ∨ 16 ≤ f 2 ∨ !(c.arr (f 2)).made ∨ !jrnlType (f 0) then lxFault fRange
      else if c.cache.pairQ = 0 ∨ c.ringFree (f 2) < n then .ok (c.retG e d 0)
      else
        let head := c.ringHead (f 2)
        let t := x.nextTicket
        let c := (c.appendRecord (f 2) bs).modEng e Engine.takeTicket
        .ok ((c.mirrorRecord e false t (f 2) head n).retG e d t))

/-- MIRR (R188). Its range lies in the protected region of the pair plan. -/
def mirrOp (e : Eng) (d a b : BitVec 5) (c : Chip) : Chip :=
  c.issue e (.mirr e d a b) fun _ c =>
    let x := c.eng e
    let ad := (x.g5 a).toNat
    let n := (x.g5 b).toNat
    if n % 64 ≠ 0 ∨ n = 0 ∨ 0x1000000 < n then lxFault fRange
    else if ad % 64 ≠ 0 then lxFault fAlign
    else if c.cache.pairQ * 0x10000000 < ad + n then lxFault fRange
    else
      let t := x.nextTicket
      .ok (((c.modEng e Engine.takeTicket).mirrorRange e false t ad n).retG e d t)

/-- LAND (R189): confirmed, then the role, then a limit of 0, then the wait. -/
def landOp (e : Eng) (d a : BitVec 5) (lim : BitVec 13) (c : Chip) : Chip :=
  c.issue e (.land e d a lim) fun _ c =>
    let x := c.eng e
    let t := (x.g5 a).toNat
    if t = 0 ∨ 2 ^ 48 ≤ t ∨ timeDiff x.issued t < 0 then lxFault fRange
    else if 0 ≤ timeDiff x.confirmed t then .ok (c.retG e d (x.landedValue t))
    else if c.par.role = .fenced ∨ c.par.role = .standby then .ok (c.retG e d 3)
    else if lim = 0 then .ok (c.retG e d 2)
    else .ok (c.modEng e fun x => { x with wait := some (.land d.toNat t) })

/-- A waiting instruction ends with a result. -/
def Engine.wake (x : Engine) (d v : Nat) : Engine := { (x.setG d (BitVec.ofNat 64 v)).advance with wait := none }

/-- LAND_LIMIT (R189). -/
def landLimitOp (e : Se) (c : Chip) : Chip :=
  match (c.eng e).wait with
  | some (.land d _) => c.modEng e fun x => x.wake d 2
  | _ => c

/-! ## CMPL (R192–R195, R333) -/

/-- A status code that R331 reserves. -/
def reservedStatus (s : Nat) : Bool := (decide (0x11 ≤ s) && decide (s ≤ 0x7F)) || decide (0xF0 ≤ s)

/-- The landed time that a completion carries: that of the engine's highest confirmed ticket, or now where it has none. -/
def Chip.landedNow (c : Chip) (e : Nat) : Nat :=
  let x := c.eng e
  if x.confirmed = 0 then c.nowNs else (tget x.landed (c.nowNs, false) x.confirmed).1

/-- An item leaves the program that took it. -/
def Engine.untake (x : Engine) (handle : Nat) : Engine :=
  { x with run := x.run.map fun r => { r with taken := r.taken.filter fun i => i.handle != handle } }

/-- CMPL (R192–R194, R333). A reserved code faults the engine, whose items then complete with ST_ENGINE_FAULT. -/
def cmplOp (e : Eng) (d a b : BitVec 5) (c : Chip) : Chip :=
  c.issue e (.cmpl e d a b) fun r c =>
    let x := c.eng e
    let s := (x.g5 b).toNat
    match r.taken.find? fun i => i.handle == (x.g5 a).toNat with
    | none => lxFault fRange
    | some i =>
      if 256 ≤ s ∨ reservedStatus s then lxFault fRange
      else
        let c := c.modEng e fun x => (x.untake i.handle).advance
        .ok (c.completeItem e i s (c.detailOf e s) (c.landedNow e))

/-! ## WAITE, WAITT, PEND, CLRE (R196–R204) -/

/-- WAITE (R196). -/
def waiteOp (e : Eng) (d : BitVec 5) (line : BitVec 8) (lim : BitVec 13) (c : Chip) : Chip :=
  c.issue e (.waite e d line lim) fun _ c =>
    let n := (c.eng e).getPend line.toNat
    if 0 < n then .ok ((c.modEng e fun x => x.setPend line.toNat (n - 1)).retG e d 0)
    else if lim = 0 then .ok (c.retG e d 1)
    else .ok (c.modEng e fun x => { x with wait := some (.waite d.toNat line.toNat) })

/-- WAITE_LIMIT (R196). -/
def waiteLimitOp (e : Eng) (c : Chip) : Chip :=
  match (c.eng e).wait with
  | some (.waite d _) => c.modEng e fun x => x.wake d 1
  | _ => c

/-- WAITT (R198, R199). The target time is kept in ns; ON_TIME opens an anchored run (R212). -/
def waittOp (e : Eng) (d a : BitVec 5) (lim : BitVec 13) (c : Chip) : Chip :=
  c.issue e (.waitt e d a lim) fun _ c =>
    let t := ((c.eng e).g5 a).toNat / 2 ^ 16
    let df := timeDiff t c.nowNs
    if !c.timeValid then .ok (c.retG e d 4)
    else if df < 0 then .ok (c.retG e d 1)
    else if df = 0 then .ok ((c.retG e d 0).modEng e fun x => { x with anchor := some (t, 0) })
    else if e.isSe ∧ lim = 0 then .ok (c.retG e d 3)
    else .ok (c.modEng e fun x => { x with wait := some (.waitt d.toNat t) })

/-- WAITT_ON_TIME (R198, R200): schedule time reaches the target. -/
def waittOnTimeOp (e : Eng) (c : Chip) : Chip :=
  match (c.eng e).wait with
  | some (.waitt d t) => (c.passTo t).modEng e fun x => { x.wake d 0 with anchor := some (t, 0) }
  | _ => c

/-- WAITT_LIMIT (R198, R199): on a stripe engine. -/
def waittLimitOp (e : Eng) (c : Chip) : Chip :=
  match (c.eng e).wait with
  | some (.waitt d _) => if e.isSe then c.modEng e fun x => x.wake d 3 else c
  | _ => c

/-- PEND (R203). -/
def pendOp (e : Eng) (d : BitVec 5) (line : BitVec 8) (c : Chip) : Chip :=
  c.issueG e (.pend e d line) d fun x => BitVec.ofNat 64 (x.getPend line.toNat)

/-- CLRE (R203). -/
def clreOp (e : Eng) (d : BitVec 5) (line : BitVec 8) (c : Chip) : Chip :=
  c.issueReg e (.clre e d line) fun x => (x.setG d.toNat (BitVec.ofNat 64 (x.getPend line.toNat))).setPend line.toNat 0

/-! ## Actions: GATE, HOLD, WAKE, SIG, SNAPT (R206–R214) -/

/-- A class is preemptable on a port: preemption is enabled and the class is not express. -/
def Chip.preemptable (c : Chip) (p tc : Nat) : Bool := c.eff (recTrd p) 0x100 5 == 1 && !bitAt (c.eff (recTrd p) 0x100 8) tc

/-- A port's hold request is asserted or released; a preemptable frame in progress is pre-empted once verify has succeeded (R578). -/
def Chip.setHold (c : Chip) (p : Nat) (on : Bool) : Chip :=
  let cut := on && (c.port p).verified && (c.port p).tx.any fun f => f.tc < 8 && c.preemptable p f.tc
  c.modPort p fun x => { x with hold := on, preempted := x.preempted || cut }

/-- Heddles after GATE (R206). -/
def gateBits (old imm : Nat) : Nat :=
  let mask := imm % 256
  let opn := imm / 256 % 256
  (old &&& (255 - mask)) ||| (opn &&& mask)

/-- ARG1 of a SNAPT record: the engine and its tag. -/
def snaptArg (e tag : Nat) : Nat := (if e < 16 then e else e - 16) + 16 * b2n (decide (16 ≤ e)) + 256 * tag

/-- An action of engine `e` takes effect. -/
def Chip.actOn (c : Chip) (e : Nat) : Action → Chip
  | .gate imm => c.modPort (e - 16) fun x => { x with heddles := gateBits x.heddles imm }
  | .hold on => c.setHold (e - 16) on
  | .wake g release =>
    if release then c.modPort (e - 16) fun x => { x with wakes := terase x.wakes g }
    else
      let now := c.nowNs
      let c := (c.modPort (e - 16) fun x => { x with wakes := tinsert (terase x.wakes g) g now }).request (c.groupMask g)
      if c.pwr.waking &&& c.groupMask g = 0 then c.pulse 0xEF else { c with pwr := { c.pwr with wakePulse := true } }
  | .sig k =>
    if e < 16 then c.pulse (0x80 + 4 * e + k)
    else
      let c := c.pulse (0xC0 + 8 * (e - 16) + k)
      if k = 7 then c.modPort (e - 16) fun x => { x with gapAt := some c.nowNs } else c
  | .snapt tag => { c with snp := { c.snp with requests := c.snp.requests ++ [(1, snaptArg e tag)] } }

/-- An action is anchored, up to eight after their WAITT, or takes effect at once (R212–R214). -/
def Chip.act (c : Chip) (e : Eng) (i : Instr) (a : Action) : Chip :=
  c.issue e i fun _ c =>
    match (c.eng e).anchor with
    | some (t, n) =>
      if n < 8 then .ok (c.modEng e fun x => { x with actions := x.actions ++ [(t, a)], anchor := some (t, n + 1) }.advance)
      else .ok ((c.modEng e Engine.advance).actOn e a)
    | none => .ok ((c.modEng e Engine.advance).actOn e a)

def sigOp (e : Eng) (imm : BitVec 16) (c : Chip) : Chip := c.act e (.sig e imm) (.sig imm.toNat)
def snaptOp (e : Eng) (imm : BitVec 16) (c : Chip) : Chip := c.act e (.snapt e imm) (.snapt imm.toNat)
def gateOp (e : Eng) (imm : BitVec 16) (c : Chip) : Chip := c.act e (.gate e imm) (.gate imm.toNat)
def holdOp (e : Eng) (imm : BitVec 16) (c : Chip) : Chip := c.act e (.hold e imm) (.hold (imm.toNat % 2 == 1))
def wakeOp (e : Eng) (imm : BitVec 16) (c : Chip) : Chip := c.act e (.wake e imm) (.wake (imm.toNat % 16) (bitAt imm.toNat 8))

/-- A deviation that the Guard counts for a port (R585, R713). -/
def Chip.deviation (c : Chip) (p : Nat) : Chip :=
  { c with grd := { c.grd with devCount := tput c.grd.devCount 0 p (satAdd 16 (tget c.grd.devCount 0 p) 1) } }.setCause (recTrd p) 5

/-- ANCHORED_ACTION (R212, R585): the engine's oldest anchored action takes effect, `dev` ns from its target. -/
def anchoredActionOp (e : Eng) (dev : Nat) (c : Chip) : Chip :=
  match (c.eng e).actions with
  | [] => c
  | (t, a) :: r =>
    let c := ((c.passTo t).modEng e fun x => { x with actions := r }).actOn e a
    if e.isSe then c
    else
      let p := e.val - 16
      let c := { c with grd := { c.grd with devMax := tput c.grd.devMax 0 p (max (tget c.grd.devMax 0 p) (min 65535 dev)) } }
      if 50 < dev then c.deviation p else c

/-! ## RDT, CSRR, END, FAULT, NOP (R205, R215–R218) -/

/-- RDT (R140, R205). -/
def rdtOp (e : Eng) (d a b : BitVec 5) (c : Chip) : Chip := c.issue e (.rdt e d a b) fun _ c => .ok (c.retG e d c.nowLayout)

/-- CSRR's value by its selector (R205). -/
def Chip.csr (c : Chip) (e : Eng) (sel : Nat) : Nat :=
  let x := c.eng e
  let lidx (i : Nat) : Nat := ((x.loops[i]?).map (·.index)).getD 0
  match sel with
  | 0 => if e.isSe then e.val else e.val - 16 + 256
  | 1 => c.par.role.code
  | 2 => c.pwr.modeEff
  | 3 => lidx 0
  | 4 => lidx 1
  | 5 => lidx 2
  | 6 => lidx 3
  | 7 => c.tmb.epoch
  | 8 => b2n c.timeValid + 2 * b2n (c.tmb.state == .locked)
  | 9 => if e.isSe then x.issued else 0
  | 10 => if e.isSe then x.confirmed else 0
  | 11 => if e.isSe then 0 else x.cycleNo
  | _ => 0

/-- CSRR (R205). -/
def csrrOp (e : Eng) (d a b : BitVec 5) (c : Chip) : Chip := c.issue e (.csrr e d a b) fun _ c => .ok (c.retG e d (c.csr e a.toNat))

/-- END (R215–R217). -/
def endPOp (e : Eng) (imm : BitVec 16) (c : Chip) : Chip :=
  c.issue e (.endP e imm) fun r c =>
    if e.isSe then
      if r.taken.isEmpty then .ok (c.modEng e fun x => { x with run := none, anchor := none, loops := [] }) else lxFault fOpenEntry
    else .ok (c.modEng e fun x => { x with wait := some .cycle })

/-- FAULT (R224): SOFT with its code. -/
def faultPOp (e : Eng) (imm : BitVec 16) (c : Chip) : Chip := c.issue e (.faultP e imm) fun _ _ => .error (fSoft, imm.toNat)

/-- NOP. -/
def nopOp (e : Eng) (imm : BitVec 16) (c : Chip) : Chip := c.issueReg e (.nop e imm) fun x => x

/-! ## Pulses, dispatch, the watchdog (R176, R179, R220–R223, R229) -/

/-- A pulse reaches one engine (R196, R223). -/
def Chip.pulseTo (c : Chip) (line e : Nat) : Chip :=
  let x := c.eng e
  let count : Chip :=
    if x.getPend line < 65535 then c.modEng e fun x => x.setPend line (x.getPend line + 1)
    else (c.modEng e fun x => { x with evtLost := satAdd 32 x.evtLost 1 }).setCause (recEng e) 4
  match x.wait with
  | some (.waite d l) => if l = line then c.modEng e fun x => x.wake d 0 else count
  | _ => count

/-- EVENT_PULSE_ARRIVE (R220–R223): the oldest pulse reaches every engine. -/
def eventPulseArriveOp (c : Chip) : Chip :=
  match c.pulses with
  | [] => c
  | l :: r => (List.range 20).foldl (fun c e => c.pulseTo l e) { c with pulses := r }

/-- The stripe engines that the items of an admitted host entry go to. -/
def Chip.entryEngines (c : Chip) (e : BitVec 512) : List Nat :=
  let v := eField e 4 1
  let bs := (c.vol v).blockSize
  ((c.volParts v (eField e 8 8 * bs) (eField e 0x10 4 * bs)).map fun p => ownerOf (c.vol v).array p.stripe).dedup

/-- A host entry admitted before `seq`, not yet divided into items, will bring engine `e` an item (R179). -/
def Chip.earlierEntry (c : Chip) (e seq : Nat) : Bool :=
  c.funcs.any fun f => f.2.queues.any fun g => g.1 != 0 && g.2.work.any fun a =>
    a.status.isNone && a.left == 0 && decide (0 < timeDiff seq a.seq) && (c.entryEngines a.entry).contains e

/-- ITEM_DISPATCH (R141, R176, R179–R181, R232, R809): an idle engine starts its next item; a gated one is requested. -/
def itemDispatchOp (e : Se) (c : Chip) : Chip :=
  let x := c.eng e
  if x.run.isSome || x.faulted || !c.clocked || c.vault.stopped then c
  else match c.nextItem e with
    | none => c
    | some i =>
      if c.isGated e then c.request (seUnits e)
      else if c.earlierEntry e i.seq then c
      else match c.imageOf e i.slot i.ep i.seq with
        | none => (c.modEng e fun x => x.unqueue i.handle).completeItem e i stNoProgram 0 c.nowNs
        | some m =>
          let area := dispatchArea i.slot
          let g : Tab W64 := (([area, i.handle, i.seq] ++ m.params.take 4).zipIdx 1).foldl (fun t v => tput t 0 v.2 (BitVec.ofNat 64 v.1)) []
          (c.commitEntry i).setEng e { x.unqueue i.handle with
            g := g, w := [], p := 0, pc := (m.entries.getD i.ep (0, 0)).1, loops := [], wait := none, anchor := none
            lm := mwrite zeros x.lm area i.bytes
            run := some { slot := i.slot, ep := i.ep, image := m, taken := [i], started := c.tmb.up } }

/-- The word at an engine's PC: a free value in a stock program (log entry 32). -/
def Chip.wordAt (c : Chip) (e : Nat) : Nat × Chip :=
  let x := c.eng e
  match x.run with
  | none => (0, c)
  | some r => match r.image.code[x.pc]? with
    | some w => (w.toNat, c)
    | none => if r.image.code.isEmpty then c.fresh (2 ^ 32) else (0, c)

/-- WCET_EXCEEDED (R229, R254): a program that runs exceeds its proven count. -/
def wcetExceededOp (e : Eng) (c : Chip) : Chip :=
  let x := c.eng e
  if x.run.isNone ∨ x.wait = some .cycle then c
  else
    let (w, c) := c.wordAt e
    c.engineFault e fWcet 0 w

/-! ## Meanings -/

def execShut (e : Eng) (d a b : BitVec 5) (s : State) := onChip (shutOp e d a b) s
def execTake (e : Eng) (d a b : BitVec 5) (s : State) := onChip (takeOp e d a b) s
def execJrnl (e : Eng) (d a b : BitVec 5) (s : State) := onChip (jrnlOp e d a b) s
def execMirr (e : Eng) (d a b : BitVec 5) (s : State) := onChip (mirrOp e d a b) s
def execLand (e : Eng) (d a : BitVec 5) (lim : BitVec 13) (s : State) := onChip (landOp e d a lim) s
def execLandLimit (e : Se) (s : State) := onChip (landLimitOp e) s
def execCmpl (e : Eng) (d a b : BitVec 5) (s : State) := onChip (cmplOp e d a b) s
def execWaite (e : Eng) (d : BitVec 5) (line : BitVec 8) (lim : BitVec 13) (s : State) := onChip (waiteOp e d line lim) s
def execWaiteLimit (e : Eng) (s : State) := onChip (waiteLimitOp e) s
def execWaitt (e : Eng) (d a : BitVec 5) (lim : BitVec 13) (s : State) := onChip (waittOp e d a lim) s
def execWaittOnTime (e : Eng) (s : State) := onChip (waittOnTimeOp e) s
def execWaittLimit (e : Eng) (s : State) := onChip (waittLimitOp e) s
def execSig (e : Eng) (imm : BitVec 16) (s : State) := onChip (sigOp e imm) s
def execSnapt (e : Eng) (imm : BitVec 16) (s : State) := onChip (snaptOp e imm) s
def execGate (e : Eng) (imm : BitVec 16) (s : State) := onChip (gateOp e imm) s
def execHold (e : Eng) (imm : BitVec 16) (s : State) := onChip (holdOp e imm) s
def execWake (e : Eng) (imm : BitVec 16) (s : State) := onChip (wakeOp e imm) s
def execPend (e : Eng) (d : BitVec 5) (line : BitVec 8) (s : State) := onChip (pendOp e d line) s
def execClre (e : Eng) (d : BitVec 5) (line : BitVec 8) (s : State) := onChip (clreOp e d line) s
def execRdt (e : Eng) (d a b : BitVec 5) (s : State) := onChip (rdtOp e d a b) s
def execCsrr (e : Eng) (d a b : BitVec 5) (s : State) := onChip (csrrOp e d a b) s
def execEndP (e : Eng) (imm : BitVec 16) (s : State) := onChip (endPOp e imm) s
def execFaultP (e : Eng) (imm : BitVec 16) (s : State) := onChip (faultPOp e imm) s
def execNop (e : Eng) (imm : BitVec 16) (s : State) := onChip (nopOp e imm) s
def execAnchoredAction (e : Eng) (devNs : Nat) (s : State) := onChip (anchoredActionOp e devNs) s
def execEventPulseArrive (s : State) := onChip eventPulseArriveOp s
def execItemDispatch (e : Se) (s : State) := onChip (itemDispatchOp e) s
def execWcetExceeded (e : Eng) (s : State) := onChip (wcetExceededOp e) s
def execTicketLocalComplete (e : Se) (t : BitVec 48) (s : State) := onChip (ticketLocalCompleteOp e t) s

end Sys2Proof.Machine
end

