-- ==== Sys2Proof/Machine/Sm.lean ====
section
/-! DEFINITION. The Chinese algorithms that the spec names: the SM3 digest and its HMAC, and the SM2 signature check under GB/T 32918 (R247; PRESUMED, log
entry 43: the spec names the standards and does not repeat them). -/

namespace Sys2Proof.Machine

/-! ## SM3

Words are numbers below 2^32. -/

def sm3Iv : List Nat := [0x7380166f, 0x4914b2b9, 0x172442d7, 0xda8a0600, 0xa96f30bc, 0x163138aa, 0xe38dee4d, 0xb0fb0e4e]

/-- A word rotated left. -/
def rotl (x n : Nat) : Nat := x * 2 ^ n % 2 ^ 32 + x / 2 ^ (32 - n)

def sm3P0 (x : Nat) : Nat := x ^^^ rotl x 9 ^^^ rotl x 17
def sm3P1 (x : Nat) : Nat := x ^^^ rotl x 15 ^^^ rotl x 23

/-- The message words, latest first, expanded by `n` more. -/
def sm3Expand : Nat → List Nat → List Nat
  | 0, l => l
  | n + 1, l =>
    let w (k : Nat) : Nat := l.getD (k - 1) 0
    sm3Expand n ((sm3P1 (w 16 ^^^ w 9 ^^^ rotl (w 3) 15) ^^^ rotl (w 13) 7 ^^^ w 6) :: l)

/-- The eight working registers. -/
structure Sm3Regs where
  a : Nat
  b : Nat
  c : Nat
  d : Nat
  e : Nat
  f : Nat
  g : Nat
  h : Nat
deriving DecidableEq, Repr

/-- One round `j` with W_j and W_j+4. -/
def sm3Round (j w w4 : Nat) (v : Sm3Regs) : Sm3Regs :=
  let t : Nat := if j < 16 then 0x79cc4519 else 0x7a879d8a
  let ss1 := rotl ((rotl v.a 12 + v.e + rotl t (j % 32)) % 2 ^ 32) 7
  let ss2 := ss1 ^^^ rotl v.a 12
  let ff := if j < 16 then v.a ^^^ v.b ^^^ v.c else (v.a &&& v.b) ||| (v.a &&& v.c) ||| (v.b &&& v.c)
  let gg := if j < 16 then v.e ^^^ v.f ^^^ v.g else (v.e &&& v.f) ||| ((0xFFFFFFFF - v.e) &&& v.g)
  let tt1 := (ff + v.d + ss2 + (w ^^^ w4)) % 2 ^ 32
  let tt2 := (gg + v.h + ss1 + w) % 2 ^ 32
  { a := tt1, b := v.a, c := rotl v.b 9, d := v.c, e := sm3P0 tt2, f := v.e, g := rotl v.f 19, h := v.g }

/-- The 64 rounds over 68 words. -/
def sm3Rounds : Nat → Nat → List Nat → Sm3Regs → Sm3Regs
  | 0, _, _, v => v
  | n + 1, j, l, v => sm3Rounds n (j + 1) (l.drop 1) (sm3Round j (l.headD 0) (l.getD 4 0) v)

/-- The big-endian words of bytes. -/
def wordsBe : Nat → List Byte → List Nat
  | 0, _ => []
  | n + 1, l => ofBe (l.take 4) :: wordsBe n (l.drop 4)

/-- One 64-byte block into the chaining value. -/
def sm3Block (v : List Nat) (block : List Byte) : List Nat :=
  let ws := (sm3Expand 52 (wordsBe 16 block).reverse).reverse
  let g (i : Nat) : Nat := v.getD i 0
  let r := sm3Rounds 64 0 ws ⟨g 0, g 1, g 2, g 3, g 4, g 5, g 6, g 7⟩
  List.zipWith (· ^^^ ·) [r.a, r.b, r.c, r.d, r.e, r.f, r.g, r.h] v

/-- `n` blocks. -/
def sm3Blocks : Nat → List Nat → List Byte → List Nat
  | 0, v, _ => v
  | n + 1, v, l => sm3Blocks n (sm3Block v (l.take 64)) (l.drop 64)

/-- The SM3 digest of bytes: 32 bytes. -/
def sm3 (l : List Byte) : List Byte :=
  let n := l.length
  let zeros := (55 + 64 - n % 64) % 64
  let m := l ++ [0x80] ++ List.replicate zeros 0 ++ beBytes 8 (8 * n)
  (sm3Blocks (m.length / 64) sm3Iv m).flatMap fun w => beBytes 4 w

/-- HMAC-SM3 of a message under a key. -/
def hmacSm3 (key msg : List Byte) : List Byte :=
  let k := if 64 < key.length then sm3 key else key
  let k := k ++ List.replicate (64 - k.length) 0
  sm3 ((k.map (· ^^^ 0x5C)) ++ sm3 ((k.map (· ^^^ 0x36)) ++ msg))

/-! ## SM2 -/

def sm2P : Nat := 0xFFFFFFFEFFFFFFFFFFFFFFFFFFFFFFFFFFFFFFFF00000000FFFFFFFFFFFFFFFF
def sm2A : Nat := 0xFFFFFFFEFFFFFFFFFFFFFFFFFFFFFFFFFFFFFFFF00000000FFFFFFFFFFFFFFFC
def sm2B : Nat := 0x28E9FA9E9D9F5E344D5A9E4BCF6509A7F39789F515AB8F92DDBCBD414D940E93
def sm2N : Nat := 0xFFFFFFFEFFFFFFFFFFFFFFFFFFFFFFFF7203DF6B21C6052B53BBF40939D54123
def sm2Gx : Nat := 0x32C4AE2C1F1981195F9904466A39C9948FE30BBFF2660BE1715A4589334C74C7
def sm2Gy : Nat := 0xBC3736A2F4F6779C59BDCEE36B692153D0A9877CC62A474002DF32E52139F0A0

/-- `b` to the power of a number below 2^n, modulo `m`. -/
def powMod (m : Nat) : Nat → Nat → Nat → Nat
  | 0, _, _ => 1
  | n + 1, b, k => let r := powMod m n (b * b % m) (k / 2); if k % 2 = 1 then r * b % m else r

/-- The inverse modulo the field prime. -/
def invP (x : Nat) : Nat := powMod sm2P 256 x (sm2P - 2)

/-- A point (x / z^2, y / z^3) of the curve; z = 0 is the point at infinity. -/
structure Point where
  x : Nat
  y : Nat
  z : Nat
deriving DecidableEq, Repr

/-- The difference modulo the field prime of two numbers below it. -/
def subP (a b : Nat) : Nat := (a + sm2P - b) % sm2P

/-- A point added to itself. -/
def ecDouble (p : Point) : Point :=
  let yy := p.y * p.y % sm2P
  let s := 4 * p.x * yy % sm2P
  let zz := p.z * p.z % sm2P
  let m := (3 * p.x * p.x + sm2A * zz % sm2P * zz) % sm2P
  let x := subP (m * m % sm2P) (2 * s % sm2P)
  ⟨x, subP (m * subP s x % sm2P) (8 * yy * yy % sm2P), 2 * p.y * p.z % sm2P⟩

/-- The sum of two points. -/
def ecAdd (p q : Point) : Point :=
  if p.z = 0 then q
  else if q.z = 0 then p
  else
    let pz := p.z * p.z % sm2P
    let qz := q.z * q.z % sm2P
    let u := p.x * qz % sm2P
    let s := p.y * qz % sm2P * q.z % sm2P
    let h := subP (q.x * pz % sm2P) u
    let r := subP (q.y * pz % sm2P * p.z % sm2P) s
    if h = 0 then (if r = 0 then ecDouble p else ⟨1, 1, 0⟩)
    else
      let hh := h * h % sm2P
      let v := u * hh % sm2P
      let w := h * hh % sm2P
      let x := subP (subP (r * r % sm2P) w) (2 * v % sm2P)
      ⟨x, subP (r * subP v x % sm2P) (s * w % sm2P), h * p.z % sm2P * q.z % sm2P⟩

/-- `k` times a point, for `k` below 2^n. -/
def ecMul : Nat → Nat → Point → Point
  | 0, _, _ => ⟨1, 1, 0⟩
  | n + 1, k, p => let r := ecMul n (k / 2) (ecDouble p); if k % 2 = 1 then ecAdd p r else r

/-- A public key of 64 bytes is a point of the curve. -/
def sm2KeyOk (key : List Byte) : Bool :=
  let x := ofBe (key.take 32)
  let y := ofBe (key.drop 32)
  key.length == 64 && decide (x < sm2P) && decide (y < sm2P) && y * y % sm2P == (x * x % sm2P * x + sm2A * x + sm2B) % sm2P

/-- The digest that an SM2 signature signs: SM3 of Z and the message (GB/T 32918). -/
def sm2Digest (ident key msg : List Byte) : Nat :=
  let z := sm3 (beBytes 2 (8 * ident.length) ++ ident ++ beBytes 32 sm2A ++ beBytes 32 sm2B ++ beBytes 32 sm2Gx ++ beBytes 32 sm2Gy ++ key)
  ofBe (sm3 (z ++ msg))

/-- An SM2 signature, r then s, of a message under a public key and an identifier. -/
def sm2Verify (ident key msg sig : List Byte) : Bool :=
  let r := ofBe (sig.take 32)
  let s := ofBe ((sig.drop 32).take 32)
  let t := (r + s) % sm2N
  let p := ecAdd (ecMul 256 s ⟨sm2Gx, sm2Gy, 1⟩) (ecMul 256 t ⟨ofBe (key.take 32), ofBe (key.drop 32), 1⟩)
  sig.length == 64 && sm2KeyOk key && decide (1 ≤ r) && decide (r < sm2N) && decide (1 ≤ s) && decide (s < sm2N) && t != 0 && p.z != 0 &&
  (sm2Digest ident key msg + p.x * invP (p.z * p.z % sm2P) % sm2P) % sm2N == r

/-- The ASCII bytes of a name. -/
def ascii (s : String) : List Byte := s.toList.map fun c => BitVec.ofNat 8 c.toNat

end Sys2Proof.Machine
end

