-- ==== Sys2Proof/Machine/Loader.lean ====
section
/-! DEFINITION. The loader (05): the image format, the checks of R251 in their order, the proof of the worst-case count (R253), installing, unloading, the owner
key slots and the retirement of replaced images. -/

namespace Sys2Proof.Machine

/-! ## Image format (R242–R245) -/

/-- `n` bytes of an image from offset `o`, as a number. -/
def imgF (l : List Byte) (o n : Nat) : Nat := ofLe ((l.drop o).take n)

def imgKind (l : List Byte) : Nat := imgF l 0x06 1
def imgWords (l : List Byte) : Nat := imgF l 0x14 2
def imgEntries (l : List Byte) : Nat := imgF l 0x16 1
def imgWins (l : List Byte) : Nat := imgF l 0x17 1
def imgAnnots (l : List Byte) : Nat := imgF l 0x18 2

/-- Byte at which the entry records, window requests, annotations and code begin. -/
def atEntries : Nat := 128
def atWins (l : List Byte) : Nat := 128 + 16 * imgEntries l
def atAnnots (l : List Byte) : Nat := atWins l + 16 * imgWins l
def atCode (l : List Byte) : Nat := atAnnots l + 8 * imgAnnots l

/-- IMAGE_SIZE by its formula (R242). -/
def imgSize (l : List Byte) : Nat := atCode l + 4 * imgWords l + 64

/-- (PC, WCET) of the entries. -/
def entriesOf (l : List Byte) : List (Nat × Nat) :=
  (List.range (imgEntries l)).map fun i => (imgF l (atEntries + 16 * i) 4, imgF l (atEntries + 16 * i + 4) 4)

/-- A window request (R244). -/
structure WinReq where
  space : Nat
  source : Nat
  access : Nat
  size : Nat
  clean : Bool
deriving DecidableEq, Repr

/-- The window requests. -/
def winReqs (l : List Byte) : List WinReq :=
  (List.range (imgWins l)).map fun i =>
    let o := atWins l + 16 * i
    ⟨imgF l o 1, imgF l (o + 1) 1, imgF l (o + 2) 1, imgF l (o + 4) 4, imgF l (o + 3) 1 == 0 && imgF l (o + 8) 8 == 0⟩

/-- (WORD, MAXLEN) of the annotations. -/
def annotsOf (l : List Byte) : List (Nat × Nat) :=
  (List.range (imgAnnots l)).map fun i => (imgF l (atAnnots l + 8 * i) 4, imgF l (atAnnots l + 8 * i + 4) 4)

/-- The instruction words. -/
def codeOf (l : List Byte) : List W32 := (List.range (imgWords l)).map fun i => BitVec.ofNat 32 (imgF l (atCode l + 4 * i) 4)

/-- A window request holds values that R244 gives a meaning. -/
def WinReq.ok (r : WinReq) : Bool :=
  r.clean && decide (r.access < 4) && decide (r.space < 4) && (if r.space = 2 then decide (r.source < 2) else r.source == 0) &&
  (if r.space = 0 then r.size % 64 == 0 else r.size == 0)

/-- Check 0x01: FORMAT. -/
def formatOk (l : List Byte) : Bool :=
  decide (128 ≤ l.length) && imgF l 0 4 == 0x4958424C && imgF l 4 2 == 1 && imgF l 8 4 != 0 && imgF l 0xE 2 == 0 &&
  decide (1 ≤ imgWords l) && decide (imgWords l ≤ 4096) && decide (1 ≤ imgEntries l) && decide (imgEntries l ≤ 16) && decide (imgWins l ≤ 8) &&
  decide (imgAnnots l ≤ 1024) && decide (imgF l 0x1A 1 ≤ if imgKind l = 0 then 3 else 0) && imgF l 0x1B 5 == 0 && imgF l 0x60 32 == 0 &&
  imgF l 0x10 4 == imgSize l && l.length == imgSize l &&
  (List.range (imgEntries l)).all (fun i => imgF l (atEntries + 16 * i + 8) 8 == 0) && (winReqs l).all WinReq.ok

/-! ## Keys (R248, R791) -/

/-- The digest of a key slot; slot 0 was written at manufacture. -/
def Chip.keyDigest (c : Chip) (k : Nat) : Option (List Byte) :=
  if k = 0 then some c.sec.key0 else (c.sec.keys.find? fun x => x.1 == k).map (·.2)

/-- A key slot matches a public key (R248). -/
def Chip.keyMatches (c : Chip) (k : Nat) (pub : List Byte) : Bool :=
  decide (k < 4) && !tget c.sec.revoked false k && decide (c.keyDigest k = some (sm3 pub))

/-- The floor of a program key slot: its highest programmed row (R791). -/
def Chip.keyFloor (c : Chip) (k : Nat) : Nat := (tget c.sec.keyRows [] k).foldl max 0

/-! ## Flow and counts (R251 checks 0x06–0x09, R253) -/

/-- The instruction of each code word for the engine kind; none where it is ILLEGAL. -/
def instrsOf (kind : Nat) (code : List W32) : List (Option Instr) := code.map (decodeLx (if kind = 0 then 0 else 16))

/-- End of the loop body that a word opens, and its bound. -/
def loopOf : Option Instr → Option (Nat × Nat)
  | some (.loop _ _ bound len) => some (len.toNat, bound.toNat)
  | _ => none

/-- Offset of a BRP. -/
def brpOf : Option Instr → Option Nat
  | some (.brp _ _ _ off) => some off.toNat
  | _ => none

/-- END or FAULT. -/
def isEnd : Option Instr → Bool
  | some (.endP ..) | some (.faultP ..) => true
  | _ => false

/-- (first word, last word) of every loop body. -/
def bodies (is : List (Option Instr)) : List (Nat × Nat) :=
  (is.zipIdx.filterMap fun x => (loopOf x.1).map fun m => (x.2 + 1, x.2 + m.1))

/-- The words that some path from the entries reaches; `n` stands for a place past the last word. Control only moves forward, so one pass from word 0 finds them. -/
def reachFrom (n : Nat) : List (Option Instr × Nat) → List Nat → List Nat
  | [], l => l
  | (x, i) :: r, l =>
    if !l.contains i ∨ isEnd x then reachFrom n r l
    else
      let next := (i + 1) :: ((brpOf x).toList.map fun o => i + o) ++ (loopOf x).toList.map fun m => i + m.1 + 1
      reachFrom n r (next.map (min n) ++ l).dedup

/-- Check 0x07: FLOW. -/
def flowOk (is : List (Option Instr)) (pcs : List Nat) : Bool :=
  let n := is.length
  let bs := bodies is
  let brs := is.zipIdx.filterMap fun x => (brpOf x.1).map fun o => (x.2, x.2 + o)
  pcs.all (fun p => decide (p < n)) && brs.all (fun b => decide (b.2 < n)) && bs.all (fun b => decide (b.2 < n)) &&
  brs.all (fun b => bs.all fun s => !(decide (s.1 ≤ b.2) && decide (b.2 ≤ s.2)) || (decide (s.1 ≤ b.1) && decide (b.1 ≤ s.2))) &&
  bs.all (fun s => bs.all fun t => !(decide (s.1 ≤ t.1 - 1) && decide (t.1 - 1 ≤ s.2)) || decide (t.2 ≤ s.2)) &&
  bs.all (fun s => decide ((bs.filter fun t => decide (t.1 ≤ s.1) && decide (s.2 ≤ t.2)).length ≤ 4)) &&
  !(reachFrom n is.zipIdx pcs).contains n

/-- Largest MAXLEN of an annotated instruction; none where a word takes no annotation. -/
def annotLimit : Option Instr → Option Nat
  | some (.syndb ..) => some 262144
  | some (.jrnl ..) => some 256
  | some (.shut ..) => some 16
  | _ => none

/-- Check 0x08: ANNOT. -/
def annotOk (is : List (Option Instr)) (as : List (Nat × Nat)) : Bool :=
  (as.map (·.1)).Nodup && as.all fun a => match annotLimit ((is[a.1]?).getD none) with | some m => decide (a.2 ≤ m) | none => false

/-- Cycles of one instruction other than LOOP, with its MAXLEN; `te` on a Treadle engine (R155, R253). -/
def cyclesOf (te : Bool) (ann : Option Nat) : Option Instr → Nat
  | some (.mul ..) | some (.mulhu ..) => 3
  | some (.divu ..) | some (.remu ..) => 20
  | some (.ld ..) | some (.st ..) => 2
  | some (.sload _ _ _ sp _) => match sp.toNat with | 0 => 2 | 1 => 4 | 2 => 64 | _ => 8
  | some (.sstore _ _ _ sp _) => if sp.toNat = 2 then 8 else 2
  | some (.gfmul ..) | some (.gfmac ..) | some (.synd ..) | some (.gfinv ..) => 2
  | some (.syndb _ _ _ _ _ _ ssp dsp) => 12 + ann.getD 262144 / 32 + if ssp || dsp then 60 else 0
  | some (.shut ..) => 8 + 2 * ann.getD 16
  | some (.take ..) => 16
  | some (.jrnl ..) => 16 + ann.getD 256 / 16
  | some (.mirr ..) | some (.cmpl ..) => 12
  | some (.land _ _ _ lim) => 4 + lim.toNat * 256
  | some (.waite _ _ _ lim) => 2 + lim.toNat * 256
  | some (.waitt _ _ _ lim) => 2 + if te then 0 else lim.toNat * 256
  | some (.sig ..) | some (.snapt ..) | some (.wake ..) | some (.pend ..) | some (.clre ..) => 2
  | _ => 1

/-- What the counts are proved over. -/
structure Proof where
  is : List (Option Instr)
  annots : List (Nat × Nat)
  te : Bool
deriving DecidableEq, Repr

def Proof.at (p : Proof) (i : Nat) : Option Instr := (p.is[i]?).getD none

/-- Largest cost of a path from word `i` on within a region that ends at `hi`: `r` gives that cost for the words after `i`, `body` the cost of a loop body that
ends at its first argument and starts at its second. -/
def Proof.word (p : Proof) (body : Nat → Nat → Nat) (i : Nat) (r : Nat → Nat) : Nat :=
  let x := p.at i
  match loopOf x with
  | some (m, b) =>
    let leave := (List.range m).filterMap fun k => (brpOf (p.at (i + 1 + k))).bind fun o => if i + m < i + 1 + k + o then some (i + 1 + k + o) else none
    2 + b * body (i + m) (i + 1) + (leave.map r).foldl max (r (i + m + 1))
  | none =>
    cyclesOf p.te ((p.annots.find? fun a => a.1 == i).map (·.2)) x +
    if isEnd x then 0 else match brpOf x with | some o => max (r (i + o)) (r (i + 1)) | none => r (i + 1)

/-- Costs of the last `k` words of the region that ends at `hi`, the earliest first. -/
def Proof.table (p : Proof) (body : Nat → Nat → Nat) (hi : Nat) : Nat → List Nat
  | 0 => []
  | k + 1 =>
    let t := p.table body hi k
    let i := hi - k
    p.word body i (fun j => t.getD (j - (i + 1)) 0) :: t

/-- Longest path through the words from `start` to `hi`; `fuel` bounds the nesting of loops. -/
def Proof.longest (p : Proof) : Nat → Nat → Nat → Nat
  | 0, _, _ => 0
  | fuel + 1, hi, start => (p.table (p.longest fuel) hi (hi + 1 - start)).headD 0

/-- The proven count of an entry at `pc` (R253). -/
def Proof.count (p : Proof) (pc : Nat) : Nat := p.longest 5 (p.is.length - 1) pc

/-! ## Windows (R237, R244, R864) -/

/-- LM window range of an engine kind: first byte and end. -/
def lmRange (kind : Nat) : Nat × Nat := if kind = 0 then (0x41000, 0xC0000) else (0x9000, 0x80000)

/-- The engines that a load targets. -/
def targets (kind engine : Nat) : List Nat := if kind = 0 then List.range 16 else [16 + engine]

/-- LM windows in use by any slot of an engine. -/
def Chip.lmUsed (c : Chip) (e : Nat) : List (Nat × Nat) :=
  (c.eng e).slots.flatMap fun s => (s.2.cur.toList ++ s.2.old.toList).flatMap fun i => (i.windows.filter fun w => w.space == 0).map fun w => (w.base, w.base + w.size)

/-- The lowest free place for `n` bytes: the range's start, or the end of a window in use (R864). -/
def placeLm (lo hi n : Nat) (used : List (Nat × Nat)) : Option Nat :=
  let fits (x : Nat) : Bool := decide (lo ≤ x) && decide (x + n ≤ hi) && used.all fun u => decide (x + n ≤ u.1) || decide (u.2 ≤ x)
  ((lo :: used.map (·.2)).filter fits).foldl (fun m x => match m with | some y => some (min x y) | none => some x) none

/-- The windows of an image on engine `e`, in request order; none where one does not fit, is not supplied or leaves its space. -/
def placeWins (e hb hs : Nat) (range : Nat × Nat) : List WinReq → List (Nat × Nat) → Option (List Window)
  | [], _ => some []
  | r :: rest, used =>
    let go (sp base size : Nat) (used : List (Nat × Nat)) : Option (List Window) :=
      (placeWins e hb hs range rest used).map (⟨sp, base, size, r.access % 2 == 1, 2 ≤ r.access⟩ :: ·)
    match r.space with
    | 0 => match placeLm range.1 range.2 r.size used with
      | some x => go 0 x r.size ((x, x + r.size) :: used)
      | none => none
    | 1 => go 1 (0x200000 * e) 0x200000 used
    | 2 =>
      if r.source = 0 then go 2 0 0x200000000 used
      else if hs = 0 ∨ 24576 < hb + hs then none
      else go 2 (hb * 0x100000) (hs * 0x100000) used
    | _ => go 3 0 0x4000000 used

/-! ## The checks (R251) -/

/-- A Treadle engine's slot is selected to run: by its effective set, or by its staged set, with RUN set (R258, R586). -/
def Chip.teSelected (c : Chip) (p k : Nat) : Bool :=
  let r := recTrd p
  (c.eff r 0x108 0 == 1 && c.eff r 0x108 1 == k) || ((c.blk r).staged && c.acc r 0x108 0 == 1 && c.acc r 0x108 1 == k)

/-- The reason code with which the loader rejects an image; none when it accepts. -/
def Chip.loadReason (c : Chip) (slot engine hb hs : Nat) (l : List Byte) : Option Nat :=
  let kind := imgKind l
  let is := instrsOf kind (codeOf l)
  let es := entriesOf l
  let p : Proof := ⟨is, annotsOf l, kind == 1⟩
  let pub := (l.drop 0x20).take 64
  let key := imgF l 7 1
  let suits := (kind == 0 && engine == 0xFF && decide (slot < 8)) || (kind == 1 && decide (engine < 4) && decide (slot < 2))
  let ts := targets kind engine
  let rej (ok : Bool) (n : Nat) (k : Option Nat) : Option Nat := if ok then k else some n
  rej (formatOk l) 1 <| rej (c.keyMatches key pub) 2 <|
  rej (sm2Verify (ascii "LANIBEX-IMAGE") pub (l.take (imgSize l - 64)) (l.drop (imgSize l - 64))) 3 <|
  rej (decide (c.keyFloor key ≤ imgF l 0xC 2)) 4 <|
  rej (suits && (kind == 0 || (winReqs l).all fun w => w.space == 0)) 5 <|
  rej (is.all (·.isSome)) 6 <| rej (flowOk is (es.map (·.1))) 7 <| rej (annotOk is (annotsOf l)) 8 <|
  rej (es.all fun x => x.2 == p.count x.1) 9 <|
  rej (es.all fun x => ts.all fun e => decide (x.2 ≤ c.acc (recEng e) (0x200 + 16 * slot) 0)) 10 <|
  rej (ts.all fun e => (placeWins e hb hs (lmRange kind) (winReqs l) (c.lmUsed e)).isSome) 11 <|
  rej (if kind = 0 then ts.all fun e => (c.slot e slot).old.isNone else !c.teSelected engine slot) 12 none

/-! ## Measurements (R798, R799) -/

/-- MEASi. -/
def Chip.meas (c : Chip) (i : Nat) : List Byte := tget c.sec.meas (List.replicate 32 0) i

/-- An extend of MEASi with the 32 bytes `d` (R799). -/
def Chip.extend (c : Chip) (i : Nat) (d : List Byte) : Chip :=
  { c with sec := { c.sec with meas := tput c.sec.meas (List.replicate 32 0) i (sm3 (c.meas i ++ d)) } }

/-- An extend with 32 bytes that the spec does not lay out: the key-slot and floor state, or an unloaded program (log entry 4). -/
def Chip.extendFree (c : Chip) (i : Nat) : Chip :=
  let (d, c) := c.freshBytes 32
  c.extend i d

/-! ## Installing (R237, R255–R257) -/

/-- An image as it stands in a slot of engine `e`. -/
def imageOn (l : List Byte) (seq : Nat) (params : List Nat) (ws : List Window) : Image :=
  { progId := imgF l 8 4, version := imgF l 0xC 2, keySlot := imgF l 7 1, channels := imgF l 0x1A 1, entries := entriesOf l, windows := ws,
    annots := annotsOf l, code := codeOf l, codeWords := imgWords l, params := params, loadSeq := seq }

/-- The window table of an image: eight 8-byte bases. -/
def winTableBytes (ws : List Window) : List Byte :=
  (List.range 8).flatMap fun i => leBytes 8 (match ws[i]? with | some w => w.base | none => 0)

/-- An image takes slot `k` of engine `e`; on a stripe engine the replaced one is retired (R255, R257). -/
def Chip.install (c : Chip) (e k : Nat) (m : Image) : Chip :=
  c.modEng e fun x => { x with
    slots := tput x.slots {} k { cur := some m, old := if e < 16 then (tget x.slots {} k).cur else none }
    lm := mwrite zeros x.lm (winTable e k) (winTableBytes m.windows) }

/-- PROG_LOAD (R251, R255, R312, R313): its data has come. -/
def progLoadOp (f : Fn) (ix : BitVec 16) (c : Chip) : Chip :=
  c.onEntry f 0 ix.toNat 0x30 fun a c =>
    match a.data with
    | none => c
    | some l =>
      let en := a.entry
      let slot := eField en 4 1
      let engine := eField en 5 1
      let hb := eField en 0x34 2
      let hs := eField en 0x36 2
      match c.loadReason slot engine hb hs l with
      | some n => c.finish f 0 a.pos stLoadRejected n
      | none =>
        let params := [eField en 8 8, eField en 0x10 8, eField en 0x18 8, eField en 0x20 8]
        let c := (targets (imgKind l) engine).foldl (fun c e =>
          c.install e slot (imageOn l a.seq params ((placeWins e hb hs (lmRange (imgKind l)) (winReqs l) (c.lmUsed e)).getD []))) c
        (c.extend 5 (sm3 l)).finish f 0 a.pos stOk 0

/-! ## Unloading and keys (R249, R250, R259, R314–R316) -/

/-- Something names the slot (R259): a bound array, an ingest window, a chain, or a selected Treadle slot. -/
def Chip.slotNamed (c : Chip) (engine slot : Nat) : Bool :=
  if engine = 0xFF then
    ((List.range 16).any fun n => (c.arr n).made && (c.acc (recSe n) 0x100 0 == slot || c.acc (recSe n) 0x500 0 == slot)) ||
    ((List.range 256).any fun x => c.acc 81 (winOff x) 0 == 1 && c.acc 81 (winOff x + 6) 0 == slot) ||
    (c.rma.twrs.any fun t => (t.2.state == 1 || t.2.state == 2) && t.2.action == 6 && t.2.f 3 1 % 8 == slot)
  else c.acc (recTrd engine) 0x108 0 == 1 && c.acc (recTrd engine) 0x108 1 == slot

/-- PROG_UNLOAD (R259, R314). -/
def progUnloadOp (f : Fn) (ix : BitVec 16) (c : Chip) : Chip :=
  c.onAdmin f ix.toNat 0x31 fun a c =>
    let slot := eField a.entry 4 1
    let engine := eField a.entry 5 1
    if !(engine == 0xFF || decide (engine < 4)) then ((stRange, 5), c)
    else if (if engine = 0xFF then 8 else 2) ≤ slot then ((stRange, 4), c)
    else if c.slotNamed engine slot then ((stQueueBusy, 0), c)
    else ((stOk, 0), (targets (if engine = 0xFF then 0 else 1) engine).foldl (fun c e =>
      c.modEng e fun x => { x with
        slots := tput x.slots {} slot {}
        lm := mwrite zeros x.lm (winTable e slot) (List.replicate 64 0) }) (c.extendFree 5))

/-- OWNER_KEY_SET (R315): its data has come. -/
def ownerKeySetOp (f : Fn) (ix : BitVec 16) (c : Chip) : Chip :=
  c.onEntry f 0 ix.toNat 0x32 fun a c =>
    match a.data with
    | none => c
    | some l =>
      let k := eField a.entry 4 1
      if k = 0 ∨ 4 ≤ k then c.finish f 0 a.pos stRange 4
      else if (c.keyDigest k).isSome then c.finish f 0 a.pos stState 1
      else ({ c with sec := { c.sec with keys := tinsert c.sec.keys k (sm3 l) } }.extendFree 4).finish f 0 a.pos stOk 0

/-- OWNER_KEY_REVOKE (R250, R316). -/
def ownerKeyRevokeOp (f : Fn) (ix : BitVec 16) (c : Chip) : Chip :=
  c.onAdmin f ix.toNat 0x33 fun a c =>
    let k := eField a.entry 4 1
    if k = 0 ∨ 4 ≤ k then ((stRange, 4), c)
    else match c.keyDigest k with
      | none => ((stState, 3), c)
      | some d =>
        if tget c.sec.revoked false k then ((stState, 2), c)
        else if d.take 4 ≠ leBytes 4 (eField a.entry 8 4) then ((stMalformed, 8), c)
        else ((stOk, 0), { c with sec := { c.sec with revoked := tput c.sec.revoked false k true } }.extendFree 4)

/-- OLD_IMAGE_RETIRE (R257): no older item names the slot. -/
def oldImageRetireOp (e : Se) (k : Fin 8) (c : Chip) : Chip :=
  let s := c.slot e k.val
  match s.cur, s.old with
  | some i, some _ =>
    if (c.eng e).items.any (fun x => x.slot == k.val && decide (0 < timeDiff i.loadSeq x.seq)) ||
        (c.eng e).run.any (fun r => r.slot == k.val && decide (r.image ≠ i)) then c
    else c.modEng e fun x => { x with slots := tput x.slots {} k.val { s with old := none } }
  | _, _ => c

/-! ## Meanings -/

def execProgLoad (f : Fn) (ix : BitVec 16) (s : State) := onChip (progLoadOp f ix) s
def execProgUnload (f : Fn) (ix : BitVec 16) (s : State) := onChip (progUnloadOp f ix) s
def execOwnerKeySet (f : Fn) (ix : BitVec 16) (s : State) := onChip (ownerKeySetOp f ix) s
def execOwnerKeyRevoke (f : Fn) (ix : BitVec 16) (s : State) := onChip (ownerKeyRevokeOp f ix) s
def execOldImageRetire (e : Se) (k : Fin 8) (s : State) := onChip (oldImageRetireOp e k) s

end Sys2Proof.Machine
end

