-- ==== Sys2Proof/Machine/QueueCmds.lean ====
section
/-! DEFINITION. The meanings of the configuration rows (02) and of the work-queue rows (06) over the operations of Commit.lean and Queues.lean. -/

namespace Sys2Proof.Machine

/-- CONFIG_REQUEST (R266): Retry Status until the host ports are ready; a port in reset answers nothing. -/
def configRequestOp (port : Bool) (c : Chip) : Chip :=
  if bitAt c.pwr.perst (b2n port) then c else c.emit (.configReply port (!c.pwr.hostReady))

/-- The functions whose reset loses the host tier: the physical function that set the host area (R648). -/
def Chip.loseHostTier (c : Chip) (fs : List Nat) : Chip :=
  match c.rma.hostArea with
  | some (f, _, _) =>
    if fs.contains f then
      ((c.rma.qps.filter fun q => q.2.any fun x => x.tier1).map (·.1)).foldl (fun c n => c.qpError n 4) { c with rma := { c.rma with hostArea := none } }
    else c
  | none => c

/-- FUNCTION_LEVEL_RESET (R325, R327, R329, R648). -/
def functionLevelResetOp (f : Fn) (c : Chip) : Chip :=
  if (c.fn f).flr.isSome then c else (c.startFlr f).loseHostTier (flrSet f)

/-! ## Meanings -/

def execConfigRequest (port : Bool) (s : State) := onChip (configRequestOp port) s
def execRwsWrite (a : Access) (s : State) := onWrite a.who (rwsWriteOp a) s
def execGo (w : Who) (r : Rec) (useKey : Bool) (key : BitVec 16) (s : State) := onWrite w (goOp r useKey key) s
def execDiscard (w : Who) (r : Rec) (s : State) := onWrite w (discardOp r) s
def execClampLogClear (w : Who) (r : Rec) (s : State) := onWrite w (clampLogClearOp r) s
def execWqTail (f : Fn) (g : Grp) (value : W32) (s : State) := onChip (wqTailOp f g value) s
def execWqInval (f : Fn) (g : Grp) (value : W32) (s : State) := onChip (wqInvalOp f g value) s
def execEntryFetch (f : Fn) (g : Grp) (r : FetchResult) (s : State) := onChip (entryFetchOp f g r) s
def execEntryComplete (f : Fn) (g : Grp) (s : State) := onChip (entryCompleteOp f g) s
def execShadowWrite (f : Fn) (g : Grp) (s : State) := onChip (shadowWriteOp f g) s
def execMsixMessage (f : Fn) (vector : Fin 64) (s : State) := onChip (msixMessageOp f vector) s
def execCreateIoq (f : Fn) (ix : BitVec 16) (s : State) := onChip (createIoqOp f ix) s
def execDeleteIoq (f : Fn) (ix : BitVec 16) (s : State) := onChip (deleteIoqOp f ix) s
def execSetEventRing (f : Fn) (ix : BitVec 16) (s : State) := onChip (setEventRingOp f ix) s
def execAdminQueueEnable (f : Fn) (value : W32) (s : State) := onChip (adminQueueEnableOp f value) s
def execEventPost (s : State) := onChip eventPostOp s
def execWqEvtHead (f : Fn) (value : W32) (s : State) := onChip (wqEvtHeadOp f value) s
def execFunctionLevelReset (f : Fn) (s : State) := onChip (functionLevelResetOp f) s
def execFlrComplete (f : Fn) (s : State) := onChip (flrCompleteOp f) s
def execGroupCommitGo (w : Who) (s : State) := onWrite w groupGoOp s

end Sys2Proof.Machine
end

