-- ==== Sys2Proof/Machine/Storage.lean ====
section
/-! DEFINITION. Host storage commands (11): the data of a command, READ and WRITE with their division into items (R376–R382), ABORT, IDENTIFY and GET_LOG. -/

namespace Sys2Proof.Machine

/-! ## Host buffers (R268–R271) -/

/-- (address, bytes) of the fragments of a table. -/
def fragsOf (l : List Byte) : List (Nat × Nat) :=
  (List.range (l.length / 16)).map fun i => (ofLe ((l.drop (16 * i)).take 8), ofLe ((l.drop (16 * i + 8)).take 4))

/-- The reserved bytes of a fragment table are 0, and no fragment is empty (R270). -/
def fragsOk (l : List Byte) : Bool :=
  (List.range (l.length / 16)).all fun i => ofLe ((l.drop (16 * i + 12)).take 4) == 0 && ofLe ((l.drop (16 * i + 8)).take 4) != 0

/-- The buffer that a command writes: its fragments, or the one buffer of its entry. -/
def Adm.buffer (a : Adm) : List (Nat × Nat) :=
  if eInd a.entry then fragsOf (a.data.getD []) else [(eDptr a.entry, eDlen a.entry)]

/-- Bytes put at offset `o` of a buffer: one posted write for each fragment they touch. -/
def Chip.toBuffer (c : Chip) (f : Nat) : List (Nat × Nat) → Nat → List Byte → Chip
  | [], _, _ => c
  | (at0, n) :: r, o, l =>
    if l.isEmpty then c
    else if n ≤ o then c.toBuffer f r (o - n) l
    else (c.hostWrite f (at0 + o) (l.take (n - o))).toBuffer f r 0 (l.drop (n - o))

/-- A command that writes the host buffer knows where: it has its fragment table, or needs none. -/
def Adm.placed (a : Adm) : Bool := !eInd a.entry || a.data.isSome

/-- Bytes of the data of a READ or WRITE in the host buffer. -/
def Chip.ioBytes (c : Chip) (e : BitVec 512) : Nat := eField e 0x10 4 * ((c.vol (eField e 4 1)).blockSize + 8 * eField e 5 1)

/-! ## The checks of READ and WRITE (R406, R456, R528, R534, R538) -/

/-- The ACCESS code that a function has on a volume (R534). -/
def Chip.accessOf (c : Chip) (f v : Nat) : Nat := if isPf f then 3 else tget (c.vol v).grants 0 f

/-- The volume serves an entry admitted at `seq`. -/
def Volume.serves (v : Volume) (seq : Nat) : Bool :=
  v.state == .ready || ((v.state == .formatting || v.state == .sanitizing) && v.wasReady && decide (timeDiff seq v.seq < 0))

/-- No write can land: the pair plan is 0 and no page is held (R456). -/
def Chip.noRegion (c : Chip) : Bool := c.cache.pairQ == 0 && c.heldPages.isEmpty

/-- The status with which a READ or WRITE ends before any item; none where it is divided. -/
def Chip.ioCheck (c : Chip) (f : Nat) (a : Adm) (write : Bool) : Option (Nat × Nat) :=
  let e := a.entry
  let v := eField e 4 1
  let x := c.vol v
  let acc := c.accessOf f v
  let bs := x.blockSize
  if (if write then acc != 3 else acc == 0) then some (stDenied, 0)
  else if x.state = .none then some (stRange, 4)
  else if c.volBytes v < (eField e 8 8 + eField e 0x10 4) * bs then some (stRange, 8)
  else if !x.serves a.seq ∨ !(c.arr x.array).recovered then some (stNotReady, 0)
  else if (c.arr x.array).failed then some (stState, 0)
  else if write && c.noRegion then some (stNotReady, 0)
  else none

/-! ## Division into items (R376–R381) -/

/-- The parts of a READ or WRITE. -/
def Chip.ioParts (c : Chip) (e : BitVec 512) : List Part :=
  let bs := (c.vol (eField e 4 1)).blockSize
  c.volParts (eField e 4 1) (eField e 8 8 * bs) (eField e 0x10 4 * bs)

/-- The item of one part of a host command, its header and write data staged. None while the engine's share of staging has no room. -/
def Chip.hostItem (c : Chip) (f g : Nat) (a : Adm) (ps : List Part) (k : Nat) (p : Part) (data : Option (List Byte)) : Option ((Nat × Item) × Chip) :=
  let e := a.entry
  let v := eField e 4 1
  let x := c.vol v
  let n := x.array
  let S := (c.arr n).stripBytes
  let o := ownerOf n p.stripe
  match c.allocStg o (64 + p.len) with
  | (none, _) => none
  | (some stage, c) =>
    let full := data.isSome && fullStripe ((c.arr n).geomOf p.stripe).d S ps p.stripe
    let hd := headerBytes p v x.big (k == 0) (k + 1 == ps.length) full (ps.filter fun q => q.stripe == p.stripe).length
      ((eField e 0x14 4 + p.at0 / x.blockSize) % 2 ^ 32) (eField e 0x18 2)
    let c := { c with stg := mwrite zeros c.stg stage (hd ++ match data with | some l => (l.drop p.at0).take p.len | none => []) }
    let r := recSe n
    some ((o, { seq := a.seq, handle := 0, source := 0, port := f / 64, origin := f % 64 + 64 * (g - 1), array := n,
                route := routeOf n p.strip p.stripe (stage / 64), body := e, slot := c.eff r 0x100 0,
                ep := c.eff r 0x100 (if data.isSome then 4 else 8), pos := a.pos, part := k, room := 64 + p.len, at0 := p.at0 }), c)

/-- The items of all the parts, in ascending volume address. -/
def Chip.hostItems (c : Chip) (f g : Nat) (a : Adm) (ps : List Part) (data : Option (List Byte)) : Nat → List Part → Option (List (Nat × Item) × Chip)
  | _, [] => some ([], c)
  | k, p :: r =>
    match c.hostItem f g a ps k p data with
    | none => none
    | some (i, c) => match c.hostItems f g a ps data (k + 1) r with
      | none => none
      | some (is, c) => some (i :: is, c)

/-- A command is divided, and its items go to their engines. -/
def Chip.divide (c : Chip) (f g : Nat) (a : Adm) (data : Option (List Byte)) : Chip :=
  let ps := c.ioParts a.entry
  match c.hostItems f g a ps data 0 ps with
  | none => c
  | some (is, c) =>
    let c := c.modAdm f g a.pos fun x => { x with begun := true, left := is.length, data := if data.isSome then some [] else x.data }
    is.foldl (fun c i => c.submit i.1 i.2) c

/-- READ (R526–R528, R376–R382). -/
def readOp (f : Fn) (g : Grp) (ix : BitVec 16) (c : Chip) : Chip :=
  if g = 0 then c
  else c.onEntry f g ix.toNat 0x80 fun a c =>
    match c.ioCheck f a false with
    | some s => c.finish f g a.pos s.1 s.2
    | none => if a.placed then c.divide f g a none else c

/-- WRITE (R526–R528): its checks; its data is then fetched. -/
def writeOp (f : Fn) (g : Grp) (ix : BitVec 16) (c : Chip) : Chip :=
  if g = 0 then c
  else c.onEntry f g ix.toNat 0x81 fun a c =>
    match c.ioCheck f a true with
    | some s => c.finish f g a.pos s.1 s.2
    | none => c.modAdm f g a.pos fun x => { x with begun := true }

/-! ## Admission against the ingest calendar (R606, R607) -/

/-- (engine, proven count) of each item that a READ or WRITE would bring. -/
def Chip.ioCosts (c : Chip) (e : BitVec 512) : List (Nat × Nat) :=
  let n := (c.vol (eField e 4 1)).array
  let r := recSe n
  (c.ioParts e).map fun p =>
    let o := ownerOf n p.stripe
    (o, match c.imageOf o (c.eff r 0x100 0) (c.eff r 0x100 (if eOpcode e = 0x81 then 4 else 8)) c.nextPlace with
      | some m => m.count (c.eff r 0x100 (if eOpcode e = 0x81 then 4 else 8))
      | none => 0)

/-- The next `n` entries of an I/O queue fit before the next reserved interval of every engine they reach. -/
def Chip.calendarOk (c : Chip) (q : Queue) (n : Nat) : Bool :=
  let es := (List.range n).filterMap fun i => q.cached (q.nextPos + i)
  let costs := (es.filter fun e => (structCheck c true e).isNone).flatMap c.ioCosts
  (List.range 16).all fun e => let k := costs.filter fun x => x.1 == e; k.isEmpty || c.fits e (k.map (·.2)).sum

/-- ENTRY_ADMIT (R273, R275, R291, R293, R295, R606, R607): an entry whose items the ingest calendar holds back waits. -/
def entryAdmitPacedOp (f : Fn) (g : Grp) (c : Chip) : Chip :=
  let q := c.queue f g
  match q.examine 18 0 false with
  | some (n, _) => if g != 0 && !c.calendarOk q n then c else entryAdmitOp f g c
  | none => c

/-! ## The fetch of a command's data (R271, R299, R334, R335, R527) -/

/-- What a command fetches from host memory. -/
inductive Fetches
  | nothing
  /-- A fragment table for a buffer that the command writes; `n` is the buffer's length where the entry implies it. -/
  | table (n : Option Nat)
  /-- Data; `n` is its length where the entry implies it. -/
  | data (n : Option Nat)
deriving DecidableEq, Repr

/-- What the command of an admitted entry fetches at this point. -/
def Chip.fetches (c : Chip) (io : Bool) (a : Adm) : Fetches :=
  let e := a.entry
  let op := eOpcode e
  let ind := eInd e
  let none0 := !ind && eDlen e == 0
  if io then
    if op = 0x81 then (if a.begun then .data (some (c.ioBytes e)) else .nothing)
    else if ind then .table (some (c.ioBytes e)) else .nothing
  else match op with
    | 0x05 => if ind then .table (some 4096) else .nothing
    | 0x06 => if ind then .table none else .nothing
    | 0x43 => if ind then .table (some 64) else .nothing
    | 0x10 => .data (some (eField e 8 1))
    | 0x15 => if none0 then .nothing else .data (some 32)
    | 0x22 => if none0 then .nothing else .data (some (eField e 7 1))
    | 0x30 => .data none
    | 0x32 | 0x41 | 0x50 => .data (some 64)
    | 0x44 => .data (some (16 * eField e 8 1))
    | _ => .nothing

/-- The kind of the first failing block of a host buffer with protection information; 0 where every block passes (R335, R371). -/
def firstBad (bs app : Nat) : Nat → Nat → List Byte → Nat
  | 0, _, _ => 0
  | n + 1, ref, l =>
    let k := checkBlock (l.take bs) ((l.drop bs).take 8) app (ref % 2 ^ 32)
    if k ≠ 0 then k else firstBad bs app n (ref + 1) (l.drop (bs + 8))

/-- The data of a host buffer without its protection information (CHECK_STRIP). -/
def stripPi (bs : Nat) : Nat → List Byte → List Byte
  | 0, _ => []
  | n + 1, l => l.take bs ++ stripPi bs n (l.drop (bs + 8))

/-- The data of a WRITE has come: checked, staged, and its items dispatched (R334, R335, R527). -/
def Chip.writeData (c : Chip) (f g : Nat) (a : Adm) (l : List Byte) : Chip :=
  let e := a.entry
  let bs := (c.vol (eField e 4 1)).blockSize
  let n := eField e 0x10 4
  if eField e 5 1 = 0 then c.divide f g a (some l)
  else
    let k := firstBad bs (eField e 0x18 2) n (eField e 0x14 4) l
    if k ≠ 0 then c.finish f g a.pos stGuard k else c.divide f g a (some (stripPi bs n l))

/-- HOST_DATA_FETCH (R271, R299, R334, R335). The bytes are those of the buffer, or of the fragment table of a command that writes its buffer. -/
def hostDataFetchOp (f : Fn) (g : Grp) (ix : BitVec 16) (r : DataResult) (c : Chip) : Chip :=
  match c.adm f g ix.toNat with
  | none => c
  | some a =>
    if a.status.isSome ∨ a.data.isSome then c
    else match c.fetches (g != 0) a, r with
      | .nothing, _ => c
      | _, .err e => c.finish f g a.pos stHostAccess (hostErrCode e)
      | .table n, .ok l =>
        if l.length ≠ 16 * eDlen a.entry then c
        else if !fragsOk l then c.finish f g a.pos stMalformed 0x28
        else if n.any fun m => (fragsOf l).foldl (fun s x => s + x.2) 0 != m then c.finish f g a.pos stMalformed 0x30
        else c.modAdm f g a.pos fun x => { x with data := some l }
      | .data n, .ok l =>
        if !eInd a.entry ∧ l.length ≠ eDlen a.entry then c
        else if n.any fun m => l.length != m then c.finish f g a.pos stMalformed 0x30
        else if g = 0 then c.modAdm f g a.pos fun x => { x with data := some l }
        else c.writeData f g a l

/-! ## ABORT (R545–R549) -/

/-- The outstanding entry of a queue with a tag and the lowest ADM_SEQ below the ABORT's own (R545). -/
def Queue.target (q : Queue) (tag seq : Nat) : Option Adm :=
  q.work.find? fun a => a.status.isNone && eTag a.entry == tag && decide (timeDiff a.seq seq < 0)

/-- Every queued item of an entry leaves its dispatch queue; its staging returns. -/
def Chip.withdraw (c : Chip) (f g pos : Nat) : Chip :=
  let mine (i : Item) : Bool := i.source == 0 && 64 * i.port + i.origin % 64 == f && bits i.origin 6 8 + 1 == g && i.pos == pos
  (List.range 16).foldl (fun c e =>
    let is := (c.eng e).queue.filter mine
    let c := is.foldl (fun c i => c.giveBack 1 (stgBlocks i.room)) c
    c.modEng e fun x => { x with queue := x.queue.filter fun i => !mine i }) c

/-- ABORT (R545–R549). -/
def abortOp (f : Fn) (ix : BitVec 16) (c : Chip) : Chip :=
  c.onAdmin f ix.toNat 0x04 fun a c =>
    let g := eField a.entry 4 1 + 1
    let q := c.queue f g
    if !q.created then ((stRange, 4), c)
    else match q.target (eField a.entry 6 2) a.seq with
      | none => ((stOk, 0), c)
      | some t =>
        if t.committed then ((stOk, 0), c)
        else ((stOk, 1), (c.withdraw f g t.pos).modAdm f g t.pos fun x => { x with status := some (stAborted, 0), caught := true })

/-! ## The Draft header (R58–R66) -/

/-- TYPE of R66. -/
def Kind.code : Kind → Nat
  | .drf => 1 | .wq => 2 | .sht => 3 | .ary => 4 | .cch => 5 | .vlt => 6 | .mbr => 7 | .tmb => 8 | .trd => 9 | .stm => 10 | .rma => 11
  | .par => 12 | .grd => 13 | .cfl => 14 | .sec => 15 | .clk => 16 | .pwr => 17 | .aon => 18 | .age => 19 | .snp => 20 | .evr => 21

/-- INST_COUNT of R66. -/
def Kind.count : Kind → Nat
  | .sht => 8 | .ary => 16 | .mbr => 48 | .trd => 4 | _ => 1

/-- The capability words (R62, R336, R416, R667). -/
def Kind.caps : Kind → List Nat
  | .sht => [0x00401008, 0x01000000, 0]
  | .ary => [0x08442030, 0x00010000, 0]
  | .rma => [0x00040000, 0x00100000, 0x10004000]
  | _ => [0, 0, 0]

/-- A Draft record in a view (R59–R62). -/
def draftRecord (vf : Bool) (r : Nat) : List Byte :=
  let k := kindOf r
  let flags := 1 + 2 * b2n (!vf && r != 0) + 8 * b2n (!vf && groupable k)
  leBytes 2 k.code ++ leBytes 1 (instOf r) ++ leBytes 1 flags ++ leBytes 4 (if r = 0 then 0 else Config.draftBase vf r * 0x10000) ++
  leBytes 4 (if vf then 0x10000 else blockSize r) ++ leBytes 1 0 ++ leBytes 1 2 ++ leBytes 2 k.count ++ k.caps.flatMap (leBytes 4) ++ leBytes 4 0

/-- The Draft header of a function's view (R58). -/
def draftHeader (f : Nat) : List Byte :=
  let vf := !isPf f
  let n := if vf then 2 else 93
  let h := layout 0x3C [(0, leBytes 4 0x54465244), (4, leBytes 2 0), (6, leBytes 2 2), (8, leBytes 2 64), (0xA, leBytes 2 32), (0xC, leBytes 4 0x40),
    (0x10, leBytes 4 n), (0x14, leBytes 4 (if vf then 0x100000 else 0x4000000)), (0x18, leBytes 2 0x6048), (0x1A, leBytes 1 0xB0), (0x1B, leBytes 1 (b2n vf)),
    (0x1C, leBytes 2 (f % 64 + 256 * (f / 64))), (0x20, leBytes 4 (if vf then 0 else 0xF000))]
  h ++ leBytes 4 (crc32c (h ++ (List.range n).flatMap (draftRecord vf)))

/-! ## IDENTIFY and GET_LOG (R550–R553) -/

/-- A string field padded with zeros. -/
def padTo (n : Nat) (l : List Byte) : List Byte := l.take n ++ List.replicate (n - l.length) 0

/-- Member identify data (R552). -/
def Chip.memberIdentify (c : Chip) (m : Nat) : List Byte :=
  let x := c.mbr m
  layout 4096 [(0, leBytes 1 m), (1, leBytes 1 x.state.code), (2, leBytes 1 (if x.attached then x.array else 0xFF)),
    (3, leBytes 1 (if x.attached then x.position.getD 0xFF else 0xFF)),
    (4, leBytes 1 ((match x.width with | 1 => 1 | 2 => 2 | 3 => 4 | _ => 0) + 16 * x.rate)), (5, leBytes 1 x.auth), (6, leBytes 1 x.alg), (7, leBytes 1 x.pctUsed),
    (8, leBytes 8 x.capacity), (0x10, leBytes 4 x.lba), (0x18, leBytes 16 x.nguid), (0x28, padTo 20 x.serial), (0x3C, padTo 40 x.model),
    (0x64, padTo 8 x.fwRev), (0x70, leBytes 32 x.cert), (0x90, leBytes 8 x.written)]

/-- What IDENTIFY returns, or its refusal. -/
def Chip.identify (c : Chip) (f cns id : Nat) : Except (Nat × Nat) (List Byte) :=
  match cns with
  | 0 => .ok (layout 4096 [(0, draftHeader f), (0x40, leBytes 1 (b2n c.par.unit)), (0x41, leBytes 1 c.par.role.code), (0x48, padTo 16 Config.serial)])
  | 1 => if 48 ≤ id then .error (stRange, 5) else .ok (c.memberIdentify id)
  | 2 => if 16 ≤ id ∨ !(c.arr id).made then .error (stRange, 5) else .ok (superblock id (c.arr id) 0xFF)
  | _ =>
    if !isPf f ∧ c.accessOf f id = 0 then .error (stDenied, 0)
    else if (c.vol id).state = .none then .error (stRange, 5)
    else .ok (layout 4096 [(0, (c.vol id).record id)])

/-- IDENTIFY (R550–R552). -/
def identifyOp (f : Fn) (ix : BitVec 16) (c : Chip) : Chip :=
  c.onEntry f 0 ix.toNat 0x05 fun a c =>
    if !a.placed then c
    else match c.identify f (eField a.entry 4 1) (eField a.entry 5 1) with
      | .error s => c.finish f 0 a.pos s.1 s.2
      | .ok l => (c.toBuffer f a.buffer 0 l).finish f 0 a.pos stOk 0

/-- A log of GET_LOG (R553); none where its object does not exist. -/
def Chip.log (c : Chip) (lid id : Nat) : Option (List Byte) :=
  if lid = 1 then
    let r := c.arr id
    if 16 ≤ id ∨ !r.made then none
    else some (leBytes 4 r.lost.length ++ leBytes 4 0 ++ leBytes 8 r.lostGen ++ r.lost.flatMap LostEntry.bytes)
  else if 48 ≤ id then none else some (padTo 512 (c.mbr id).smart)

/-- GET_LOG (R553). -/
def getLogOp (f : Fn) (ix : BitVec 16) (c : Chip) : Chip :=
  c.onEntry f 0 ix.toNat 0x06 fun a c =>
    if !a.placed then c
    else match c.log (eField a.entry 4 1) (eField a.entry 5 1) with
      | none => c.finish f 0 a.pos stRange 5
      | some l =>
        let n := a.buffer.foldl (fun s x => s + x.2) 0
        let l := l.drop (eField a.entry 8 8)
        (c.toBuffer f a.buffer 0 (padTo n l)).finish f 0 a.pos stOk 0

/-! ## Meanings -/

def execEntryAdmit (f : Fn) (g : Grp) (s : State) := onChip (entryAdmitPacedOp f g) s
def execRead (f : Fn) (g : Grp) (ix : BitVec 16) (s : State) := onChip (readOp f g ix) s
def execWrite (f : Fn) (g : Grp) (ix : BitVec 16) (s : State) := onChip (writeOp f g ix) s
def execHostDataFetch (f : Fn) (g : Grp) (ix : BitVec 16) (r : DataResult) (s : State) := onChip (hostDataFetchOp f g ix r) s
def execAbort (f : Fn) (ix : BitVec 16) (s : State) := onChip (abortOp f ix) s
def execIdentify (f : Fn) (ix : BitVec 16) (s : State) := onChip (identifyOp f ix) s
def execGetLog (f : Fn) (ix : BitVec 16) (s : State) := onChip (getLogOp f ix) s

end Sys2Proof.Machine
end

