-- ==== Sys2Proof/Machine/Stripe2.lean ====
section
/-! DEFINITION. The stock program STRIPE2 (R414): its four entries on the items that a running engine has taken, and landing (R185, R189, R195, R263, R440). -/

namespace Sys2Proof.Machine

/-! ## Stock programs -/

/-- Engine `e` runs entry `ep` of the stock program `prog` and is not waiting: the run. -/
def Chip.stock (c : Chip) (e prog ep : Nat) : Option Run :=
  let x := c.eng e
  if c.vault.stopped || !c.clocked || x.haltPending || x.wait.isSome then none
  else x.run.filter fun r => r.image.progId == prog && r.ep == ep

/-- The program takes every further item that stands first in its queue and belongs with the one it has (R177, R414). -/
def Chip.gather (c : Chip) (e : Nat) (same : Item → Bool) : Nat → Chip
  | 0 => c
  | n + 1 =>
    match (c.eng e).run, c.nextItem e with
    | some r, some i =>
      if c.takeable e r i && same i then
        let c := c.modEng e fun x => { x.unqueue i.handle with run := some { r with taken := r.taken ++ [i] } }
        (c.commitEntry i).gather e same n
      else c
    | _, _ => c

/-- The items that the running program has taken. -/
def Chip.taken (c : Chip) (e : Nat) : List Item := match (c.eng e).run with | some r => r.taken | none => []

/-- The program ends; each item it took completes with (code, DETAIL). -/
def Chip.endStock (c : Chip) (e code : Nat) : Chip :=
  let is := c.taken e
  let c := c.modEng e fun x => { x with run := none, anchor := none, loops := [] }
  is.foldl (fun c i => c.completeItem e i code (c.detailOf e code) c.nowNs) c

/-! ## Landing (R184, R185, R189, R195, R263) -/

/-- What LAND returns to a stock program: none where the operand does not suit the role, so that the program still waits. -/
def landing (role : Role) (l : LandResult) : Option LandResult :=
  match role, l with
  | .alone, _ => some .confirmed
  | _, .confirmed => some .confirmed
  | .active, .limit => some .limit
  | .standby, .fenced | .fenced, .fenced => some .fenced
  | _, _ => none

/-- A JRNL or MIRR of a stock program: its ticket, with its local write complete. -/
def Chip.stockTicket (c : Chip) (e : Nat) : Nat × Chip :=
  let t := (c.eng e).nextTicket
  (t, c.modEng e fun x => { x with issued := t, tickets := x.tickets ++ [{ num := t, localDone := true }] })

/-- `n` tickets. -/
def Chip.moreTickets (c : Chip) (e : Nat) : Nat → Chip
  | 0 => c
  | n + 1 => (c.stockTicket e).2.moreTickets e n

/-- Every ticket up to `t` is confirmed (R439): CONFIRMED follows, line 0x50 + e pulses, a waiting LAND ends. -/
def Chip.confirmUpTo (c : Chip) (e t : Nat) (alone : Bool) : Chip :=
  let x := c.eng e
  let hit := x.tickets.filter fun k => decide (0 ≤ timeDiff t k.num) && !k.partnerDone
  if hit.isEmpty then c
  else
    let ts := x.tickets.map fun k => if 0 ≤ timeDiff t k.num then { k with partnerDone := true } else k
    let (m, ts) := confirmedFrom x.confirmed ts
    let landed := hit.foldl (fun l k => tinsert (terase l k.num) k.num (c.nowNs, alone)) x.landed
    ((c.setEng e { x with tickets := ts, confirmed := m, landed := landed }).pulse (0x50 + e)).landWake e

/-- The program's LAND ends with a result: landed, its items end with `code`; LIMIT faults the engine (R263); FENCED ends them with ST_FENCED. -/
def Chip.landEnd (c : Chip) (e : Nat) (r : LandResult) (code : Nat) (done : Chip → Chip) : Chip :=
  match r with
  | .confirmed => (done (c.confirmUpTo e (c.eng e).issued (c.par.role == .alone))).endStock e code
  | .fenced => c.endStock e stFenced
  | .limit => let (w, c) := c.fresh (2 ^ 32); c.engineFault e fSoft 0x81 w

/-! ## Mirroring of records (R438, R440) -/

/-- What was appended to the ring of array `a` since `c0` is mirrored, with the ring state. -/
def Chip.mirrorNew (c c0 : Chip) (e : Nat) (ingest : Bool) (ticket a : Nat) : Chip :=
  let n := (c.ringHead a + ringSize - c0.ringHead a) % ringSize
  if n = 0 then c
  else (c.mirrorRecord e ingest ticket a (c0.ringHead a) n).mirrorRange e ingest 0 (ringAt a / 64 * 64) 64

/-- Strips of a stripe are lost, found by engine `e`: the record is mirrored (R405). -/
def Chip.loseStrips (c : Chip) (e a s : Nat) (strips : List Nat) (cause seq : Nat) : Chip := (c.lostAdd a s strips cause seq).mirrorNew c e false 0 a

/-- A stripe leaves the list; the record is mirrored. -/
def Chip.reviveStripe (c : Chip) (e a s seq : Nat) : Chip := (c.lostDel a s seq).mirrorNew c e false 0 a

/-- The condition of HOLDUP (R749): the dump of what is held costs more than the measured energy gives. E is in units of 0.01 J. -/
def Chip.holdupBad (c : Chip) : Bool :=
  let held := c.heldCount
  (c.cache.pairQ != 0 || held != 0) && decide (9 * c.age.eAcc * 2 ^ 30 < 2500 * (0x14000000 + held * 0x10000 + 2 ^ 30))

/-- OVER_PLAN follows the held pages and the pair plan (R454, R471 code 6), and HOLDUP its condition. -/
def Chip.checkPlan (c : Chip) : Chip :=
  let past := decide (c.pages < c.heldCount)
  let c :=
    if past = c.cache.overPlan then c
    else
      let c := { c with cache := { c.cache with overPlan := past } }
      if past then c.vaultEvent 6 0 c.heldCount else c
  if c.holdupBad = bitAt (c.blk 90).level 4 then c else c.setLevel 90 4 c.holdupBad

/-! ## The pieces of write items -/

/-- Bytes `l` at byte `x` of a stripe's data, cut at strips. -/
def piecesAt (S : Nat) : Nat → Nat → List Byte → List Piece
  | 0, _, _ => []
  | n + 1, x, l =>
    if l.isEmpty then []
    else
      let k := S - x % S
      ⟨x / S, x % S, l.take k⟩ :: piecesAt S n (x + min k l.length) (l.drop k)

/-- The strands of an ingest payload (R598, R362). -/
def strands (ways elem : Nat) (l : List Byte) : List (List Byte) :=
  if ways ≤ 1 then [l]
  else (List.range ways).map fun s => (List.range (l.length / (ways * elem))).flatMap fun j => (l.drop ((j * ways + s) * elem)).take elem

/-- The pieces of an ingest item: strand k at STRIPE_OFF + k · STRAND (R598, R601). -/
def Chip.ingestPieces (c : Chip) (S : Nat) (i : Item) : List Piece :=
  let l := mread zeros c.pkt (i.field 8 4) (i.field 0xC 2)
  let sh := i.field 0xF 1
  let ss := if bitAt (i.field 0xE 1) 2 then strands (sh / 4 + 1) (sh % 4 + 1) l else [l]
  (ss.zipIdx).flatMap fun p => piecesAt S (p.1.length + 1) (i.field 0x10 4 + p.2 * i.field 0x14 4) p.1

/-- The pieces of a write item by its source. A format or sanitise item carries none: its stripe takes the value 0. -/
def Chip.piecesOf (c : Chip) (S : Nat) (i : Item) : List Piece :=
  match i.source with
  | 2 => c.ingestPieces S i
  | 3 => []
  | _ => [⟨i.strip, c.header i 0 4, mread zeros c.stg (i.stage + 64) (c.header i 4 4)⟩]

/-- A stripe's data takes the value 0 under what the item writes (R539, R599). -/
def Item.zeroes (i : Item) : Bool := (i.source == 2 && bitAt (i.field 0xE 1) 0) || i.source == 3

/-- The item replaces every byte of the stripe's data (R381 FULL, R539). -/
def Chip.replaces (c : Chip) (i : Item) : Bool := i.zeroes || (i.source < 2 && c.isFull i)

/-- STRIP, OFF and LEN of an item's WRITE record (R432). -/
def Chip.writeRange (c : Chip) (S d : Nat) (i : Item) : Nat × Nat × Nat :=
  match i.source with
  | 2 => (i.field 0x10 4 / S, i.field 0x10 4 % S, i.field 0xC 2)
  | 3 => (0, 0, d * S)
  | _ => (i.strip, c.header i 0 4, c.header i 4 4)

/-! ## Writing through a bobbin, journalled and mirrored (R393–R397, R427, R440) -/

/-- The WRITE records of the items, each with a ticket. -/
def Chip.writeRecords (c : Chip) (e a s b S d : Nat) (ingest : Bool) : List Item → Chip
  | [] => c
  | i :: r =>
    let w := c.writeRange S d i
    let rec0 := recordBytes 2 2 a s b (leBytes 8 i.seq ++ leBytes 1 w.1 ++ leBytes 3 0 ++ leBytes 4 w.2.1 ++ leBytes 4 w.2.2)
    let (t, c1) := c.stockTicket e
    ((c1.bobRecord a b rec0).mirrorNew c1 e ingest t a).writeRecords e a s b S d ingest r

/-- The mirrors of a bobbin that has just been written, with their tickets: how many tickets they take is the program's own choice (log entry 4). -/
def Chip.mirrorWritten (c : Chip) (e : Nat) (ingest : Bool) (b : Nat) : Chip :=
  let (n, c) := c.fresh 64
  let (t, c) := (c.moreTickets e n).stockTicket e
  c.mirrorBob e ingest t b

/-- The sectors of a stripe that a write touches: all of them where the stripe takes the value 0. -/
def writeSectors (S : Nat) (fresh : Bool) (ps : List Piece) : List Nat := if fresh then List.range (S / 512) else sectorsOf S ps

/-- The strips that a write puts into the bobbin: the changed data strips, P and Q. -/
def writeStrips (d : Nat) (fresh : Bool) (ps : List Piece) : List Nat :=
  (if fresh then List.range d else (List.range d).filter fun i => ps.any fun p => p.strip == i) ++ [d, d + 1]

/-- The ring of an array takes `n` more bytes. -/
def Chip.ringRoom (c : Chip) (a n : Nat) : Bool := c.cache.pairQ != 0 && decide (n ≤ c.ringFree a)

/-- New data of a stripe goes into its bobbin with P and Q, is journalled and mirrored; none while the owner has no bobbin, page or ring room. -/
def Chip.writeStripe (c : Chip) (e a s : Nat) (g : Geom) (fresh : Bool) (ps : List Piece) (is : List Item) : Option Chip :=
  let S := (c.arr a).stripBytes
  let ks := writeSectors S fresh ps
  let ingest := is.all fun i => i.source == 2
  if !c.roomFor a s (chunksIn ks) (writeStrips g.d fresh ps) || !c.ringRoom a (64 * is.length + 32) then none
  else match c.needBob a g s with
    | (none, _) => none
    | (some b, c1) =>
      let c1 := c1.mirrorNew c e ingest 0 a
      let c2 := c1.applyPieces a g s b fresh ps ks
      some ((c2.mirrorWritten e ingest b).writeRecords e a s b S g.d ingest is)

/-! ## STRIPE2 WRITE (R393–R397, R406, R414, R469, R609) -/

/-- Two items belong to one command on one stripe. -/
def Item.sameWrite (i j : Item) : Bool :=
  i.source == j.source && i.seq == j.seq && i.origin == j.origin && i.port == j.port && i.pos == j.pos && i.array == j.array && i.stripe == j.stripe

/-- The status with which write items end before anything is written; none where they go on. The second part is the strips found lost (R396). -/
def Chip.writeCheck (c : Chip) (i : Item) (full : Bool) (g : Geom) (ps : List Piece) : Option (Nat × List Nat) :=
  let a := i.array
  let s := i.stripe
  if (c.arr a).failed then some (stState, [])
  else if i.source == 2 && ((c.vol (i.field 0x2A 1)).state != .ready || c.cache.pairQ == 0) then some (stNotReady, [])
  else if full then none
  else if ((c.arr a).lostAt s).isSome then some (stDataLost, [])
  else
    let S := (c.arr a).stripBytes
    let bad := ((sectorsOf S ps).flatMap fun k => c.unavailStrips a g s k 1).dedup
    if ((sectorsOf S ps).any fun k => decide (2 < (c.unavailStrips a g s k 1).length)) then some (stDataLost, bad) else none

/-- What a landed write changes beside the bobbin: a lost stripe is revived (R397), and the stripe counts as resynchronised (R469). -/
def Chip.writeLanded (c : Chip) (e a s : Nat) (full : Bool) (seq : Nat) : Chip :=
  let c := (if full then c.reviveStripe e a s seq else c).checkPlan
  if (c.arr a).resync.isSome then c.resyncDone a s else c

/-- STRIPE2_WRITE: the items of one command on one stripe. -/
def stripe2WriteOp (e : Se) (l : LandResult) (c : Chip) : Chip :=
  match c.stock e 0x10001 0, c.taken e with
  | some _, i :: _ =>
    let c1 := c.gather e i.sameWrite 32
    let is := c1.taken e
    let a := i.array
    let s := i.stripe
    let g := (c1.arr a).geomOf s
    let ps := is.flatMap (c1.piecesOf (c1.arr a).stripBytes)
    let full := is.all c1.replaces
    match c1.writeCheck i full g ps with
    | some (code, lost) =>
      let c2 := if lost.isEmpty then c1 else c1.loseStrips e a s lost 3 i.seq
      c2.endStock e code
    | none => match landing c1.par.role l, c1.writeStripe e a s g full ps is with
      | some r, some c2 => c2.landEnd e r stOk fun c => c.writeLanded e a s full i.seq
      | _, _ => c
  | _, _ => c

/-! ## Read repair (R389) -/

/-- The chunks of a strip's range that a member failed to read with a media error and no bobbin holds. -/
def Chip.badChunks (c : Chip) (a : Nat) (g : Geom) (s i k0 n : Nat) : List Nat :=
  (((List.range n).map (· + k0)).filter fun k =>
    let off := stripOff (c.arr a).stripBytes (s / g.q) (512 * k)
    (((c.openBob a s).bind fun b => c.bobSector b i k) <|> ((c.oldBob a s).bind fun b => c.bobSector b i k)).isNone &&
    (c.readHolders a g s i).any fun y => (c.memberAt a y).any fun m => (c.mbr m).isBad off 512).map chunkOf |>.dedup

/-- Firmware issues a repair item for a chunk of a strip (R389, R379): counted in ARY_REPAIRED, at its own admission place (R473). -/
def Chip.issueRepair (c : Chip) (a s strip chunk : Nat) : Chip :=
  let r := recSe a
  let (seq, c) := c.takeSeq
  let c := c.modArr a fun x => { x with repaired := (x.repaired + 1) % 2 ^ 64 }
  let i : Item := {
    seq := seq, handle := 0, source := 3, origin := 2, array := a, route := routeOf a 0 s 0
    body := bodyOf [(0, leBytes 1 0), (1, leBytes 1 chunk), (4, leBytes 4 (2 ^ strip))], slot := c.eff r 0x100 0, ep := c.eff r 0x100 16 }
  c.submit (ownerOf a s) i

/-- A repair is wanted: issued at once, or with no region held until the plan is nonzero (R456). -/
def Chip.wantRepair (c : Chip) (a s strip chunk : Nat) : Chip :=
  if c.cache.pairQ = 0 then c.modArr a fun x => { x with repairs := if x.repairs.contains (s, strip, chunk) then x.repairs else x.repairs ++ [(s, strip, chunk)] }
  else c.issueRepair a s strip chunk

/-! ## STRIPE2 READ (R388–R392, R406, R511) -/

/-- Host data with protection information after each block (R367). -/
def withPi (bs app : Nat) : Nat → Nat → List Byte → List Byte
  | 0, _, _ => []
  | n + 1, ref, l => l.take bs ++ piOf (l.take bs) app (ref % 2 ^ 32) ++ withPi bs app n (ref + 1) (l.drop bs)

/-- The bytes of a read item go to its requester: the host buffer of its entry, or the space behind its header (R640). -/
def Chip.deliverRead (c : Chip) (i : Item) (l : List Byte) : Chip :=
  if i.source = 0 then
    let f := 64 * i.port + i.origin % 64
    match (c.queue f (bits i.origin 6 8 + 1)).work.find? fun a => a.pos == i.pos with
    | none => c
    | some a =>
      let bs := if c.header i 9 1 = 0 then 512 else 4096
      if eField a.entry 5 1 % 2 = 0 then c.toBuffer f a.buffer i.at0 l
      else c.toBuffer f a.buffer (i.at0 / bs * (bs + 8)) (withPi bs (c.header i 0x10 2) (l.length / bs) (c.header i 0xC 4) l)
  else
    let c := { c with stg := mwrite zeros c.stg (i.stage + 64) l }
    c.modQp i.origin fun q => { q with msgs := q.msgs.map fun m =>
      if m.seq = i.seq then
        let d := m.data ++ List.replicate (m.len - m.data.length) 0
        { m with data := d.take i.at0 ++ l ++ d.drop (i.at0 + l.length) }
      else m }

/-- The range of a read item is lost by its stripe's entry (R391); while a reshape runs, by the entry of the new geometry (R511). -/
def Chip.readLost (c : Chip) (i : Item) (off : Nat) : Bool :=
  let a := c.arr i.array
  let S := a.stripBytes
  match a.reshape with
  | none => (a.lostAt i.stripe).any fun e => bitAt e.mask i.strip
  | some r =>
    let g := a.geomOf i.stripe
    let x := i.stripe * g.dataBytes S + i.strip * S + off
    let D := r.new.dataBytes S
    D != 0 && (a.lostAt (x / D)).any fun e => bitAt e.mask (x % D / S)

/-- STRIPE2_READ: one item. -/
def stripe2ReadOp (e : Se) (c : Chip) : Chip :=
  match c.stock e 0x10001 1, c.taken e with
  | some _, i :: _ =>
    let a := i.array
    let s := i.stripe
    let g := (c.arr a).geomOf s
    let o := c.header i 0 4
    let n := c.header i 4 4
    let k0 := o / 512
    let kn := (o + n + 511) / 512 - k0
    if (c.arr a).failed then c.endStock e stState
    else if c.readLost i o then c.endStock e stDataLost
    else match c.readStrip a g s i.strip o n with
      | some l =>
        let c1 := (c.deliverRead i l).endStock e stOk
        (c.badChunks a g s i.strip k0 kn).foldl (fun c ch => c.wantRepair a s i.strip ch) c1
      | none => (c.loseStrips e a s (c.unavailStrips a g s k0 kn) 1 i.seq).endStock e stDataLost
  | _, _ => c

/-! ## STRIPE2 DESTAGE (R398, R399, R430, R443–R445) -/

/-- Some member of the array awaits its preemption: no member write is issued to it (R562). -/
def Chip.writesWait (c : Chip) (a : Nat) : Bool := (c.arr a).pos.any fun p => p.member.any fun m => (c.mbr m).attached && (c.mbr m).preempting

/-- Strips of a stripe that no available member takes (R398, R399). -/
def Chip.unwritable (c : Chip) (a : Nat) (g : Geom) (s : Nat) : List Nat := (List.range g.w).filter fun i => (c.writeHolders a g s i).isEmpty

/-- A bobbin's STATE byte changes; the header's first line is mirrored. -/
def Chip.setBobState (c : Chip) (e b st : Nat) : Chip := (c.hbmWrite (bobAt b) (leBytes 1 st)).mirrorRange e false 0 (bobAt b) 64

/-- A record that names a bobbin, with its ticket and mirror. -/
def Chip.stateRecord (c : Chip) (e a b s type : Nat) : Chip :=
  let (t, c1) := c.stockTicket e
  (c1.bobRecord a b (recordBytes type 1 a s b [])).mirrorNew c1 e false t a

/-- The bobbin's destage begins, or begins again: OPEN becomes DESTAGING with its record. -/
def Chip.startDestage (c : Chip) (e b : Nat) : Chip :=
  if c.bobState b = 1 then (c.setBobState e b 2).stateRecord e (c.bobArray b) b (c.bobStripe b) 3 else c

/-- Every strip is written, the lost ones are listed, and the RETIRE record makes the bobbin RETIRING. -/
def Chip.writeMembers (c : Chip) (e b seq : Nat) : Chip :=
  let a := c.bobArray b
  let s := c.bobStripe b
  let g := (c.arr a).geomOf s
  let c := c.destageAll a g s b
  let lost := c.unwritable a g s
  let c := if 2 < lost.length then c.loseStrips e a s lost 4 seq else c
  (c.setBobState e b 3).stateRecord e a b s 4

/-- The RETIRE ticket is confirmed: the bobbin is FREE, its pages are free, and the ring's TAIL moves (R430, R436). -/
def Chip.retireBob (c : Chip) (e b : Nat) : Chip :=
  let a := c.bobArray b
  let c := (c.freeBob b).mirrorRange e false 0 (bobAt b) 1024
  (c.advanceTail a).checkPlan

/-- STRIPE2_DESTAGE: the item names bobbin `pos`. An OPEN bobbin behind an older one, and a FREE one, are left alone. -/
def stripe2DestageOp (e : Se) (l : LandResult) (c : Chip) : Chip :=
  match c.stock e 0x10001 2, c.taken e with
  | some _, i :: _ =>
    let b := i.pos
    let a := c.bobArray b
    let st := c.bobState b
    if st = 0 ∨ 3 < st ∨ (st = 1 ∧ (c.oldBob a (c.bobStripe b)).isSome) then c.endStock e stOk
    else if c.writesWait a || !c.ringRoom a 96 then c
    else match landing c.par.role l with
      | none => c
      | some r =>
        let c := if st = 3 then c else (c.startDestage e b).writeMembers e b i.seq
        c.landEnd e r stOk fun c => c.retireBob e b
  | _, _ => c

/-! ## STRIPE2 RECONSTRUCT (R387, R389, R468) -/

/-- Sectors of a strip put into a bobbin, as given. -/
def Chip.putSectors (c : Chip) (b i : Nat) : List (Nat × List Byte) → Chip
  | [] => c
  | (k, l) :: r => (c.bobPut b i k l).putSectors b i r

/-- Reconstructed columns: the sectors of the given strips. None where a column has more than two strips unavailable. -/
def Chip.rebuilt (c : Chip) (a : Nat) (g : Geom) (s : Nat) (strips ks : List Nat) : Option (List (Nat × List (Nat × List Byte))) :=
  (allSome (ks.map fun k => (completeCol g.w (c.column a g s k)).map fun l => (k, l))).map fun cols =>
    strips.map fun i => (i, cols.map fun x => (x.1, x.2.getD i []))

/-- Sectors of a chunk. -/
def chunkSectors (S ch : Nat) : List Nat := (List.range (chunkBytes S / 512)).map (· + 128 * ch)

/-- Sectors of strips go through the stripe's bobbin, journalled and mirrored; none while there is no room. -/
def Chip.rewrite (c : Chip) (e a s : Nat) (g : Geom) (vals : List (Nat × List (Nat × List Byte))) (i : Item) (len : Nat) : Option Chip :=
  let chunks := (vals.flatMap fun v => v.2.map fun x => chunkOf x.1).dedup
  if !c.roomFor a s chunks (vals.map (·.1)) || !c.ringRoom a 96 then none
  else match c.needBob a g s with
    | (none, _) => none
    | (some b, c1) =>
      let c1 := c1.mirrorNew c e false 0 a
      let c2 := vals.foldl (fun c v => c.putSectors b v.1 v.2) c1
      let c2 := c2.mirrorWritten e false b
      let strip := (vals.map (·.1)).headD 0
      let (t, c3) := c2.stockTicket e
      let off := 512 * (((vals.headD (0, [])).2.headD (0, [])).1)
      let rec0 := recordBytes 2 2 a s b (leBytes 8 i.seq ++ leBytes 1 strip ++ leBytes 3 0 ++ leBytes 4 off ++ leBytes 4 len)
      some ((c3.bobRecord a b rec0).mirrorNew c3 e false t a)

/-- STRIPE2_RECONSTRUCT: a read repair rebuilds one chunk of its strips; a resynchronisation item rebuilds P and Q of its stripe. -/
def stripe2ReconstructOp (e : Se) (l : LandResult) (c : Chip) : Chip :=
  match c.stock e 0x10001 3, c.taken e with
  | some _, i :: _ =>
    let a := i.array
    let s := i.stripe
    let g := (c.arr a).geomOf s
    let S := (c.arr a).stripBytes
    let resync := i.origin == 9
    let strips := if resync then [g.w - 2, g.w - 1] else (List.range g.w).filter (bitAt (i.field 4 4))
    let ks := if resync then List.range (S / 512) else chunkSectors S (i.field 1 1)
    match c.rebuilt a g s strips ks with
    | none =>
      let lost := (ks.flatMap fun k => let u := c.unavailStrips a g s k 1; if 2 < u.length then u else []).dedup
      (c.loseStrips e a s lost 1 i.seq).endStock e stDataLost
    | some vals => match landing c.par.role l, c.rewrite e a s g vals i (512 * ks.length) with
      | some r, some c1 => c1.landEnd e r stOk fun c => c
      | _, _ => c
  | _, _ => c

/-! ## Meanings -/

def execStripe2Write (e : Se) (l : LandResult) (s : State) := onChip (stripe2WriteOp e l) s
def execStripe2Read (e : Se) (s : State) := onChip (stripe2ReadOp e) s
def execStripe2Destage (e : Se) (l : LandResult) (s : State) := onChip (stripe2DestageOp e l) s
def execStripe2Reconstruct (e : Se) (l : LandResult) (s : State) := onChip (stripe2ReconstructOp e l) s

end Sys2Proof.Machine
end

