-- ==== Sys2Proof/Machine/Wear.lean ====
section
/-! DEFINITION. Member wear (R566, R567, R742, R743), and superblocks as they are read from members (R409, R412). -/

namespace Sys2Proof.Machine

/-! ## Remaining life (R742) -/

/-- Units of the model's elapsed time in a day. -/
def dayUnits : Nat := 86400 * 1000000000 * 2 ^ 16

/-- Numerator and denominator of the least-squares slope of y over x. -/
def slope (l : List (Nat × Nat)) : Int × Int :=
  let n : Int := l.length
  let sx : Int := l.foldl (fun s p => s + (p.1 : Int)) 0
  let sy : Int := l.foldl (fun s p => s + (p.2 : Int)) 0
  let sxy : Int := l.foldl (fun s p => s + (p.1 : Int) * (p.2 : Int)) 0
  let sxx : Int := l.foldl (fun s p => s + (p.1 : Int) * (p.1 : Int)) 0
  (n * sxy - sx * sy, n * sxx - sx * sx)

/-- REMAIN_DAYS from the readings of the last 30 days, as (elapsed time, Percentage Used), oldest first: 0xFFFF with fewer than 7 days of them or no rising
slope. -/
def remainDays (l : List (Nat × Nat)) (pct : Nat) : Nat :=
  match l, l.getLast? with
  | (t0, _) :: _, some (t1, _) =>
    let (num, den) := slope l
    if t1 - t0 < 7 * dayUnits ∨ num ≤ 0 ∨ den ≤ 0 then 0xFFFF
    else min 0xFFFF ((100 - pct : Nat) * den.toNat / (num.toNat * dayUnits))
  | _, _ => 0xFFFF

/-- A WEAR event (R743). -/
def Chip.wearEvent (c : Chip) (m kind : Nat) : Chip :=
  c.happen 0xB (m + 64 * kind + 256 * (c.mbr m).pctUsed) (tget c.age.remain 0xFFFF m)

/-- A WEAR event whose condition holds, once per attach (R743). -/
def Chip.wearOnce (c : Chip) (m kind : Nat) (holds : Bool) : Chip :=
  let sent := tget c.age.wearSent 0 m
  if holds && !bitAt sent kind then { c with age := { c.age with wearSent := tput c.age.wearSent 0 m (sent + 2 ^ kind) } }.wearEvent m kind else c

/-- A SMART log has been read (R566, R567, R742, R743, R759 kind 7). -/
def Chip.wearRead (c : Chip) (m pct crit : Nat) : Chip :=
  let c := c.modMbr m fun x => { x with pctUsed := pct, critWarn := crit }
  let c := c.record 7 90 4 pct m
  let c := if (c.mbr m).attached then
      let now := c.tmb.up
      let l := (tget c.age.readings [] m).filter (fun x => decide (now ≤ x.1 + 30 * dayUnits)) ++ [(now, pct)]
      { c with age := { c.age with readings := tput c.age.readings [] m l, remain := tput c.age.remain 0xFFFF m (remainDays l pct) } }
    else c
  let c := c.wearOnce m 1 (decide (c.eff (recMbr m) 0x100 8 ≤ pct))
  let c := c.wearOnce m 2 (decide (100 ≤ pct))
  let c := c.wearOnce m 3 ((c.mbr m).attached && decide (tget c.age.remain 0xFFFF m < c.eff 90 0x100 16))
  c.checkMargin

/-! ## Superblocks on members (R409, R412) -/

/-- A superblock as read. -/
structure Super where
  number : Nat
  uid : Nat
  gen : Nat
  geom : Geom
  stripLog2 : Nat
  prog : Nat
  rows : Nat
  states : List Nat
  ids : List Nat
  lostGen : Nat
  spill0 : Nat
  spill1 : Nat
deriving DecidableEq, Repr

/-- A 4 KiB block ends in the CRC32C of what comes before. -/
def crcOk4k (l : List Byte) : Bool := crc32c (l.take 0xFFC) == ofLe ((l.drop 0xFFC).take 4)

/-- A field of a block. -/
def blockF (l : List Byte) (o n : Nat) : Nat := ofLe ((l.drop o).take n)

/-- A valid superblock copy: MAGIC, FORMAT and CRC are right. -/
def superOf (l : List Byte) : Option Super :=
  let f := blockF l
  if f 0 4 = 0x424D5A56 ∧ f 4 2 = 1 ∧ crcOk4k l then
    some { number := f 6 1 % 16, uid := f 8 16, gen := f 0x18 8, geom := ⟨f 0x20 1, f 0x21 1, f 0x22 1, f 0x24 1⟩, stripLog2 := f 0x23 1, prog := f 0x28 4
           rows := f 0x30 8, states := (List.range 48).map fun y => f (0x40 + y) 1, ids := (List.range 48).map fun y => f (0x70 + 16 * y) 16
           lostGen := f 0x370 8, spill0 := f 0x378 1, spill1 := f 0x379 1 }
  else none

/-- The newest valid superblock of a member. -/
def Member.superblock (m : Member) : Option Super :=
  match superOf (m.bytes 0 4096), superOf (m.bytes 0x100000 4096) with
  | some a, some b => if a.gen < b.gen then some b else some a
  | a, b => a <|> b

/-! ## Metadata written to one member -/

/-- A range of a member is written with zeros. -/
def Member.zero (m : Member) (off n : Nat) : Member :=
  { m.heal off n with media := m.media.filter (fun x => decide (x.1 < off) || decide (off + n ≤ x.1)), written := (m.written + n) % 2 ^ 64 }

/-- A member takes the metadata of array `a` as position `y`: superblock copies, lost-stripe list, checkpoint and volume table (R408, R531). The reserved part
of the metadata takes zeros. -/
def Chip.seedMember (c : Chip) (a y m : Nat) : Chip :=
  let r := c.arr a
  let sb := superblock a r y
  let es := r.lost.flatMap LostEntry.bytes
  let hd := block4k [(0, leBytes 4 0x534C5A56), (4, leBytes 4 r.lost.length), (8, leBytes 8 r.lostGen), (0x10, leBytes 4 (crc32c es))]
  let vols := c.volumes.filter fun v => v.2.state != .none && v.2.array == a
  c.modMbr m fun x =>
    let x := ((x.zero 0x201000 0x100000).put 0x201000 es).put 0x200000 hd
    let x := (x.zero 0x400000 0x400000).zero 0x4800000 0xB800000
    let x := vols.foldl (fun x v => (x.put (0x404000 + 64 * v.1) (v.2.record v.1)).put (0x408000 + 64 * v.1) (v.2.record v.1)) x
    let x := x.put (if r.ckGen % 2 = 0 then 0x400000 else 0x401000) (checkpoint r)
    (x.put 0 sb).put 0x100000 sb

end Sys2Proof.Machine
end

