-- ==== Sys2Proof/Machine/Members.lean ====
section
/-! DEFINITION. Member drives (R541, R556–R566, R569): links, attach and authentication, failures, SMART polls, sanitise, preemption, retirement. -/

namespace Sys2Proof.Machine

/-! ## Failures (R558, R559) -/

/-- States from which R558 fails a member. -/
def MbrState.mayFail (s : MbrState) : Bool := s == .attaching || s == .ready || s == .bound || s == .retiring

/-- A member fails with a reason of R559. -/
def Chip.failMember (c : Chip) (m reason : Nat) : Chip :=
  if (c.mbr m).state.mayFail then (c.modMbr m fun x => { x with waits := false }).memberState m .failed reason else c

/-- MEMBER_COMMAND_TIMEOUT (R558): no completion before and after one controller reset. -/
def memberCommandTimeoutOp (m : Mbr) (c : Chip) : Chip :=
  if (c.mbr m).state.mayFail then (c.emit (.memberReset m)).failMember m 4 else c

/-- MEMBER_FATAL_STATUS (R558). -/
def memberFatalStatusOp (m : Mbr) (c : Chip) : Chip := c.failMember m 5

/-! ## Links (R559, R571) -/

/-- A member of a group whose SPLIT gives two links is ABSENT in its odd places (R571 MBR_CFG). -/
def Chip.noLane (c : Chip) (m : Nat) : Bool := m % 2 == 1 && c.eff (recMbr (m / 4 * 4)) 0x100 16 == 1

/-- MEMBER_LINK_UP (R559): the group's lanes have trained. -/
def memberLinkUpOp (m : Mbr) (rate : BitVec 4) (width : BitVec 3) (c : Chip) : Chip :=
  if (c.mbr m).state ≠ .absent ∨ c.noLane m ∨ !c.clocked ∨ !c.pwr.groupsTrained.contains (m.val / 4) then c
  else (c.modMbr m fun x => { x with rate := rate.toNat, width := width.toNat }).memberState m .attaching 1

/-- A member becomes ABSENT: what this unit knew of its link goes. -/
def Chip.dropMember (c : Chip) (m reason : Nat) : Chip :=
  (c.memberState m .absent reason).modMbr m fun x =>
    { x with rate := 0, width := 0, resv := false, preempting := false, auth := 0, alg := 0, position := none, waits := false }

/-- MEMBER_LINK_DOWN (R559). -/
def memberLinkDownOp (m : Mbr) (c : Chip) : Chip := if (c.mbr m).state = .absent then c else c.dropMember m 2

/-! ## Attach (R555–R557, R561, R563–R565, R870) -/

/-- The position of array `a` whose POS_ID is the member's NGUID. -/
def Chip.posOfId (c : Chip) (a id : Nat) : Option Nat := (List.range (c.arr a).pos.length).find? fun y => ((c.arr a).pos[y]?).any fun p => p.id == id

/-- A member becomes BOUND at a position (R557); with an older superblock its position is UNAVAILABLE until it is rebuilt (R412). -/
def Chip.bindMember (c : Chip) (m a y gen : Nat) : Chip :=
  let older := decide (gen < (c.arr a).gen)
  let c := c.modMbr m fun x => { x with array := a, position := some y, waits := false }
  let c := c.modArr a fun r => { r with pos := r.pos.modify y fun p => { p with member := some m } }
  let c := c.memberState m .bound 11
  if older && ((c.arr a).pos[y]?).any (fun p => p.state == .inService) then c.losePosition a y c.nextPlace else c

/-- Positions that named the member under another NGUID lose it (R481). -/
def Chip.otherNamespace (c : Chip) (m : Nat) : Chip :=
  (List.range 16).foldl (fun c a =>
    (List.range (c.arr a).pos.length).foldl (fun c y =>
      match (c.arr a).pos[y]? with
      | some p =>
        if p.member = some m ∧ p.id ≠ (c.mbr m).nguid then
          let c := if p.state = .inService then c.losePosition a y c.nextPlace else c
          c.modArr a fun r => { r with pos := r.pos.modify y fun p => { p with member := none } }
        else c
      | none => c) c) c

/-- The attach is complete: READY, BOUND, or a wait for the recovery of the array that the member's superblock names. -/
def Chip.completeAttach (c : Chip) (m : Nat) : Chip :=
  let x := c.mbr m
  match x.superblock with
  | none => c.memberState m .ready 11
  | some s =>
    let r := c.arr s.number
    if !r.made then c.modMbr m fun x => { x with waits := true }
    else if r.uid ≠ s.uid then c.memberState m .ready 14
    else match c.posOfId s.number x.nguid with
      | some y => c.bindMember m s.number y s.gen
      | none => c.memberState m .ready 11

/-- Every lane group has trained and no member's checks are still running: the second milestone (R832). -/
def Chip.allAttached (c : Chip) : Chip :=
  if 12 ≤ c.pwr.groupsTrained.length ∧ !c.members.any (fun m => m.2.state == .attaching && !m.2.waits) then c.milestone 2 else c

/-- AUTH of R571: not run, pass, fail, not supported. Authentication passes when the challenge verifies and the chain's root is trusted (R564). -/
def Chip.authOf (c : Chip) (m : Nat) (i : AttachInfo) : Nat :=
  if c.eff (recMbr m) 0x100 0 = 0 then 0
  else if !i.spdmSupported then 3
  else if i.authOk && c.trust.any (fun t => t.2 == i.root.toNat + 1) then 1 else 2

/-- A drive under sanitise is tracked again (R541). -/
def Chip.trackSanitize (c : Chip) (m : Nat) (on : Bool) : Chip :=
  if on && (c.mbr m).state == .ready then (c.memberState m .sanitizing 16).progressEvent m true 2 0 c.nextPlace else c

/-- MEMBER_ATTACH (R555–R557, R561, R563–R566). -/
def memberAttachOp (m : Mbr) (i : AttachInfo) (c : Chip) : Chip :=
  let x := c.mbr m
  if x.state ≠ .attaching ∨ x.waits then c
  else
    let auth := c.authOf m i
    let ran := decide (auth = 1 ∨ auth = 2)
    let c := c.modMbr m fun x => { x with
      auth := auth, alg := if ran then i.alg.toNat else 0, nguid := i.nguid.toNat, capacity := i.capacity, lba := i.lba, serial := i.serial, model := i.model
      fwRev := i.fwRev, cert := if ran then i.certDigest.toNat else 0, fua := i.wcFixed }
    let c := { c with age := { c.age with wearSent := terase c.age.wearSent m } }
    if !i.checksOk then (c.memberState m .refused 3).allAttached
    else if c.eff (recMbr m) 0x100 0 = 2 ∧ auth ≠ 1 then (c.memberState m .refused 9).allAttached
    else
      let c := c.modMbr m fun x => { x with registered := true, resv := c.par.role == .active || c.par.role == .alone }
      let c := c.wearRead m i.pctUsed.toNat i.critWarn.toNat
      if bitAt i.critWarn.toNat 2 ∨ bitAt i.critWarn.toNat 3 then (c.failMember m 6).allAttached
      else (((c.otherNamespace m).completeAttach m).trackSanitize m i.sanitizing).allAttached

/-! ## SMART, sanitise, preemption (R541, R562, R566) -/

/-- The device reads a member's SMART log in these states. -/
def MbrState.polled (s : MbrState) : Bool := s == .ready || s == .bound || s == .retiring || s == .retired || s == .sanitizing

/-- SMART_POLL (R558, R566, R567). -/
def smartPollOp (m : Mbr) (pct crit : BitVec 8) (log : List Byte) (c : Chip) : Chip :=
  if !(c.mbr m).state.polled then c
  else
    let c := (c.modMbr m fun x => { x with smart := log.take 512 }).wearRead m pct.toNat crit.toNat
    if bitAt crit.toNat 2 ∨ bitAt crit.toNat 3 then c.failMember m 6 else c

/-- MEMBER_SANITIZE_DONE (R541, R544, R559): nothing written before is left on the drive. -/
def memberSanitizeDoneOp (m : Mbr) (c : Chip) : Chip :=
  if (c.mbr m).state ≠ .sanitizing then c
  else
    let c := c.modMbr m fun x => { x with media := [], bad := [] }
    (c.memberState m .ready 8).progressEvent m true 2 1000 c.nextPlace

/-- RESERVATION_PREEMPT_DONE (R561, R562). -/
def reservationPreemptDoneOp (m : Mbr) (c : Chip) : Chip :=
  if !(c.mbr m).preempting then c else c.modMbr m fun x => { x with preempting := false, resv := true }

/-! ## Retirement (R568, R569) -/

/-- RETIREMENT_COPY_DONE (R569): every row has been copied; the replacement takes the position and the old member is RETIRED. -/
def retirementCopyDoneOp (a : Arr) (y : Fin 48) (c : Chip) : Chip :=
  match (c.arr a).retire with
  | none => c
  | some t =>
    if t.pos ≠ y.val ∨ t.row < (c.arr a).rows ∨ !(c.mbr t.repl).attached then c
    else
      let id := (c.mbr t.repl).nguid
      let c := c.modArr a fun r => { r with retire := none, pos := r.pos.modify y.val fun p => { p with member := some t.repl, id := id } }
      let c := c.modMbr t.repl fun x => { x with array := a.val, position := some y.val }
      let c := (c.seedMember a y t.repl).superUpdate a
      let c := c.modMbr t.old fun x => { x with position := none }
      c.memberState t.old .retired 7

/-! ## Meanings -/

def execMemberCommandTimeout (m : Mbr) (s : State) := onChip (memberCommandTimeoutOp m) s
def execMemberFatalStatus (m : Mbr) (s : State) := onChip (memberFatalStatusOp m) s
def execMemberLinkUp (m : Mbr) (rate : BitVec 4) (width : BitVec 3) (s : State) := onChip (memberLinkUpOp m rate width) s
def execMemberLinkDown (m : Mbr) (s : State) := onChip (memberLinkDownOp m) s
def execMemberAttach (m : Mbr) (i : AttachInfo) (s : State) := onChip (memberAttachOp m i) s
def execSmartPoll (m : Mbr) (pctUsed critWarn : BitVec 8) (log : List Byte) (s : State) := onChip (smartPollOp m pctUsed critWarn log) s
def execMemberSanitizeDone (m : Mbr) (s : State) := onChip (memberSanitizeDoneOp m) s
def execReservationPreemptDone (m : Mbr) (s : State) := onChip (reservationPreemptDoneOp m) s
def execRetirementCopyDone (a : Arr) (pos : Fin 48) (s : State) := onChip (retirementCopyDoneOp a pos) s

end Sys2Proof.Machine
end

