-- ==== Sys2Proof/Machine/Services.lean ====
section
/-! DEFINITION. Array, volume and member services (R520, R529–R543, R858): the admin commands 0x10–0x22. -/

namespace Sys2Proof.Machine

/-! ## Arrays (R531, R532, R858) -/

/-- The array number of a command is not one of an existing array: the object check (R296). -/
def Chip.noArray (c : Chip) (a : Nat) : Bool := decide (16 ≤ a) || !(c.arr a).made

/-- The object checks of CREATE_ARRAY that the entry decides, before the data is looked at (R858 1–4). -/
def createEarly (e : BitVec 512) : Option (Nat × Nat) :=
  if 16 ≤ eField e 4 1 then some (stRange, 4)
  else if eField e 5 1 < 4 ∨ 32 < eField e 5 1 then some (stRange, 5)
  else if 4 < eField e 6 1 then some (stRange, 6)
  else if eField e 7 1 < 14 ∨ 18 < eField e 7 1 then some (stRange, 7)
  else if eField e 8 1 < 4 ∨ 48 < eField e 8 1 then some (stRange, 8)
  else none

/-- The checks that follow (R858 5–7, R530). -/
def Chip.createLate (c : Chip) (e : BitVec 512) (ms : List Nat) : Option (Nat × Nat) :=
  let S := 2 ^ eField e 7 1
  if ms.any fun m => decide (47 < m) then some (stRange, 0x28)
  else if eField e 8 1 < eField e 5 1 then some (stRange, 5)
  else if stripesPerRow (eField e 8 1) (eField e 5 1) (eField e 6 1) = 0 then some (stRange, 6)
  else if (c.arr (eField e 4 1)).made then some (stState, 1)
  else if !decide ms.Nodup || ms.any (fun m => (c.mbr m).state != .ready || decide ((c.mbr m).capacity < 0x10000000 + 64 * S)) then some (stState, 6)
  else none

/-- The numbers of a list, ascending. -/
def sortNat (l : List Nat) : List Nat := (List.range 48).filter l.contains

/-- A journal ring as a new array finds it: empty, at its first sequence number (R420, R431). -/
def Chip.freshRing (c : Chip) (a : Nat) : Chip := c.hbmWrite (ringAt a) (leBytes 8 0 ++ leBytes 8 0 ++ leBytes 4 0 ++ leBytes 8 1)

/-- An array of the members comes to be (R373, R409, R413, R531): ARRAY_UID is chosen at random, a free value. -/
def Chip.makeArray (c : Chip) (e : BitVec 512) (ms : List Nat) (seq : Nat) : Chip :=
  let a := eField e 4 1
  let S := 2 ^ eField e 7 1
  let cap := ms.foldl (fun m x => min m (c.mbr x).capacity) (2 ^ 64)
  let (uid, c) := c.fresh (2 ^ 128)
  let slot := c.eff (recSe a) 0x100 0
  let prog := if c.slotProg a slot = 0 then 0x10001 else c.slotProg a slot
  let n := eField e 8 1
  let pos := ms.map fun m => ({ member := some m, id := (c.mbr m).nguid } : Position)
  let c := c.changeArr a seq fun _ =>
    { made := true, geom := ⟨n, eField e 5 1, eField e 6 1, stripesPerRow n (eField e 5 1) (eField e 6 1)⟩, stripLog2 := eField e 7 1
      rows := (cap - 0x10000000) / S, prog := prog, uid := uid, pos := pos, capacity := cap }
  let c := (ms.zipIdx).foldl (fun c x => (c.modMbr x.1 fun m => { m with array := a, position := some x.2 }).memberState x.1 .bound 12) c
  let c := (ms.zipIdx).foldl (fun c x => c.seedMember a x.2 x.1) c
  let c := (c.freshRing a).writeLost a
  c.beginEpoch a 1

/-- CREATE_ARRAY (R530, R531, R858). -/
def createArrayOp (f : Fn) (ix : BitVec 16) (c : Chip) : Chip :=
  c.onEntry f 0 ix.toNat 0x10 fun a c =>
    match createEarly a.entry with
    | some s => c.finish f 0 a.pos s.1 s.2
    | none => match a.data with
      | none => c
      | some l =>
        let ms := l.map BitVec.toNat
        match c.createLate a.entry ms with
        | some s => c.finish f 0 a.pos s.1 s.2
        | none => (c.makeArray a.entry (sortNat ms) a.seq).finish f 0 a.pos stOk 0

/-- DELETE_ARRAY (R530, R532): the superblocks take zeros, the attached members become READY, and what the region holds of the array goes. -/
def deleteArrayOp (f : Fn) (ix : BitVec 16) (c : Chip) : Chip :=
  c.onAdmin f ix.toNat 0x11 fun a c =>
    let n := eField a.entry 4 1
    if c.noArray n then ((stRange, 4), c)
    else if c.volumes.any fun v => v.2.state != .none && v.2.array == n then ((stQueueBusy, 0), c)
    else
      let ms := (List.range 48).filter fun m => (c.mbr m).attached && (c.mbr m).array == n
      let c := ms.foldl (fun c m => c.modMbr m fun x => (x.zero 0 4096).zero 0x100000 4096) c
      let c := (c.bobbins.filter fun b => c.bobArray b == n).foldl (fun c b => c.freeBob b) c
      let c := c.changeArr n a.seq fun _ => {}
      let c := ms.foldl (fun c m => (c.modMbr m fun x => { x with position := none }).memberState m .ready 13) c
      ((stOk, 0), c)

/-! ## Volumes (R530, R533–R537) -/

/-- The stripe ranges [f, f + n) and [g, g + m) meet. -/
def meet (f n g m : Nat) : Bool := decide (f < g + m) && decide (g < f + n)

/-- CREATE_VOLUME (R530, R533, R536, R537). -/
def createVolumeOp (f : Fn) (ix : BitVec 16) (c : Chip) : Chip :=
  c.onAdmin f ix.toNat 0x12 fun a c =>
    let e := a.entry
    let v := eField e 4 1
    let n := eField e 5 1
    let first := eField e 8 8
    let count := eField e 0x10 8
    if c.noArray n then ((stRange, 5), c)
    else if (c.arr n).stripes ≤ first then ((stRange, 8), c)
    else if count = 0 ∨ (c.arr n).stripes < first + count then ((stRange, 0x10), c)
    else if (c.vol v).state ≠ .none then ((stState, 1), c)
    else if c.volumes.any fun x => x.2.state != .none && x.2.array == n && meet first count x.2.first x.2.count then ((stState, 7), c)
    else ((stOk, 0), c.volUpdate v fun x =>
      { state := .unformatted, array := n, big := eField e 6 1 == 1, first := first, count := count, gen := x.gen, seq := a.seq })

/-- An item belongs to a volume. -/
def Chip.itemVolume (c : Chip) (i : Item) : Option Nat :=
  match i.source with
  | 0 => some (i.field 4 1)
  | 1 => if i.twr.isSome then none else some (c.rmaWin (i.field 0xC 4 / 4096)).volume
  | 2 => some (i.field 0x2A 1)
  | _ => if i.origin = 7 ∨ i.origin = 8 then some i.pos else none

/-- Work of a volume is outstanding: an item, or an admitted entry that has not ended. -/
def Chip.volBusy (c : Chip) (v : Nat) : Bool :=
  c.anyItem (fun i => c.itemVolume i == some v) ||
  c.funcs.any fun f => f.2.queues.any fun g => g.1 != 0 && g.2.work.any fun a => a.status.isNone && eField a.entry 4 1 == v

/-- An ingest window or a remote window names a volume (R530). -/
def Chip.volNamed (c : Chip) (v : Nat) : Bool :=
  ((List.range 256).any fun x => (c.eff 81 (winOff x) 0 == 1 && c.eff 81 (winOff x + 4) 0 == v) || (c.acc 81 (winOff x) 0 == 1 && c.acc 81 (winOff x + 4) 0 == v)) ||
  c.rma.wins.any fun w => w.2.state != .free && w.2.volumeType && w.2.volume == v

/-- DELETE_VOLUME (R530, R535). -/
def deleteVolumeOp (f : Fn) (ix : BitVec 16) (c : Chip) : Chip :=
  c.onAdmin f ix.toNat 0x13 fun a c =>
    let v := eField a.entry 4 1
    if (c.vol v).state = .none then ((stRange, 4), c)
    else if c.volBusy v ∨ c.volNamed v then ((stQueueBusy, 0), c)
    else ((stOk, 0), c.volUpdate v fun x => { state := .none, array := x.array, gen := x.gen, seq := a.seq })

/-- VOLUME_GRANT (R534): the function's access, kept until it is set again. -/
def volumeGrantOp (f : Fn) (ix : BitVec 16) (c : Chip) : Chip :=
  c.onAdmin f ix.toNat 0x14 fun a c =>
    let e := a.entry
    let v := eField e 4 1
    let g := eField e 5 1
    if (c.vol v).state = .none then ((stRange, 4), c)
    else if g % 64 = 0 ∨ 128 ≤ g then ((stRange, 5), c)
    else ((stOk, 0), c.modVol v fun x => { x with grants := tput x.grants 0 g (eField e 6 1) })

/-! ## Members (R530, R541, R559, R564, R568) -/

/-- MEMBER_TRUST (R529, R564): a slot takes the digest of a root, or is cleared. -/
def memberTrustOp (f : Fn) (ix : BitVec 16) (c : Chip) : Chip :=
  c.onEntry f 0 ix.toNat 0x15 fun a c =>
    let k := eField a.entry 4 1
    if 8 ≤ k then c.finish f 0 a.pos stRange 4
    else if !eInd a.entry ∧ eDlen a.entry = 0 then { c with trust := terase c.trust k }.finish f 0 a.pos stOk 0
    else match a.data with
      | none => c
      | some l => { c with trust := tput c.trust 0 k (ofLe l + 1) }.finish f 0 a.pos stOk 0

/-- RETIRE_MEMBER (R530, R568). -/
def retireMemberOp (f : Fn) (ix : BitVec 16) (c : Chip) : Chip :=
  c.onAdmin f ix.toNat 0x16 fun a c =>
    let n := eField a.entry 4 1
    let y := eField a.entry 5 1
    let m := eField a.entry 6 1
    let r := c.arr n
    if c.noArray n then ((stRange, 4), c)
    else if r.pos.length ≤ y then ((stRange, 5), c)
    else if 47 < m then ((stRange, 6), c)
    else match c.memberAt n y with
      | none => ((stState, 1), c)
      | some old =>
        if !(r.pos[y]?.any fun p => p.state == .inService) then ((stState, 1), c)
        else if r.pass.isSome ∨ r.reshape.isSome ∨ r.retire.isSome then ((stState, 4), c)
        else if (c.mbr m).state ≠ .ready ∨ (c.mbr m).capacity < r.capacity then ((stState, 6), c)
        else
          let c := c.modArr n fun r => { r with retire := some { pos := y, old := old, repl := m } }
          let c := (c.memberState old .retiring 15).modMbr m fun x => { x with array := n, position := none }
          ((stOk, 0), c.memberState m .bound 12)

/-- DETACH_MEMBER (R530, R559). -/
def detachMemberOp (f : Fn) (ix : BitVec 16) (c : Chip) : Chip :=
  c.onAdmin f ix.toNat 0x17 fun a c =>
    let m := eField a.entry 4 1
    if 47 < m then ((stRange, 4), c)
    else if (c.mbr m).state = .bound ∨ (c.mbr m).state = .retiring then ((stState, 3), c)
    else if (c.mbr m).state = .absent then ((stOk, 0), c)
    else ((stOk, 0), c.dropMember m 10)

/-! ## Format and sanitise (R538–R542) -/

/-- A format or sanitise of a volume begins at its ADM_SEQ. -/
def Chip.startFormat (c : Chip) (v seq : Nat) (st : VolState) : Chip :=
  c.volUpdate v fun x => { x with state := st, wasReady := x.state == .ready, seq := seq, mark := 0, cursor := 0, issued := 0 }

/-- What a format or sanitise of a volume meets first (R530). -/
def Chip.formatCheck (c : Chip) (v detail : Nat) : Option (Nat × Nat) :=
  let x := c.vol v
  if x.state = .none then some (stRange, detail)
  else if x.state = .formatting ∨ x.state = .sanitizing then some (stState, 1)
  else if (c.arr x.array).failed then some (stState, 2)
  else none

/-- FORMAT_VOLUME (R530, R538). -/
def formatVolumeOp (f : Fn) (ix : BitVec 16) (c : Chip) : Chip :=
  c.onAdmin f ix.toNat 0x18 fun a c =>
    let v := eField a.entry 4 1
    match c.formatCheck v 4 with
    | some s => (s, c)
    | none => ((stOk, 0), c.startFormat v a.seq .formatting)

/-- SANITIZE (R530, R540, R541, R544). -/
def sanitizeOp (f : Fn) (ix : BitVec 16) (c : Chip) : Chip :=
  c.onAdmin f ix.toNat 0x19 fun a c =>
    let id := eField a.entry 5 1
    if eField a.entry 4 1 = 0 then
      match c.formatCheck id 5 with
      | some s => (s, c)
      | none => ((stOk, 0), c.startFormat id a.seq .sanitizing)
    else if 47 < id then ((stRange, 5), c)
    else if (c.mbr id).state ≠ .ready ∧ (c.mbr id).state ≠ .retired then ((stState, 3), c)
    else ((stOk, 0), (c.memberState id .sanitizing 16).progressEvent id true 2 0 a.seq)

/-! ## REPLACE_MEMBER, SCRUB_NOW (R481, R495, R510, R520) -/

/-- A member may join an array: attached, in no array, and no smaller than C (R501 0x06). -/
def Chip.mayJoin (c : Chip) (m cap : Nat) : Bool := (c.mbr m).state == .ready && decide (cap ≤ (c.mbr m).capacity)

/-- REPLACE_MEMBER (R481, R510, R520). A member that the position still held is released. -/
def replaceMemberOp (f : Fn) (ix : BitVec 16) (c : Chip) : Chip :=
  c.onAdmin f ix.toNat 0x20 fun a c =>
    let n := eField a.entry 4 1
    let y := eField a.entry 5 1
    let m := eField a.entry 6 1
    let r := c.arr n
    if c.noArray n then ((stRange, 4), c)
    else if r.pos.length ≤ y then ((stRange, 5), c)
    else if 47 < m then ((stRange, 6), c)
    else if r.pos[y]?.any (fun p => p.state == .inService) then ((stState, 1), c)
    else if r.reshape.any (fun x => !x.paused) then ((stState, 4), c)
    else if !c.mayJoin m r.capacity then ((stState, 6), c)
    else
      let c := match c.memberAt n y with
        | some old =>
          let c := c.modMbr old fun x => { x with position := none }
          c.memberState old .ready 13
        | none => c
      let id := (c.mbr m).nguid
      let c := (c.modMbr m fun x => { x with array := n, position := some y }).memberState m .bound 12
      let c := c.setPos n y a.seq fun p => { p with state := .rebuilding, toRepl := true, member := some m, id := id }
      ((stOk, 0), (c.startPass n a.seq).seedMember n y m)

/-- SCRUB_NOW (R495, R520). -/
def scrubNowOp (f : Fn) (ix : BitVec 16) (c : Chip) : Chip :=
  c.onAdmin f ix.toNat 0x21 fun a c =>
    let n := eField a.entry 4 1
    let r := c.arr n
    if c.noArray n then ((stRange, 4), c)
    else if r.pass.isSome ∨ r.reshape.isSome then ((stState, 1), c)
    else ((stOk, 0), c.scrubStart n)

/-! ## RESHAPE (R501, R502, R520) -/

/-- The object checks of RESHAPE: array, width, spare, count, member numbers, and the new q (R520, R858). -/
def Chip.reshapeRange (c : Chip) (e : BitVec 512) (ms : List Nat) : Option Nat :=
  let r := c.arr (eField e 4 1)
  let n := r.geom.n + eField e 7 1
  if c.noArray (eField e 4 1) then some 4
  else if eField e 5 1 < 4 ∨ 32 < eField e 5 1 then some 5
  else if 4 < eField e 6 1 then some 6
  else if 48 < n then some 7
  else if ms.any fun m => decide (47 < m) then some 0x28
  else if n < eField e 5 1 then some 5
  else if stripesPerRow n (eField e 5 1) (eField e 6 1) = 0 then some 6
  else none

/-- The refusals of R501. -/
def Chip.reshapeState (c : Chip) (a : Nat) (g : Geom) (ms : List Nat) : Option Nat :=
  let r := c.arr a
  let S := r.stripBytes
  let dOld := r.dataBytes
  let dNew := g.dataBytes S
  let vs := c.volumes.filter fun v => v.2.state != .none && v.2.array == a
  if r.stateCode ≠ 1 ∨ r.pass.isSome then some 1
  else if !r.lost.isEmpty then some 2
  else if r.reshape.isSome then some 3
  else if r.rows * g.rowBytes S < c.dataEnd a then some 4
  else if dOld ≠ dNew ∧ vs.any (fun v => v.2.first * dOld % dNew != 0 || (v.2.first + v.2.count) * dOld % dNew != 0) then some 5
  else if !decide ms.Nodup || ms.any (fun m => !c.mayJoin m r.capacity) then some 6
  else none

/-- A reshape begins: the added members take the next positions, and the first row of its direction is next (R502, R516). -/
def Chip.startReshape (c : Chip) (a : Nat) (g : Geom) (ms : List Nat) (seq : Nat) : Chip :=
  let r0 := c.arr a
  let S := r0.stripBytes
  let E := g.rowBytes S
  let old := r0.geom
  let desc := decide (E < old.rowBytes S)
  let n0 := r0.pos.length
  let news := ms.map fun m => ({ member := some m, id := (c.mbr m).nguid } : Position)
  let c := c.modArr a fun r => { r with pos := r.pos ++ news, reshape := some { desc := desc, old := old, new := g } }
  let rows := c.reshapeRows a
  let c := c.modArr a fun r => { r with reshape := r.reshape.map fun x => { x with selvedge := if desc then rows * E / S else 0, row := if desc then rows - 1 else 0 } }
  let c := (ms.zipIdx n0).foldl (fun c x => (c.modMbr x.1 fun m => { m with array := a, position := some x.2 }).memberState x.1 .bound 12) c
  let c := (ms.zipIdx n0).foldl (fun c x => c.seedMember a x.2 x.1) c
  let c := (c.superUpdate a).writeCheckpoint a
  if rows = 0 then c.reshapeEnd a seq else c

/-- RESHAPE (R501, R520). -/
def reshapeOp (f : Fn) (ix : BitVec 16) (c : Chip) : Chip :=
  c.onEntry f 0 ix.toNat 0x22 fun a c =>
    let e := a.entry
    let n := eField e 4 1
    let data := if eField e 7 1 = 0 ∧ !eInd e then some [] else a.data
    match data with
    | none => c
    | some l =>
      let ms := l.map BitVec.toNat
      match c.reshapeRange e ms with
      | some o => c.finish f 0 a.pos stRange o
      | none =>
        let k := (c.arr n).geom.n + eField e 7 1
        let g : Geom := ⟨k, eField e 5 1, eField e 6 1, stripesPerRow k (eField e 5 1) (eField e 6 1)⟩
        match c.reshapeState n g ms with
        | some d => c.finish f 0 a.pos stState d
        | none => (c.startReshape n g ms a.seq).finish f 0 a.pos stOk 0

/-! ## Meanings -/

def execCreateArray (f : Fn) (ix : BitVec 16) (s : State) := onChip (createArrayOp f ix) s
def execDeleteArray (f : Fn) (ix : BitVec 16) (s : State) := onChip (deleteArrayOp f ix) s
def execCreateVolume (f : Fn) (ix : BitVec 16) (s : State) := onChip (createVolumeOp f ix) s
def execDeleteVolume (f : Fn) (ix : BitVec 16) (s : State) := onChip (deleteVolumeOp f ix) s
def execVolumeGrant (f : Fn) (ix : BitVec 16) (s : State) := onChip (volumeGrantOp f ix) s
def execMemberTrust (f : Fn) (ix : BitVec 16) (s : State) := onChip (memberTrustOp f ix) s
def execRetireMember (f : Fn) (ix : BitVec 16) (s : State) := onChip (retireMemberOp f ix) s
def execDetachMember (f : Fn) (ix : BitVec 16) (s : State) := onChip (detachMemberOp f ix) s
def execFormatVolume (f : Fn) (ix : BitVec 16) (s : State) := onChip (formatVolumeOp f ix) s
def execSanitize (f : Fn) (ix : BitVec 16) (s : State) := onChip (sanitizeOp f ix) s
def execReplaceMember (f : Fn) (ix : BitVec 16) (s : State) := onChip (replaceMemberOp f ix) s
def execScrubNow (f : Fn) (ix : BitVec 16) (s : State) := onChip (scrubNowOp f ix) s
def execReshape (f : Fn) (ix : BitVec 16) (s : State) := onChip (reshapeOp f ix) s


end Sys2Proof.Machine
end

