-- ==== Sys2Proof/Machine/Repair.lean ====
section
/-! DEFINITION. Repair work (10): admission of repair, format, resynchronisation and destage items (R379, R437, R468, R472–R478, R539), and the entries of
the stock program REPAIR (R486–R500, R505–R509, R523). -/

namespace Sys2Proof.Machine

/-! ## Service items -/

/-- Six bits for each of 32 strips: a position, or 63 for none. -/
def pack6 (l : List (Option Nat)) : Nat := ((List.range 32).map fun i => ((l.getD i none).getD 63) % 64 * 2 ^ (6 * i)).sum

/-- The ITEM field of a repair item (R522). -/
def repairBody (kind chunk geom mask : Nat) (src dst : List (Option Nat)) (old new : List Byte) : BitVec 512 :=
  bodyOf [(0, leBytes 1 kind), (1, leBytes 1 chunk), (2, leBytes 1 geom), (4, leBytes 4 mask), (8, leBytes 24 (pack6 src)), (0x20, leBytes 24 (pack6 dst)),
    (0x38, old), (0x3C, new)]

/-- A service item of array `a` on a stripe, its ADM_SEQ not yet taken. -/
def serviceItem (code a s slot ep pos : Nat) (body : BitVec 512) : Item :=
  { seq := 0, handle := 0, source := 3, origin := code, array := a, route := routeOf a 0 s 0, body := body, slot := slot, ep := ep, pos := pos }

/-- Slot and entry points of ARY_BIND and ARY_REPAIR_BIND, in effect. -/
def Chip.bind (c : Chip) (a lsb : Nat) : Nat := c.eff (recSe a) 0x100 lsb
def Chip.rbind (c : Chip) (a lsb : Nat) : Nat := c.eff (recSe a) 0x500 lsb

/-! ## Candidates for admission -/

/-- The holders of a stripe's strips under a map. -/
def holders (map : List Nat) (g : Geom) (s : Nat) : List (Option Nat) := (List.range g.w).map (holder map g s)

/-- Strips that a pass item moves or rebuilds at the level of positions: those whose target differs, or whose before holder is unavailable (R486). -/
def Chip.passMask (c : Chip) (a : Nat) (p : Pass) (g : Geom) (s : Nat) : Nat :=
  maskOf ((List.range g.w).filter fun i =>
    (holder p.target g s i).isSome && (holder p.target g s i != holder p.before g s i || (holder p.before g s i).all fun y => !c.readable a y))

/-- The next pass item (R472, R485, R522). -/
def Chip.passItem (c : Chip) (a : Nat) : Option (Nat × Item) :=
  let r := c.arr a
  match r.pass with
  | none => none
  | some p =>
    if c.serviceOut 3 a ∨ r.stripes ≤ p.mark then none
    else
      let g := r.geom
      some (ownerOf a p.mark, serviceItem 3 a p.mark (c.rbind a 0) (c.rbind a 4) 0
        (repairBody 1 p.chunk 0 (c.passMask a p g p.mark) (holders p.before g p.mark) (holders p.target g p.mark) [] []))

/-- The next row of a retirement copy (R568). -/
def Chip.retireItem (c : Chip) (a : Nat) : Option (Nat × Item) :=
  let r := c.arr a
  match r.retire with
  | none => none
  | some t =>
    if c.serviceOut 4 a ∨ r.rows ≤ t.row then none
    else
      let s := t.row * r.geom.q
      some (ownerOf a s, serviceItem 4 a s (c.rbind a 0) (c.rbind a 4) t.row (repairBody 1 0 0 0 [] [] [] []))

/-- The next scrub item (R495, R496, R522). -/
def Chip.scrubItem (c : Chip) (a : Nat) : Option (Nat × Item) :=
  let r := c.arr a
  match r.scrub with
  | none => none
  | some x =>
    if r.pass.isSome ∨ r.reshape.isSome ∨ c.serviceOut 5 a ∨ r.stripes ≤ x.mark then none
    else some (ownerOf a x.mark, serviceItem 5 a x.mark (c.rbind a 0) (c.rbind a 8) 0
      (repairBody 2 x.chunk 0 0 (holders r.beforeMap r.geom x.mark) [] [] []))

/-- The next stripe of a full resynchronisation: those named first, then the rest in ascending order (R468). -/
def RaidArray.nextResync (a : RaidArray) : Option Nat :=
  match a.resync with
  | none => none
  | some r => (r.first.find? fun s => !r.done.contains s) <|> ((List.range (a.stripes - r.mark)).map (· + r.mark)).find? fun s => !r.done.contains s

/-- The next resynchronisation item. -/
def Chip.resyncItem (c : Chip) (a : Nat) : Option (Nat × Item) :=
  if c.serviceOut 9 a then none
  else (c.arr a).nextResync.map fun s => (ownerOf a s, serviceItem 9 a s (c.bind a 0) (c.bind a 16) 0 0)

/-- A read repair that was held back (R389, R456). -/
def Chip.heldRepair (c : Chip) (a : Nat) : Option (Nat × Item) :=
  (c.arr a).repairs.head?.map fun x => (ownerOf a x.1, serviceItem 2 a x.1 (c.bind a 0) (c.bind a 16) 0
    (bodyOf [(1, leBytes 1 x.2.2), (4, leBytes 4 (2 ^ x.2.1))]))

/-- The next stripe of each format or sanitise on the array (R539, R540). -/
def Chip.formatItems (c : Chip) (a : Nat) : List (Nat × Item) :=
  (c.volumes.filter fun v => (v.2.state == .formatting || v.2.state == .sanitizing) && v.2.array == a && decide (v.2.cursor < v.2.count) &&
    !c.anyItem fun i => i.source == 3 && (i.origin == 7 || i.origin == 8) && i.pos == v.1).map fun v =>
      let s := v.2.first + v.2.cursor
      (ownerOf a s, serviceItem (if v.2.state = .formatting then 7 else 8) a s (c.bind a 0) (c.bind a 4) v.1 0)

/-- Every item that the repair work of an array could admit next. Passes, scrub and retirement wait while it is in full resynchronisation (R478). -/
def Chip.repairWork (c : Chip) (a : Nat) : List (Nat × Item) :=
  let r := c.arr a
  (c.resyncItem a).toList ++ (c.heldRepair a).toList ++ c.formatItems a ++
    if r.resync.isSome then [] else (c.passItem a).toList ++ (c.retireItem a).toList ++ (c.scrubItem a).toList

/-- Proven count of the entry that an item would run. -/
def Chip.costOf (c : Chip) (e : Nat) (i : Item) : Nat := match c.imageOf e i.slot i.ep c.nextPlace with | some m => m.count i.ep | none => 0

/-- R475, R476 and R606 let the item in: the engine's queue holds no item of another source, or the floor admits it; and the ingest calendar leaves the gap. -/
def Chip.mayAdmit (c : Chip) (a : Nat) (x : Nat × Item) : Bool :=
  ((c.eng x.1).queue.all (fun i => i.source == 3) || c.eff (recSe a) 0x504 0 != 0) && c.gapOk x.1 (c.costOf x.1 x.2) && c.fits x.1 (c.costOf x.1 x.2)

/-- The unit serves its arrays. -/
def Chip.serving (c : Chip) : Bool := c.par.role == .active || c.par.role == .alone

/-- Firmware admits repair work of the array: the unit serves it, the plan is nonzero (R456). -/
def Chip.repairOn (c : Chip) (a : Nat) : Bool := c.serving && c.par.handing == .none && c.admits && !c.vault.stopped && (c.arr a).made && (c.arr a).recovered && c.cache.pairQ != 0

/-- REPAIR_ADMIT (R473–R478, R539): which of the pending items comes next is firmware's own choice (log entry 4). -/
def repairAdmitOp (a : Arr) (c : Chip) : Chip :=
  if !c.repairOn a then c
  else
    let c := c.passPhase a c.nextPlace
    match (c.repairWork a).filter (c.mayAdmit a) with
    | [] => c
    | x :: r =>
      let (n, c) := c.fresh (r.length + 1)
      let y := (x :: r).getD n x
      let (seq, c) := c.takeSeq
      let c := c.modArr a fun z => { z with
        starved := false
        repaired := if y.2.origin = 2 then (z.repaired + 1) % 2 ^ 64 else z.repaired
        repairs := if y.2.origin = 2 then z.repairs.tail else z.repairs }
      c.submit y.1 { y.2 with seq := seq }

/-- REPAIR_STARVED (R477): every pending item has been held back by the ingest calendar for 100 ms. -/
def repairStarvedOp (a : Arr) (c : Chip) : Chip :=
  let w := c.repairWork a
  if !c.repairOn a ∨ (c.arr a).starved ∨ w.isEmpty ∨ w.any (fun x => c.gapOk x.1 (c.costOf x.1 x.2)) then c
  else (c.modArr a fun r => { r with starved := true }).arrayEvent a 10 0x3F 0 c.nextPlace

/-- SCRUB_PASS_START (R495): SCRUB_DAYS after the last pass began. -/
def scrubPassStartOp (a : Arr) (c : Chip) : Chip :=
  if !c.repairOn a ∨ (c.arr a).scrub.isSome ∨ c.eff (recSe a) 0x504 8 = 0 then c else c.scrubStart a

/-! ## Destage items (R379, R437) -/

/-- Firmware issues a DESTAGE item for a bobbin that has none (R437, R445). -/
def Chip.issueDestage (c : Chip) (b : Nat) : Chip :=
  let a := c.bobArray b
  let s := c.bobStripe b
  let (seq, c) := c.takeSeq
  let c := { c with cache := { c.cache with issued := c.cache.issued ++ [b] } }
  c.submit (ownerOf a s) { serviceItem 1 a s (c.bind a 0) (c.bind a 12) b 0 with seq := seq }

/-! ## REPAIR REBUILD (R486, R487, R491, R492, R568) -/

/-- The column of sector `k` as the members hold it. -/
def Chip.memberColumn (c : Chip) (a : Nat) (g : Geom) (s k : Nat) : List (Option (List Byte)) := (List.range g.w).map fun i => c.memberSector a g s i k

/-- A strip of a pass's column is to be written: its holder changes, or its before holder does not give it (R486). -/
def Pass.needs (p : Pass) (g : Geom) (s i : Nat) (have0 : Bool) : Bool :=
  (holder p.target g s i).isSome && (holder p.target g s i != holder p.before g s i || !have0)

/-- One column of a pass item: the strips written, and those found lost. -/
def Chip.passColumn (c : Chip) (a : Nat) (p : Pass) (g : Geom) (s k : Nat) : Chip × List Nat :=
  let S := (c.arr a).stripBytes
  let off := stripOff S (s / g.q) (512 * k)
  let col := c.memberColumn a g s k
  let put (c : Chip) (i : Nat) (l : List Byte) : Chip := (c.writeHolders a g s i).foldl (fun c y => c.posWrite a y off l) c
  let vals := match completeCol g.w col with
    | some l => l.map some
    | none => col
  let lost := (List.range g.w).filter fun i => (vals.getD i none).isNone
  ((List.range g.w).foldl (fun c i => match vals.getD i none with
    | some l => if p.needs g s i (col.getD i none).isSome then put c i l else c
    | none => c) c, lost)

/-- The columns of a chunk. -/
def Chip.passColumns (c : Chip) (a : Nat) (p : Pass) (g : Geom) (s : Nat) : List Nat → Chip × List Nat
  | [] => (c, [])
  | k :: r =>
    let (c, l) := c.passColumn a p g s k
    let (c, m) := c.passColumns a p g s r
    (c, (l ++ m).dedup)

/-- The strip of row `r` that position `y` holds at home: its stripe and number; none for a spare column. -/
def stripAt (g : Geom) (y r : Nat) : Option (Nat × Nat) :=
  match (List.range (g.q * g.w)).find? fun col => columnPos g.n col r == y with
  | some col => some (r * g.q + col / g.w, col % g.w)
  | none => none

/-- One row of a retirement copy: what the retiring member reads, with reconstructed bytes where it does not (R568). -/
def Chip.copyRow (c : Chip) (a : Nat) (t : Retire) : Chip :=
  let r := c.arr a
  let S := r.stripBytes
  let old := c.mbr t.old
  (List.range (S / 512)).foldl (fun c k =>
    let off := stripOff S t.row (512 * k)
    let l := if old.isBad off 512 then
        match stripAt r.geom t.pos t.row with
        | some x => (completeCol r.geom.w (c.memberColumn a r.geom x.1 k)).map fun l => l.getD x.2 []
        | none => none
      else some (old.bytes off 512)
    match l with
    | some l => c.modMbr t.repl fun x => x.put off l
    | none => c) c

/-- A member command of a REPAIR program met its limit: the program faults (R263). -/
def Chip.memberLimit (c : Chip) (e : Nat) : Chip := let (w, c) := c.fresh (2 ^ 32); c.engineFault e fSoft 0x82 w

/-- REBUILD: one chunk of a pass, or one row of a retirement copy. A LIMIT here is that of a member completion. -/
def rebuildOp (e : Se) (l : LandResult) (c : Chip) : Chip :=
  match c.stock e 0x10002 0, c.taken e with
  | some _, i :: _ =>
    let a := i.array
    let s := i.stripe
    if c.writesWait a then c
    else match l with
      | .limit => c.memberLimit e
      | .fenced => if c.par.role = .fenced ∨ c.par.role = .standby then c.endStock e stFenced else c
      | .confirmed =>
        if i.origin = 4 then
          let c := match (c.arr a).retire with | some t => if t.row = i.pos then c.copyRow a t else c | none => c
          c.endStock e stOk
        else match (c.arr a).pass with
          | none => c.endStock e stOk
          | some p =>
            let g := (c.arr a).geomOf s
            let (c, lost) := c.passColumns a p g s (chunkSectors (c.arr a).stripBytes (i.field 1 1))
            let c := if lost.isEmpty then c else c.loseStrips e a s lost 2 i.seq
            (c.endStock e stOk).passPhase a i.seq
  | _, _ => c

/-! ## REPAIR SCRUB (R497–R500) -/

/-- What scrub finds in a sector (R498). -/
inductive ScrubClass
  | clean | pBad | qBad | dBad (z : Nat) | unlocated
deriving DecidableEq, Repr

/-- `classify` (R498). -/
def classify (sp sq : List Byte) (d : Nat) : ScrubClass :=
  let anyP := sp.any (· != 0)
  let anyQ := sq.any (· != 0)
  if !anyP && !anyQ then .clean
  else if !anyQ then .pBad
  else if !anyP then .qBad
  else
    let ps := List.zip sp sq
    if ps.any fun x => (x.1 == 0) != (x.2 == 0) then .unlocated
    else
      let zs := (ps.filter fun x => x.1 != 0).map fun x => (gfLog x.2 + 255 - gfLog x.1) % 255
      match zs with
      | z :: r => if r.all (· == z) && decide (z < d) then .dBad z else .unlocated
      | [] => .clean

/-- A whole column's class, and the sectors that its correction rewrites. -/
def correct (d : Nat) (col : List (List Byte)) : ScrubClass × List (Nat × List Byte) :=
  let ds := col.take d
  let (p, q) := parity ds
  let sp := List.zipWith (· ^^^ ·) p (col.getD d [])
  let sq := List.zipWith (· ^^^ ·) q (col.getD (d + 1) [])
  match classify sp sq d with
  | .clean => (.clean, [])
  | .pBad => (.pBad, [(d, p)])
  | .qBad => (.qBad, [(d + 1, q)])
  | .dBad z => (.dBad z, [(z, List.zipWith (· ^^^ ·) (ds.getD z []) sp)])
  | .unlocated => (.unlocated, [(d, p), (d + 1, q)])

/-- ARY_SCRUB_FIX counts a class, saturating. -/
def countFix (f : Nat × Nat × Nat × Nat) : ScrubClass → Nat × Nat × Nat × Nat
  | .clean => f
  | .pBad => (satAdd 16 f.1 1, f.2)
  | .qBad => (f.1, satAdd 16 f.2.1 1, f.2.2)
  | .dBad _ => (f.1, f.2.1, satAdd 16 f.2.2.1 1, f.2.2.2)
  | .unlocated => (f.1, f.2.1, f.2.2.1, satAdd 16 f.2.2.2 1)

/-- Sector corrections as each strip's sectors. -/
def byStrip (w : Nat) (l : List (Nat × Nat × List Byte)) : List (Nat × List (Nat × List Byte)) :=
  ((List.range w).map fun i => (i, (l.filter fun x => x.1 == i).map (·.2))).filter fun x => !x.2.isEmpty

/-- The scrub pass counts corrected sectors. -/
def Chip.countScrub (c : Chip) (a : Nat) (cls : List ScrubClass) : Chip :=
  c.modArr a fun r => { r with
    fix := cls.foldl countFix r.fix
    scrub := r.scrub.map fun s => { s with fixed := s.fixed + (cls.filter fun x => x != .clean).length } }

/-- SCRUB: one chunk. A stripe with a bobbin is skipped (R497); unreadable ranges are repaired, and a chunk with more than two strips unavailable is listed
with CAUSE 1 (R500). -/
def scrubOp (e : Se) (l : LandResult) (c : Chip) : Chip :=
  match c.stock e 0x10002 1, c.taken e with
  | some _, i :: _ =>
    let a := i.array
    let s := i.stripe
    let g := (c.arr a).geomOf s
    if (c.openBob a s).isSome ∨ (c.oldBob a s).isSome then
      (c.modArr a fun r => { r with scrub := r.scrub.map fun x => { x with skipped := x.skipped + 1 } }).endStock e stOk
    else
      let ks := chunkSectors (c.arr a).stripBytes (i.field 1 1)
      let lost := (ks.flatMap fun k => let u := c.unavailStrips a g s k 1; if 2 < u.length then u else []).dedup
      if !lost.isEmpty then (c.loseStrips e a s lost 1 i.seq).endStock e stOk
      else
        let bad := ((List.range g.w).filter fun j => !(c.badChunks a g s j (ks.headD 0) ks.length).isEmpty).map fun j => (j, i.field 1 1)
        let found := ks.filterMap fun k => (allSome (c.memberColumn a g s k)).map fun col => (k, correct g.d col)
        let cls := found.map fun x => x.2.1
        let vals := byStrip g.w (found.flatMap fun x => x.2.2.map fun y => (y.1, x.1, y.2))
        let after (c : Chip) : Chip := bad.foldl (fun c x => c.wantRepair a s x.1 x.2) c
        if vals.isEmpty then after (c.endStock e stOk)
        else match landing c.par.role l, c.rewrite e a s g vals i (512 * ks.length) with
          | some r, some c1 => after ((c1.countScrub a cls).landEnd e r stOk fun c => c)
          | _, _ => c
  | _, _ => c

/-! ## Reshape (R505–R509, R511) -/

/-- The stripes of a new row. -/
def rowStripes (g : Geom) (row : Nat) : List Nat := (List.range g.q).map (· + row * g.q)

/-- Old stripes that hold data of new row `row` (R506). -/
def Reshape.oldStripes (r : Reshape) (S row : Nat) : List Nat :=
  let E := r.new.rowBytes S
  let D := r.old.dataBytes S
  if D = 0 then [] else (List.range (((row + 1) * E + D - 1) / D - row * E / D)).map (· + row * E / D)

/-- The bobbins of the given stripes. -/
def Chip.bobsOf (c : Chip) (a : Nat) (ss : List Nat) : List Nat := c.bobbins.filter fun b => c.bobArray b == a && ss.contains (c.bobStripe b)

/-- RESHAPE_STEP (R505, R506, R508): one item for each chunk of each stripe of the next new row, at one ADM_SEQ; the bobbins of the old stripes get DESTAGE
items. The step waits until the previous row has been written to the members. -/
def reshapeStepOp (a : Arr) (c : Chip) : Chip :=
  match (c.arr a).reshape with
  | none => c
  | some r =>
    let S := (c.arr a).stripBytes
    let up := r.ascending S
    let prev := if up then r.row - 1 else r.row + 1
    if !c.repairOn a ∨ r.paused ∨ r.pausing ∨ r.stepping ∨ (c.arr a).resync.isSome ∨ (r.row ≠ prev ∧ !(c.bobsOf a (rowStripes r.new prev)).isEmpty) then c
    else
      let items := (rowStripes r.new r.row).flatMap fun s => (List.range (chunksOf S)).map fun ch =>
        (ownerOf a s, serviceItem 6 a s (c.rbind a 0) (c.rbind a 12) ch
          (repairBody 3 ch 1 0 (holders (c.arr a).beforeMap r.old s) [] r.old.bytes r.new.bytes))
      if !items.all (c.mayAdmit a) then c
      else
        let olds := (c.bobsOf a (r.oldStripes S r.row)).filter fun b => !c.cache.issued.contains b
        let (seq, c) := c.takeSeq
        let c := c.modArr a fun x => { x with starved := false, reshape := some { r with stepping := true, left := items.length } }
        let c := items.foldl (fun c x => c.submit x.1 { x.2 with seq := seq }) c
        olds.foldl (fun c b => c.issueDestage b) c

/-- R506 holds: the bobbins of the old stripes are FREE, and no item admitted earlier waits for one of them. -/
def Chip.reshapeReady (c : Chip) (a : Nat) (r : Reshape) (S seq : Nat) : Bool :=
  let olds := r.oldStripes S r.row
  (c.bobsOf a olds).all (fun b => (rowStripes r.new r.row).contains (c.bobStripe b)) &&
  !c.anyItem fun i => i.array == a && i.source != 3 && decide (timeDiff i.seq seq < 0) && olds.contains i.stripe

/-- A sector of the old side, as the members hold it. -/
def Chip.oldSector (c : Chip) (a : Nat) (g : Geom) (S x : Nat) : Option (List Byte) :=
  let D := g.dataBytes S
  let s := x / D
  let i := x % D / S
  let k := x % S / 512
  match c.memberSector a g s i k with
  | some l => some l
  | none => (completeCol g.w (c.memberColumn a g s k)).map fun l => l.getD i []

/-- REPAIR_RESHAPE: one chunk of a new stripe is read on the old side, built in a bobbin and landed; data that cannot be read is listed under the new stripe
(R507, R511). -/
def repairReshapeOp (e : Se) (l : LandResult) (c : Chip) : Chip :=
  match c.stock e 0x10002 2, c.taken e with
  | some _, i :: _ =>
    let a := i.array
    let s := i.stripe
    match (c.arr a).reshape with
    | none => c.endStock e stOk
    | some r =>
      let S := (c.arr a).stripBytes
      let g := r.new
      let ks := chunkSectors S (i.field 1 1)
      let at0 (j k : Nat) : Nat := s * g.dataBytes S + j * S + 512 * k
      let get (j k : Nat) : Option (List Byte) := if c.dataEnd a ≤ at0 j k then some (List.replicate 512 0) else c.oldSector a r.old S (at0 j k)
      let lost := (List.range g.d).filter fun j => ks.any fun k => (get j k).isNone
      let pieces := (List.range g.d).flatMap fun j => ks.map fun k => (⟨j, 512 * k, (get j k).getD (List.replicate 512 0)⟩ : Piece)
      if !c.reshapeReady a r S i.seq || !c.roomFor a s (chunksIn ks) (List.range g.w) || !c.ringRoom a 128 then c
      else match landing c.par.role l, c.needBob a g s with
        | some res, (some b, c1) =>
          let c1 := c1.mirrorNew c e false 0 a
          let c2 := ks.foldl (fun c k =>
            let ds := (List.range g.d).map fun j => ((pieces.find? fun p => p.strip == j && p.off == 512 * k).map (·.data)).getD []
            c.putColumn b g.d k (List.range g.d) ds) c1
          let c2 := (c2.mirrorWritten e false b).writeRecords e a s b S g.d false [i]
          let c2 := if lost.isEmpty then c2 else c2.loseStrips e a s lost 2 i.seq
          c2.landEnd e res (if lost.length = g.d then stDataLost else stOk) fun c => c
        | _, _ => c
  | _, _ => c

/-! ## INGEST LAND_FRAME, CHAIN TRIGGERED (R608, R609, R664) -/

/-- The ingest items are written one after the other: each with the status it ends with, ST_OK where it landed. None while one has no room. -/
def Chip.writeFrames (c : Chip) (e : Nat) : List Item → Option (Chip × List (Item × Nat))
  | [] => some (c, [])
  | i :: r =>
    let a := i.array
    let s := i.stripe
    let g := (c.arr a).geomOf s
    let ps := c.piecesOf (c.arr a).stripBytes i
    let full := c.replaces i
    let step : Option (Chip × Nat) := match c.writeCheck i full g ps with
      | some (code, lost) => some (if lost.isEmpty then c else c.loseStrips e a s lost 3 i.seq, code)
      | none => (c.writeStripe e a s g full ps [i]).map fun c => (c, stOk)
    match step with
    | none => none
    | some (c, code) => (c.writeFrames e r).map fun x => (x.1, (i, code) :: x.2)

/-- Items complete in ascending frame index, each with its status. -/
def Chip.completeFrames (c : Chip) (e : Nat) (l : List (Item × Nat)) : Chip :=
  let c := c.modEng e fun x => { x with run := none, anchor := none, loops := [] }
  l.foldl (fun c x => c.completeItem e x.1 x.2 (c.detailOf e x.2) c.nowNs) c

/-- LAND_FRAME: the items of one window that stand in the queue land together. -/
def landFrameOp (e : Se) (l : LandResult) (c : Chip) : Chip :=
  match c.stock e 0x10003 0, c.taken e with
  | some _, i :: _ =>
    let c1 := c.gather e (fun j => j.source == 2 && j.origin == i.origin) 64
    match landing c1.par.role l, c1.writeFrames e (c1.taken e) with
    | some .confirmed, some (c2, done) =>
      let c3 := c2.confirmUpTo e (c2.eng e).issued (c2.par.role == .alone)
      let c4 := done.foldl (fun c x => if x.2 = stOk then c.writeLanded e x.1.array x.1.stripe (c.replaces x.1) x.1.seq else c) c3
      c4.completeFrames e done
    | some .fenced, some (c2, done) => c2.completeFrames e (done.map fun x => (x.1, stFenced))
    | some .limit, some (c2, _) => c2.landEnd e .limit stOk fun c => c
    | _, _ => c
  | _, _ => c

/-- TRIGGERED: the copy of a fired PROGRAM request, made from an unchanged image of its source (R664). -/
def triggeredOp (e : Se) (c : Chip) : Chip :=
  match c.stock e 0x10004 0, c.taken e with
  | some _, i :: _ =>
    let l := mread hbmInit c.hbm (i.field 0x18 8) (i.field 0x2C 4)
    (c.hbmWrite (i.field 0x20 8) l).endStock e stOk
  | _, _ => c

/-! ## Meanings -/

def execRepairAdmit (a : Arr) (s : State) := onChip (repairAdmitOp a) s
def execRepairStarved (a : Arr) (s : State) := onChip (repairStarvedOp a) s
def execRebuild (e : Se) (l : LandResult) (s : State) := onChip (rebuildOp e l) s
def execScrub (e : Se) (l : LandResult) (s : State) := onChip (scrubOp e l) s
def execScrubPassStart (a : Arr) (s : State) := onChip (scrubPassStartOp a) s
def execReshapeStep (a : Arr) (s : State) := onChip (reshapeStepOp a) s
def execRepairReshape (e : Se) (l : LandResult) (s : State) := onChip (repairReshapeOp e l) s
def execLandFrame (e : Se) (l : LandResult) (s : State) := onChip (landFrameOp e l) s
def execTriggered (e : Se) (s : State) := onChip (triggeredOp e) s


end Sys2Proof.Machine
end

