-- ==== Sys2Proof/Machine/Cache.lean ====
section
/-! DEFINITION. The protected cache and the vault as commands move them (09): DESTAGE items, the plan, PWR_FAIL with its dump, slot erases and spill copies. -/

namespace Sys2Proof.Machine

/-! ## Destage (R379, R437, R445) -/

/-- DESTAGE_ISSUE: firmware issues a DESTAGE item for a bobbin that has none. An OPEN bobbin waits while its stripe has an older one (R430). That it is full, idle,
old, or beyond a threshold is what the command says (log entry 44). -/
def destageIssueOp (b : Fin 16384) (c : Chip) : Chip :=
  let a := c.bobArray b
  let st := c.bobState b
  let behind := st == 1 && (c.oldBob a (c.bobStripe b)).isSome
  if st = 0 ∨ 3 < st ∨ behind ∨ !c.serving ∨ c.par.handing ≠ .none ∨ !c.clocked ∨ c.vault.stopped ∨ c.cache.issued.contains b.val then c
  else (c.checkPlan).issueDestage b

/-! ## The plan (R420, R421, R452–R454, R471) -/

/-- Writes can land: the plan is nonzero and a slot is armed (R832). -/
def Chip.writesEnabled (c : Chip) : Chip := if c.cache.pairQ ≠ 0 ∧ c.vault.armed then c.milestone 4 else c

/-- PLAN_CHANGE: the plan of the latest accepted E and the partner's PLAN_Q takes effect at the CCH_ boundary. -/
def planChangeOp (c : Chip) : Chip :=
  if !c.clocked ∨ c.vault.stopped then c
  else
    let own := planQ c.age.eAcc (c.eff 26 0x100 0)
    let smaller := c.partnerSeen && decide (c.par.partnerPlan < own)
    let pair := if smaller then c.par.partnerPlan else own
    let old := c.cache.pairQ
    let c := { c with cache := { c.cache with ownQ := own, pairQ := pair, partnerSmaller := smaller, eMeas := min 65535 c.age.eAcc } }
    let c := if pair = old then c else (c.writeRegionHeader pair).vaultEvent 3 0 c.pages
    c.checkPlan.writesEnabled

/-! ## PWR_FAIL and the dump (R459–R461, R746, R809, R820) -/

/-- PWR_FAIL_ASSERT: admission, engines, channels and mirroring stop, a hold-up test ends without a measurement, and the dump begins. In SIDING the CLEAN image
already stands in the vault. -/
def pwrFailAssertOp (c : Chip) : Chip :=
  if c.vault.pwrFail ∨ c.pwr.state = .off then c
  else
    let c := ({ c with vault := { c.vault with pwrFail := true } }.pulse 0xEC).request 0xFFFFFFF
    if c.pwr.state = .siding then c
    else
      let c := if c.age.hupRunning.isSome then { (c.emit (.hupTest false)) with age := { c.age with hupRunning := none, hupTestPin := false } } else c
      let c := (List.range 64).foldl (fun c n => c.cutChan n) c
      let c := (List.range 20).foldl (fun c e => c.modEng e Engine.halt) c
      let c := { c with
        par := { c.par with queue := c.par.queue.filter fun m => m.cls != 5 && m.cls != 6 }
        vault := { c.vault with stopped := true } }
      c.dumpStart

/-- A dump has ended, or there was none, and PWR_FAIL is deasserted: the chip reset of R460. -/
def Chip.afterDump (c : Chip) : Chip := if c.vault.stopped && !c.vault.dumping && !c.vault.pwrFail then c.chipReset 4 0 0 false else c

/-- VAULT_DUMP_END: the trailer is written and the image is current. -/
def vaultDumpEndOp (c : Chip) : Chip := if c.vault.dumping then c.dumpEnd.afterDump else c

/-- PWR_FAIL_DEASSERT. -/
def pwrFailDeassertOp (c : Chip) : Chip := { c with vault := { c.vault with pwrFail := false } }.afterDump

/-! ## Slot erases (R457, R458) -/

/-- VAULT_ERASE_DONE: the slot is erased, and arms where none is armed. -/
def vaultEraseDoneOp (c : Chip) : Chip :=
  match c.vault.erasing with
  | none => c
  | some s =>
    let v := { c.vault.setErased s true with erasing := none }
    { c with vault := if v.armed then v else { v with armed := true, armedSlot := s } }.writesEnabled

/-! ## Spill copies (R446, R447, R449) -/

/-- Bytes of the ring from the first record that is not in the spill copies, at most 1 MiB of whole records: their offset and length, and the JSEQ after them. -/
def spillRun (jseq : Nat) : List JRec → Option (Nat × Nat × Nat) → Option (Nat × Nat × Nat)
  | [], acc => acc
  | r :: l, none => spillRun jseq l (if r.jseq < jseq then none else some (r.off, r.size, r.jseq + 1))
  | r :: l, some (o, n, j) => if 0x100000 < n + r.size then some (o, n, j) else spillRun jseq l (some (o, n + r.size, r.jseq + 1))

/-- Bytes at a ring offset of the ring copy of one position, wrapping at its end. -/
def Chip.spillPut (c : Chip) (a y off : Nat) (l : List Byte) : Chip :=
  let n := ringSize - off % ringSize
  let c := c.posWrite a y (0x1800000 + off % ringSize) (l.take n)
  if l.length ≤ n then c else c.posWrite a y 0x1800000 (l.drop n)

/-- SPILL_COPY: the landed records go to both ring copies in one run, with the headers that name them. -/
def spillCopyOp (a : Arr) (c : Chip) : Chip :=
  let r := c.arr a
  let landed := (List.range 16).all fun e => (c.eng e).tickets.isEmpty
  if !c.serving ∨ !c.clocked ∨ c.vault.stopped ∨ !r.made ∨ !r.recovered ∨ r.spills.isEmpty ∨ !landed ∨ c.writesWait a then c
  else match spillRun r.spillJseq (c.records a) none with
    | none => c
    | some (o, n, j) =>
      let l := c.ringRead a o n
      let c := (c.arr a).spills.foldl (fun c y => c.spillPut a y o l) c
      (c.modArr a fun x => { x with spillJseq := j }).writeSpillHeader a

/-! ## Meanings -/

def execDestageIssue (b : Fin 16384) (s : State) := onChip (destageIssueOp b) s
def execPlanChange (s : State) := onChip planChangeOp s
def execPwrFailAssert (s : State) := onAon pwrFailAssertOp s
def execVaultDumpEnd (s : State) := onChip vaultDumpEndOp s
def execPwrFailDeassert (s : State) := onAon pwrFailDeassertOp s
def execVaultEraseDone (s : State) := onChip vaultEraseDoneOp s
def execSpillCopy (a : Arr) (s : State) := onChip (spillCopyOp a) s


end Sys2Proof.Machine
end

