-- ==== Sys2Proof/Machine/Recovery.lean ====
section
/-! DEFINITION. Recovery at start-up (R412, R464–R471, R517–R519, R537, R543, R870): the metadata of an array as its members hold it, the image that is loaded, the
full resynchronisation, and what resumes. -/

namespace Sys2Proof.Machine

/-! ## The members of an array (R412, R870) -/

/-- (member, superblock) of the members that wait for the recovery of array `a`. -/
def Chip.claims (c : Chip) (a : Nat) : List (Nat × Super) :=
  (c.members.filter fun m => m.2.waits).filterMap fun m => match m.2.superblock with
    | some s => if s.number = a then some (m.1, s) else none
    | none => none

/-- A UID as its 16 bytes compare from byte 0. -/
def uidOrder (u : Nat) : Nat := ofBe (leBytes 16 u)

/-- The UID carried by the most members, the lowest among equals. -/
def majority (us : List Nat) : Option Nat :=
  us.foldl (fun m u => match m with
    | none => some u
    | some v =>
      let n := us.count u
      let k := us.count v
      if k < n ∨ (n = k ∧ uidOrder u < uidOrder v) then some u else some v) none

/-- This unit's current image, with what it says of array `a`: UID, JEPOCH and LAST_JSEQ. -/
def Chip.imageFor (c : Chip) (a : Nat) : Option (VaultImage × Nat × Nat × Nat) :=
  match c.vault.newest.bind c.vault.slot with
  | some i => (i.arrays.find? fun x => x.1 == a).map fun x => (i, x.2)
  | none => none

/-- The UID that the array binds to (R870). -/
def Chip.chooseUid (c : Chip) (a : Nat) (f : RecoveryFacts) (cl : List (Nat × Super)) : Option Nat :=
  let us := cl.map (·.2.uid)
  (f.partnerUid.map (·.toNat)).filter us.contains <|> ((c.imageFor a).map (·.2.1)).filter us.contains <|> majority us

/-- The newest superblock among members of one UID. -/
def newestSuper (l : List (Nat × Super)) : Option Super :=
  l.foldl (fun m x => match m with | none => some x.2 | some s => if s.gen < x.2.gen then some x.2 else some s) none

/-! ## Blocks read back (R410, R446, R447, R515, R536) -/

/-- GENERATION and entries of a valid lost-stripe list. -/
def Member.lostList (m : Member) : Option (Nat × List LostEntry) :=
  let h := m.bytes 0x200000 4096
  let n := blockF h 4 4
  let es := m.bytes 0x201000 (16 * min n 65536)
  if blockF h 0 4 = 0x534C5A56 ∧ crcOk4k h ∧ n ≤ 65536 ∧ crc32c es = blockF h 0x10 4 then
    some (blockF h 8 8, (List.range n).map fun k => ⟨blockF es (16 * k) 8, blockF es (16 * k + 8) 4, blockF es (16 * k + 12) 1⟩)
  else none

/-- The valid checkpoint blocks of a member for a UID. -/
def Member.checkpoints (m : Member) (uid : Nat) : List (List Byte) :=
  [m.bytes 0x400000 4096, m.bytes 0x401000 4096].filter fun l => blockF l 0 4 == 0x4B435A56 && blockF l 4 2 == 1 && crcOk4k l && blockF l 8 16 == uid

/-- The block with the highest number at offset `o`. -/
def newestBlock (o n : Nat) (l : List (List Byte)) : Option (List Byte) :=
  l.foldl (fun m x => match m with | none => some x | some y => if blockF y o n < blockF x o n then some x else some y) none

/-- The valid spill headers of a member for a UID. -/
def Member.spillHeaders (m : Member) (uid : Nat) : List (List Byte) :=
  [m.bytes 0x800000 4096, m.bytes 0x801000 4096].filter fun l => blockF l 0 4 == 0x534A5A56 && blockF l 4 2 == 1 && crcOk4k l && blockF l 8 16 == uid

/-- The valid records of volume `v` on a member. -/
def Member.volRecords (m : Member) (v : Nat) : List (List Byte) :=
  [m.bytes (0x404000 + 64 * v) 64, m.bytes (0x408000 + 64 * v) 64].filter fun l => crc32c (l.take 0x3C) == blockF l 0x3C 4

/-- The state of a STATE code of R536. -/
def volStateOf (n : Nat) : VolState :=
  if n = 1 then .unformatted else if n = 2 then .formatting else if n = 3 then .ready else if n = 4 then .sanitizing else .none

/-- A volume as its record says. -/
def volOf (l : List Byte) : Volume :=
  let f := blockF l
  { state := volStateOf (f 1 1), array := f 2 1, big := f 3 1 == 1, first := f 8 8, count := f 0x10 8, mark := f 0x18 8, gen := f 0x20 8, seq := f 0x28 8,
    cursor := f 0x18 8 }

/-- A geometry in four bytes. -/
def geomAt0 (l : List Byte) (o : Nat) : Geom := ⟨blockF l o 1, blockF l (o + 1) 1, blockF l (o + 2) 1, blockF l (o + 3) 1⟩

/-! ## The array as its metadata says -/

/-- A position: its state from the superblock, its slot and its move from the target map. -/
def positionOf (state target id : Nat) : Position :=
  let f := bits target 1 3
  { member := none
    state := if state = 1 then .unavailable else if state = 2 then .rebuilding else if state = 3 then .onSpare else .inService
    slot := if state = 1 ∨ f = 7 then none else some f
    toRepl := state == 2 && target % 2 == 1
    id := id }

/-- The reshape of a checkpoint, its next row found from SELVEDGE. -/
def reshapeOf (l : List Byte) (S : Nat) : Option Reshape :=
  if blockF l 0xB0 1 = 0 then none
  else
    let new := geomAt0 l 0xB8
    let desc := blockF l 0xB1 1 == 1
    let sel := blockF l 0xC0 8
    let row := sel * S / max 1 (new.rowBytes S)
    some { paused := blockF l 0xB0 1 == 2, desc := desc, old := geomAt0 l 0xB4, new := new, selvedge := sel, row := if desc then row - 1 else row }

/-- The array from its newest superblock, checkpoint and lost-stripe list. -/
def arrayOf (s : Super) (lost : Option (Nat × List LostEntry)) (ck : Option (List Byte)) (headerGen : Nat) : RaidArray :=
  let S := 2 ^ s.stripLog2
  let l := ck.getD []
  let rs := if ck.isSome then reshapeOf l S else none
  let n := match rs with | some r => max r.old.n r.new.n | none => s.geom.n
  let bytes (o : Nat) : List Nat := (List.range n).map fun y => blockF l (o + y) 1
  let target (y : Nat) : Nat := if ck.isSome then blockF l (0x70 + y) 1 else if s.states.getD y 0 = 1 then 14 else 15
  { made := true, geom := s.geom, stripLog2 := s.stripLog2, rows := s.rows, prog := s.prog, uid := s.uid, gen := s.gen,
    pos := (List.range n).map fun y => positionOf (s.states.getD y 0) (target y) (s.ids.getD y 0)
    capacity := 0x10000000 + s.rows * S
    lost := (lost.map (·.2)).getD []
    lostGen := (lost.map (·.1)).getD 0
    spill0 := s.spill0
    spill1 := s.spill1
    headerGen := headerGen
    ckGen := if ck.isSome then blockF l 0x18 8 else 0
    pass := if ck.isSome ∧ blockF l 0x20 1 = 1 then
        some { main := blockF l 0x21 1 == 1, mark := blockF l 0x28 8, before := bytes 0x40, target := bytes 0x70, unav := blockF l 0x30 8,
               spareAtStart := onSpareOf (bytes 0x40) }
      else none
    scrub := if ck.isSome ∧ blockF l 0xA8 8 ≠ 0 then some { mark := blockF l 0xA0 8, start := blockF l 0xA8 8 } else none
    reshape := rs
    recovered := false }

/-! ## Loading the journal (R465–R467) -/

/-- A byte of the region belongs to array `a` as image `m` says: its ring and ring state, its bobbins, their page entries and pages. -/
def ofArray (m : Mem) (a x : Nat) : Bool :=
  let le (o n : Nat) : Nat := ofLe (mread hbmInit m o n)
  let mine (b : Nat) : Bool := b < 16384 && le (bobAt b) 1 != 0 && le (bobAt b + 1) 1 == a
  if x < 0x1000 then decide (ringAt a ≤ x) && decide (x < ringAt a + 28)
  else if x < 0x11000000 then decide (ringBase a ≤ x) && decide (x < ringBase a + ringSize)
  else if x < 0x12000000 then mine ((x - 0x11000000) / 1024)
  else if x < 0x12400000 then mine (le (pageEntry ((x - 0x12000000) / 32)) 4)
  else decide (0x14000000 ≤ x) && mine (le (pageEntry ((x - 0x14000000) / 0x10000)) 4)

/-- The array's part of an image goes into HBM. -/
def Chip.loadImage (c : Chip) (a : Nat) (m : Mem) : Chip := (m.filter fun x => ofArray m a x.1).foldl (fun c x => c.hbmWrite x.1 [x.2]) c

/-- Bobbins of an array. -/
def Chip.arrayBobs (c : Chip) (a : Nat) : List Nat := c.bobbins.filter fun b => c.bobArray b == a

/-- The loaded ring ends at a record whose CRC fails, and bobbins named only by later records are freed (R467). -/
def Chip.cutRing (c : Chip) (a : Nat) : Chip :=
  let rs := c.records a
  match rs.find? fun r => !r.crcOk with
  | none => c
  | some bad =>
    let named := (rs.takeWhile (·.crcOk)).map (·.bobbin)
    let c := c.hbmWrite (ringAt a) (leBytes 8 bad.off)
    ((c.arrayBobs a).filter fun b => !named.contains b).foldl (fun c b => c.freeBob b) c

/-- DESTAGING and RETIRING bobbins both become DESTAGING (R466). -/
def Chip.redoDestages (c : Chip) (a : Nat) : Chip :=
  ((c.arrayBobs a).filter fun b => c.bobState b == 3).foldl (fun c b => c.hbmWrite (bobAt b) (leBytes 1 2)) c

/-- The ring of an array as a recovery without a load begins it: empty, past every JSEQ used so far. -/
def Chip.emptyRing (c : Chip) (a jepoch next : Nat) : Chip :=
  c.hbmWrite (ringAt a) (leBytes 8 0 ++ leBytes 8 0 ++ leBytes 4 jepoch ++ leBytes 8 next)

/-! ## What resumes (R513, R518, R543) -/

/-- (PHASE, MARK) of the newest PROGRESS record of a kind, and of a volume where the kind names one. -/
def newestProgress (rs : List JRec) (kind vol : Nat) : Option (Nat × Nat) :=
  ((rs.filter fun r => r.type == 8 && r.crcOk && blockF r.body 0 1 == kind && (kind < 4 || blockF r.body 2 1 == vol)).getLast?).map
    fun r => (blockF r.body 1 1, blockF r.body 8 8)

/-- The marks of the journal where they are later than those of the members. -/
def Chip.resumeFrom (c : Chip) (a : Nat) : Chip :=
  let rs := c.records a
  let S := (c.arr a).stripBytes
  let c := c.modArr a fun r => { r with
    pass := r.pass.map fun p => match newestProgress rs 1 0 with
      | some (ph, m) => if (b2n p.main, p.mark) = (ph, m) ∨ ph < b2n p.main ∨ (ph = b2n p.main ∧ m < p.mark) then p else { p with main := ph == 1, mark := m, chunk := 0 }
      | none => p
    scrub := r.scrub.map fun s => match newestProgress rs 2 0 with
      | some (_, m) => { s with mark := max s.mark m }
      | none => s
    reshape := r.reshape.map fun x => match newestProgress rs 3 0 with
      | some (_, m) =>
        let row := m * S / max 1 (x.new.rowBytes S)
        { x with selvedge := m, row := if x.desc then row - 1 else row }
      | none => x
    progressLive := (rs.filter fun r => r.type == 8).map (·.jseq) }
  (c.volumes.filter fun v => v.2.array == a && (v.2.state == .formatting || v.2.state == .sanitizing)).foldl (fun c v =>
    match newestProgress rs (if v.2.state = .formatting then 4 else 5) v.1 with
    | some (_, m) => c.modVol v.1 fun x => { x with mark := max x.mark m, cursor := max x.cursor m }
    | none => c) c

/-! ## A reshape resumed without its journal (R519) -/

/-- A column of a stripe passes R386: every strip is read, and P and Q match. -/
def Chip.columnGood (c : Chip) (a : Nat) (g : Geom) (s k : Nat) : Option (List (List Byte)) :=
  match allSome ((List.range g.w).map fun i => c.memberSector a g s i k) with
  | some l => if parity (l.take g.d) = (l.getD g.d [], l.getD (g.d + 1) []) then some l else none
  | none => none

/-- Every column of a stripe passes. -/
def Chip.stripeGood (c : Chip) (a : Nat) (g : Geom) (s : Nat) : Bool :=
  (List.range ((c.arr a).stripBytes / 512)).all fun k => (c.columnGood a g s k).isSome

/-- A new row passes in the new geometry, or in the old one: the old stripes that hold its data. -/
def Chip.rowGood (c : Chip) (a : Nat) (r : Reshape) (row : Nat) (new : Bool) : Bool :=
  let S := (c.arr a).stripBytes
  if new then (List.range r.new.q).all fun j => c.stripeGood a r.new (row * r.new.q + j)
  else
    let E := r.new.rowBytes S
    let D := max 1 (r.old.dataBytes S)
    let lo := row * E / D
    let hi := min ((row * E + E + D - 1) / D) ((c.dataEnd a + D - 1) / D)
    (List.range (hi - lo)).all fun j => c.stripeGood a r.old (lo + j)

/-- The rows of the window, in step order. -/
def Chip.tornWindow (c : Chip) (a : Nat) (r : Reshape) : List Nat :=
  let E := max 1 (r.new.rowBytes (c.arr a).stripBytes)
  let n := (0x40000000 + E - 1) / E + 1
  if r.desc then (List.range n).filterMap fun j => if j ≤ r.row then some (r.row - j) else none
  else ((List.range n).map (· + r.row)).filter fun x => decide (x < c.reshapeRows a)

/-- Number of rows of the window taken as new: up to the last that passes in the new geometry and fails in the old. -/
def Chip.takenNew (c : Chip) (a : Nat) (r : Reshape) (l : List Nat) : Nat :=
  (l.zipIdx.filter fun x => c.rowGood a r x.1 true && !c.rowGood a r x.1 false).foldl (fun m x => max m (x.2 + 1)) 0

/-- Sector `k` of data strip `i` of new stripe `s`, from the new stripe or the old one that passes for it. -/
def Chip.tornSector (c : Chip) (a : Nat) (r : Reshape) (s i k : Nat) : Option (List Byte) :=
  let S := (c.arr a).stripBytes
  match c.columnGood a r.new s k with
  | some l => some (l.getD i [])
  | none =>
    let x := s * r.new.dataBytes S + i * S + 512 * k
    let D := max 1 (r.old.dataBytes S)
    (c.columnGood a r.old (x / D) (x % S / 512)).map fun l => l.getD (x % D / S) []

/-- The torn row is rewritten in the new layout; a data strip found in neither layout is lost with CAUSE 5. -/
def Chip.rewriteRow (c : Chip) (a : Nat) (r : Reshape) (row : Nat) : Chip :=
  let S := (c.arr a).stripBytes
  let vals := (List.range r.new.q).map fun j =>
    let s := row * r.new.q + j
    (s, (List.range (S / 512)).map fun k => (List.range r.new.d).map fun i => c.tornSector a r s i k)
  vals.foldl (fun c v =>
    let lost := (List.range r.new.d).filter fun i => v.2.any fun col => (col.getD i none).isNone
    let c := (v.2.zipIdx).foldl (fun c x =>
      let ds := x.1.map fun o => o.getD (List.replicate 512 0)
      let (p, q) := parity ds
      ((ds ++ [p, q]).zipIdx).foldl (fun c y =>
        (c.writeHolders a r.new v.1 y.2).foldl (fun c z => c.posWrite a z (stripOff S (v.1 / max 1 r.new.q) (512 * x.2)) y.1) c) c) c
    if lost.isEmpty then c else c.lostAdd a v.1 lost 5 c.nextPlace) c

/-- The window is resolved, and SELVEDGE stands after the rewritten row. -/
def Chip.resolveReshape (c : Chip) (a : Nat) : Chip :=
  match (c.arr a).reshape with
  | none => c
  | some r =>
    let S := (c.arr a).stripBytes
    let E := r.new.rowBytes S
    let l := c.tornWindow a r
    let n := c.takenNew a r l
    let c := match l[n]? with | some row => c.rewriteRow a r row | none => c
    let n := min (n + 1) l.length
    let row := if r.desc then r.row - n else r.row + n
    let sel := (if r.desc then (r.row + 1 - n) * E else (r.row + n) * E) / S
    c.modArr a fun x => { x with reshape := some { r with row := row, selvedge := sel } }

/-! ## Full resynchronisation (R468) -/

/-- The ring copy of a member, walked from the header's RING_TAIL while the records are whole, rising, and no newer than RING_JSEQ. -/
def Member.spillRecords (m : Member) (a : Nat) (hd : List Byte) : List JRec :=
  let scratch : Chip := { hbm := (m.media.filter fun x => decide (0x1800000 ≤ x.1) && decide (x.1 < 0x2800000)).map fun x => (x.1 - 0x1800000 + ringBase a, x.2) }
  let rs := scratch.walkRing a (ringSize / 32) (blockF hd 0x30 8) ringSize
  let top := blockF hd 0x28 8
  let rec rising : Nat → List JRec → List JRec
    | _, [] => []
    | j, r :: l => if r.crcOk && decide (j < r.jseq) && decide (r.jseq ≤ top) then r :: rising r.jseq l else []
  rising 0 rs

/-- Stripes with a DESTAGE record and no later RETIRE. -/
def openDestages (rs : List JRec) : List Nat :=
  (rs.foldl (fun l r => if r.type = 3 then (if l.contains r.stripe then l else l ++ [r.stripe]) else if r.type = 4 then l.filter (· != r.stripe) else l) [])

/-! ## Start-up erase of a vault slot (R457) -/

/-- Once every array is decided, the slot that does not hold the current image is erased: slot 0 where neither holds one. -/
def Chip.startErase (c : Chip) : Chip :=
  let v := c.vault
  if v.armed ∨ v.erasing.isSome ∨ c.members.any (fun m => m.2.state == .attaching) then c
  else
    let s := match v.newest with | some s => !s | none => false
    { c with vault := { v.setSlot s none with erasing := some s } }

/-! ## START_RECOVERY -/

/-- The recovery of R465 for an array whose metadata is read: the row that applies, what it loads or recomputes, and the epoch it begins. -/
def Chip.recoverJournal (c : Chip) (a : Nat) (f : RecoveryFacts) (spillEpoch : Nat) (hds : List (Nat × List Byte)) : Chip :=
  let img := (c.imageFor a).filter fun x => x.2.1 == (c.arr a).uid
  let current := img.filter fun x => decide (spillEpoch ≤ x.2.2.1)
  let c := if img.isSome ∧ current.isNone then
      { c with cache := { c.cache with stale := c.cache.stale ||| 2 ^ a } }.vaultEvent 2 a spillEpoch
    else c
  let theirs := f.partnerStarting && f.partnerImageCurrent
  let beats : Bool := match current with
    | some x => decide (x.2.2.1 < f.partnerJepoch.toNat ∨ (x.2.2.1 = f.partnerJepoch.toNat ∧ x.2.2.2 < f.partnerLastJseq.toNat))
    | none => true
  if f.partnerServing then { c with par := { c.par with copying := true } }
  else if theirs && beats then
    if !c.serving then c
    else if f.partnerImageClean then
      ((c.emptyRing a f.partnerJepoch.toNat (f.partnerLastJseq.toNat + 1)).resumeFrom a).beginEpoch a 1
    else
      -- The partner's image has come over the Coupler in COPY messages; its IMAGE_SEQ is a free value.
      let c := ((c.cutRing a).redoDestages a).resumeFrom a
      let (n, c) := c.fresh (2 ^ 32)
      (c.vaultEvent 1 a n).beginEpoch a 1
  else match current with
    | some (i, _, je, lj) =>
      if !c.serving then c
      else if i.clean then ((c.emptyRing a je (lj + 1)).resumeFrom a).beginEpoch a 1
      else
        let c := (((c.loadImage a i.region).cutRing a).redoDestages a).resumeFrom a
        ((c.vaultEvent 1 a i.seq).beginEpoch a 1)
    | none =>
      if !c.serving then c
      else
        let hd := hds.foldl (fun m x => match m with
          | none => some x
          | some (y : Nat × List Byte) => if (blockF y.2 0x18 4, blockF y.2 0x28 8) = (blockF x.2 0x18 4, blockF x.2 0x28 8) then m
            else if blockF y.2 0x18 4 < blockF x.2 0x18 4 ∨ (blockF y.2 0x18 4 = blockF x.2 0x18 4 ∧ blockF y.2 0x28 8 < blockF x.2 0x28 8) then some x else m) none
        let first := match hd with | some (m, l) => openDestages ((c.mbr m).spillRecords a l) | none => []
        let top := match hd with | some (_, l) => blockF l 0x28 8 | none => 0
        let (skip, c) := c.fresh (2 ^ 32)
        let c := (c.arrayBobs a).foldl (fun c b => c.freeBob b) c
        let c := (c.emptyRing a spillEpoch (top + 1 + skip)).resolveReshape a
        let c := c.modArr a fun r => { r with resync := some { first := first } }
        let n := (c.arr a).resyncLeft
        (c.vaultEvent 4 a (min n (2 ^ 32 - 1))).beginEpoch a 3

/-- Volumes of the array from the members' volume tables (R537). -/
def Chip.readVolumes (c : Chip) (a : Nat) (ms : List Nat) : Chip :=
  (List.range 256).foldl (fun c v =>
    if (c.vol v).state ≠ .none then c
    else match newestBlock 0x20 8 (ms.flatMap fun m => (c.mbr m).volRecords v) with
      | some l => if blockF l 1 1 ≠ 0 ∧ blockF l 2 1 = a then c.setVol v (volOf l) else c
      | none => c) c

/-- START_RECOVERY: the array takes one UID and its newest metadata, its members are bound, and its journal is recovered. With no metadata to be found there is
no array to recover. -/
def startRecoveryOp (a : Arr) (f : RecoveryFacts) (c : Chip) : Chip :=
  if !c.clocked ∨ c.vault.stopped ∨ (c.arr a).made then c
  else
    let v := c.vault
    let c := { c with vault := { v with current := v.newest, imageSeq := match v.newest with | some s => v.seqOf s | none => 0 } }
    let cl := c.claims a
    match c.chooseUid a f cl with
    | none => c.startErase
    | some uid =>
      let mine := cl.filter fun x => x.2.uid == uid
      let ms := mine.map (·.1)
      match newestSuper mine with
      | none => c.startErase
      | some s =>
        let lost := (ms.filterMap fun m => (c.mbr m).lostList).foldl (fun m x => match m with
          | none => some x
          | some (y : Nat × List LostEntry) => if y.1 < x.1 then some x else some y) none
        let ck := newestBlock 0x18 8 (ms.flatMap fun m => (c.mbr m).checkpoints uid)
        let hds := (ms.filter fun m => (s.ids.zipIdx).any fun p => p.1 == (c.mbr m).nguid && (p.2 == s.spill0 || p.2 == s.spill1)).flatMap fun m =>
          ((c.mbr m).spillHeaders uid).map fun l => (m, l)
        let spillEpoch := hds.foldl (fun n x => max n (blockF x.2 0x18 4)) 0
        let hgen := hds.foldl (fun n x => max n (blockF x.2 0x20 8)) 0
        let c := (c.setArr a (arrayOf s lost ck hgen)).readVolumes a ms
        let c := (cl.map (·.1)).foldl (fun c m => c.completeAttach m) c
        let c := c.recoverJournal a f spillEpoch hds
        (c.changeArr a c.nextPlace fun r => { r with recovered := true }).startErase.allAttached

/-! ## Meanings -/

def execStartRecovery (a : Arr) (facts : RecoveryFacts) (s : State) := onChip (startRecoveryOp a facts) s


end Sys2Proof.Machine
end

