-- ==== Sys2Proof/Machine/Net.lean ====
section
/-! DEFINITION. The scheduled network (12): links and verify, cycle starts and the TGCL program, streams with recovery and meters, ingest windows and their
calendar. -/

namespace Sys2Proof.Machine

/-! ## Sets that take effect -/

/-- A block's accepted set takes effect: a configuration upset ends with it, and causes that it newly enables are raised (R84, R714, R731). -/
def Chip.takeSet (c : Chip) (r : Nat) : Chip :=
  let old := c.enable r
  ((c.takeEffect r).setLevel r 2 false).raiseEnabled r old

/-! ## Links (R573–R575) -/

/-- The link of a port goes down: the frame in progress is lost. -/
def Chip.linkDown (c : Chip) (p : Nat) : Chip :=
  (c.modPort p fun x => { x with linkUp := false, verified := false, verifying := false, tx := none, preempted := false }).linkEvent p 2 0

/-- PORT_LINK_UP (R574, R575): a port whose SPEED is not off links, and verify starts where PREEMPT_EN is set. -/
def portLinkUpOp (p : Port) (c : Chip) : Chip :=
  let speed := c.eff (recTrd p) 0x100 0
  if !c.clocked ∨ (c.port p).linkUp ∨ speed = 0 then c
  else (c.modPort p fun x => { x with linkUp := true, verified := false, verifying := c.eff (recTrd p) 0x100 5 == 1 }).linkEvent p 1 speed

/-- PORT_LINK_DOWN. -/
def portLinkDownOp (p : Port) (c : Chip) : Chip := if (c.port p).linkUp then c.linkDown p else c

/-- MM_VERIFY_RESULT (R574). -/
def mmVerifyResultOp (p : Port) (ok : Bool) (c : Chip) : Chip :=
  if (c.port p).verifying then (c.modPort p fun x => { x with verifying := false, verified := ok }).linkEvent p (if ok then 3 else 4) 0 else c

/-! ## Cycle starts (R142–R144, R218, R580–R584) -/

/-- The first cycle start of a schedule at or after `t`, and its number. -/
def firstStart (base cycle t : Nat) : Nat × Nat :=
  let d := timeDiff t base
  let m := if d ≤ 0 then 0 else (d.toNat + cycle - 1) / max 1 cycle
  (add48 base (m * cycle), m)

/-- The later of two times by signed difference. -/
def laterOf (a b : Nat) : Nat := if 0 < timeDiff a b then a else b

/-- The boundary of a port's staged set, and the number of that cycle start. -/
def Chip.boundary (c : Chip) (p : Nat) : Nat × Nat :=
  let r := recTrd p
  firstStart (c.acc r 0x110 0) (c.acc r 0x120 0) (laterOf (c.acc r 0x118 0) (add48 (c.port p).acceptedAt 1000))

/-- The next cycle start of the effective set. -/
def Chip.nextStart (c : Chip) (p : Nat) : Nat × Nat :=
  let r := recTrd p
  let cyc := c.eff r 0x120 0
  match (c.port p).cycleStart with
  | some t =>
    let k := max 1 (((timeDiff c.nowNs t).toNat + cyc - 1) / max 1 cyc)
    (add48 t (k * cyc), (c.eng (16 + p)).cycleNo + k)
  | none => firstStart (c.eff r 0x110 0) cyc c.nowNs

/-- A run begins at cycle start `t` with number `m`; the first one of a program takes the slot parameters (R142, R144). -/
def Chip.startRun (c : Chip) (p t m : Nat) (first : Bool) : Chip :=
  let e := 16 + p
  let slot := c.eff (recTrd p) 0x108 1
  match (c.slot e slot).cur with
  | none => c
  | some i =>
    let c := c.modPort p fun x => { x with cycleStart := some t, prevStart := if first then none else x.cycleStart, slotRun := slot }
    let ps : Tab W64 := ((i.params.take 4).zipIdx 3).foldl (fun g v => tput g 0 v.2 (BitVec.ofNat 64 v.1)) []
    c.modEng e fun x =>
      let g := if first then ps else x.g
      { x with
        g := tput (tput g 0 1 (BitVec.ofNat 64 (t * 2 ^ 16))) 0 2 (BitVec.ofNat 64 m)
        p := if first then 0 else x.p
        pc := (i.entries.getD 0 (0, 0)).1
        loops := []
        wait := none
        anchor := none
        cycleNo := m
        run := some { slot := slot, ep := 0, image := i, started := c.tmb.up } }

/-- The program of a port starts: it enters RUNNING (R575 code 5, R581). -/
def Chip.startProgram (c : Chip) (p t m : Nat) : Chip :=
  if (c.slot (16 + p) (c.eff (recTrd p) 0x108 1)).cur.isNone then c
  else
    let old := (c.port p).state
    let c := (c.startRun p t m true).setTrd p .running
    if old = .running then c else c.linkEvent p 5 m

/-- The engine's run is not at its END. -/
def Engine.inRun (x : Engine) : Bool := x.run.isSome && x.wait != some .cycle

/-- A cycle start of the effective set: the program starts, a WAITT that was not reached ends its run, a run still executing misses the cycle. -/
def Chip.ordinaryStart (c : Chip) (p t m : Nat) : Chip :=
  let x := c.eng (16 + p)
  match (c.port p).state with
  | .armed => if c.tmb.lockedEpoch then c.startProgram p t m else c
  | .running =>
    match x.wait with
    | some (.waitt _ _) =>
      ((c.modPort p fun y => { y with overrun := satAdd 32 y.overrun 1 }).deviation p).startRun p t m false
    | _ =>
      if x.inRun then
        (c.modPort p fun y => { y with missed := satAdd 32 y.missed 1, prevStart := y.cycleStart, cycleStart := some t }).modEng (16 + p) fun x => { x with cycleNo := m }
      else c.startRun p t m false
  | _ => c

/-- The boundary of the staged set: it takes effect and its first run begins there. -/
def Chip.boundaryStart (c : Chip) (p t m : Nat) : Chip :=
  let r := recTrd p
  let was := (c.eff r 0x100 0, c.eff r 0x100 3)
  let c := c.takeSet r
  let c := if (c.port p).linkUp ∧ (c.eff r 0x100 0, c.eff r 0x100 3) ≠ was then c.linkDown p else c
  let s := (c.port p).state
  if c.eff r 0x108 0 = 0 then (if s = .running ∨ s = .armed then (c.idlePort p).setTrd p .stopped else c)
  else match s with
    | .running =>
      let c := if (c.eng (16 + p)).inRun then (c.modPort p fun y => { y with cut := satAdd 32 y.cut 1 }).deviation p else c
      (c.modEng (16 + p) fun x => { x with run := none, wait := none, anchor := none }).startProgram p t m
    | .armed => if c.tmb.lockedEpoch then c.startProgram p t m else c
    | _ => c

/-- CYCLE_START: the next cycle start of the port, of its staged set or of the effective one. -/
def cycleStartOp (p : Port) (c : Chip) : Chip :=
  let x := c.port p
  let live := x.state == .running || x.state == .armed
  if !c.clocked ∨ c.vault.stopped then c
  else
    let (t, m) := c.nextStart p
    if (c.blk (recTrd p)).staged then
      let (b, k) := c.boundary p
      if x.state = .running ∧ 0 < timeDiff b t then (c.passTo t).ordinaryStart p t m else (c.passTo b).boundaryStart p b k
    else if live then (c.passTo t).ordinaryStart p t m
    else c

/-- COMMIT_CHECKS_DONE on any block; an accepted TRD_ set with RUN 1 arms a stopped port (R76–R82, R581). -/
def commitChecksOp (r : Rec) (c0 : Chip) : Chip :=
  let c := commitChecksDoneOp r c0
  if kindOf r = .trd ∧ (c0.blk r).taken.isSome ∧ !(c.blk r).lastRefused then
    let p := instOf r
    let c := c.modPort p fun x => { x with acceptedAt := c.nowNs }
    if (c.port p).state = .stopped ∧ c.acc r 0x108 0 = 1 then c.setTrd p .armed else c
  else c

/-! ## TGCL (R587) -/

/-- The entries of the list in P0–P3 before the first with DURATION 0: (GATES, HOLD, start in ns). -/
def tgclList : List Nat → Nat → List (Nat × Bool × Nat)
  | [], _ => []
  | e :: r, t =>
    if bits e 12 20 = 0 then [] else (bits e 0 8, bitAt e 8, t) :: tgclList r (t + 16 * bits e 12 20)

/-- TGCL_CYCLE: heddles and the hold request are set, anchored at each entry's start; the run waits for the next cycle start. -/
def tgclCycleOp (p : Port) (c : Chip) : Chip :=
  match c.stock (16 + p.val) 0x10010 0 with
  | none => c
  | some r =>
    let es := r.image.params.flatMap fun v => [bits v 0 32, bits v 32 32]
    let t0 := ((c.eng (16 + p.val)).getG 1).toNat / 2 ^ 16
    let acts := (tgclList es 0).flatMap fun x => [(add48 t0 x.2.2, Action.gate (x.1 * 256 + 255)), (add48 t0 x.2.2, Action.hold x.2.1)]
    c.modEng (16 + p.val) fun x => { x with actions := x.actions ++ acts, wait := some .cycle, anchor := none }

/-! ## Streams (R588–R593) -/

/-- A field of a stream record in effect. -/
def Chip.strF (c : Chip) (h off lsb : Nat) : Nat := c.eff 81 (strOff h + off) lsb

def Chip.stream (c : Chip) (h : Nat) : StreamState := tget c.streams {} h
def Chip.modStream (c : Chip) (h : Nat) (f : StreamState → StreamState) : Chip := { c with streams := tput c.streams {} h (f (c.stream h)) }

/-- A stream record matches a frame. A MAC or IP address stands with its first byte on the wire lowest. -/
def Chip.matches (c : Chip) (h : Nat) (f : Frame) : Bool :=
  let id := c.strF h 0 1
  let addr := c.strF h 4 0
  let vlan := if c.strF h 0 28 = 1 then f.tagged && f.vid.toNat == c.strF h 0 16 else !f.tagged || f.vid == 0
  let who :=
    if id = 0 then f.dmac.toNat == addr % 2 ^ 48
    else if id = 1 then f.smac.toNat == addr % 2 ^ 48
    else
      f.ip && f.ip6 == (c.strF h 0 3 == 1) && f.ipDst.toNat % (if f.ip6 then 2 ^ 128 else 2 ^ 32) == addr % (if f.ip6 then 2 ^ 128 else 2 ^ 32) &&
      (c.strF h 0x14 0 == 0 || f.dport.toNat == c.strF h 0x14 0) && (c.strF h 0x14 22 == 0 || f.dscp.toNat == c.strF h 0x14 16)
  c.strF h 0 0 == 1 && bitAt (c.strF h 0 4) f.port.val && vlan && who

/-- The valid stream records, ascending: those whose VALID differs from its reset value stand in the set. -/
def Chip.validStreams (c : Chip) : List Nat :=
  (((c.blk 81).effective.filter fun x => decide (8 * 0x1000 ≤ x.1) && decide (x.1 < 8 * 0x9000) && x.1 % 256 == 0).map fun x => (x.1 / 8 - 0x1000) / 32)

/-- Identification (R588 step 1). -/
def Chip.identifyFrame (c : Chip) (f : Frame) : Option Nat := c.validStreams.find? fun h => c.matches h f

/-- A frame is dropped and counted in TRD_RX_DROP. -/
def Chip.rxDropped (c : Chip) (p : Nat) : Chip := c.modPort p fun x => { x with rxDrop := satAdd 32 x.rxDrop 1 }

/-- A frame is dropped and counted in DROPPED of its stream. -/
def Chip.streamDropped (c : Chip) (h : Nat) : Chip := c.modStream h fun x => { x with dropped := satAdd 32 x.dropped 1 }

/-- The vector recovery algorithm of 802.1CB (R590): the frame passes or not, and the stream's state after it. Positions before the first frame since a reset are
neither received nor lost. -/
def recover (H : Nat) (takeNone : Bool) (rtag : Option Nat) (x : StreamState) : Bool × StreamState :=
  match rtag with
  | none => if takeNone then (true, x) else (false, { x with tagless := satAdd 32 x.tagless 1 })
  | some s =>
    match x.recov with
    | none => (true, { x with recov := some s, hist := [true] })
    | some r =>
      let d := toSigned 16 ((s + 2 ^ 16 - r) % 2 ^ 16)
      if (H : Int) ≤ d ∨ d ≤ -(H : Int) then (false, { x with rogue := satAdd 32 x.rogue 1 })
      else if d ≤ 0 then
        let k := (-d).toNat
        if x.hist.getD k false then (false, { x with discarded := satAdd 32 x.discarded 1 })
        else
          let hist := x.hist ++ List.replicate (k + 1 - x.hist.length) false
          (true, { x with hist := hist.set k true, outOfOrder := satAdd 32 x.outOfOrder 1 })
      else
        let n := d.toNat
        let all := true :: List.replicate (n - 1) false ++ x.hist
        let gone := (all.drop H).filter (!·)
        (true, { x with recov := some s, hist := all.take H, lost := satAdd 32 x.lost gone.length
                        outOfOrder := if n = 1 then x.outOfOrder else satAdd 32 x.outOfOrder 1 })

/-- The flow meter (R593): MEF 10.3, color-blind, refilled by the last-bit timestamp. It answers 0 green, 1 yellow, 2 red. -/
def meter (cir cbs eir ebs : Nat) (coupling : Bool) (len t : Nat) (m : MeterState) : Nat × MeterState :=
  let dt := match m.at0 with | some u => (timeDiff t u).toNat | none => 0
  let c0 := if m.at0.isNone then 8000 * cbs else m.c
  let e0 := if m.at0.isNone then 8000 * ebs else m.e
  let c1 := c0 + dt * cir
  let extra := c1 - 8000 * cbs
  let cc := min (8000 * cbs) c1
  let ee := min (8000 * ebs) (e0 + dt * eir + if coupling then extra else 0)
  let t := match m.at0 with | some u => laterOf t u | none => t
  if 8000 * len ≤ cc then (0, { c := cc - 8000 * len, e := ee, at0 := some t })
  else if 8000 * len ≤ ee then (1, { c := cc, e := ee - 8000 * len, at0 := some t })
  else (2, { c := cc, e := ee, at0 := some t })

/-- A frame passes the meter of its stream. -/
def Chip.metered (c : Chip) (h : Nat) (f : Frame) : Bool × Chip :=
  let n := c.strF h 0x18 16
  if 256 ≤ n then (true, c)
  else
    let g (o l : Nat) : Nat := c.eff 81 (0x9000 + 32 * n + o) l
    let (col, m) := meter (g 0 0) (g 4 0) (g 8 0) (g 0xC 0) (g 0x10 0 == 1) f.length f.last.toNat (tget c.meters {} n)
    let c := { c with meters := tput c.meters {} n m }
    (col == 0 || (col == 1 && g 0x10 1 == 0), c)

/-! ## Ingest windows (R594–R604, R616) -/

/-- The landed bound of a running mode in ns (R42); Sleeper's depends on whether the path was woken. -/
def modeBound (mode : Nat) (woken : Bool) : Nat := if mode = 0 then 6000 else if mode = 1 then 20000 else if woken then 20000 else 32000

/-- Every wake group of a window was requested at least 12 µs before its opening (R616). -/
def Chip.wokenFor (c : Chip) (x opn : Nat) : Bool :=
  (bitsOf (c.winWake x)).all fun g => (c.port (c.winF x 1 0)).wakes.any fun w => w.1 == g && decide (12000 ≤ timeDiff opn w.2)

/-- This unit's bound (R47). -/
def Chip.ownBound (c : Chip) (woken : Bool) : Nat :=
  let now := modeBound c.pwr.modeEff woken
  if c.pwr.switching then max now (modeBound (c.eff 88 0x100 0) woken) else now

/-- The bound of the pair (R48): the partner's running mode is not told to this unit, so its bound is a free choice of the three. -/
def Chip.pairBound (c : Chip) (woken : Bool) : Nat × Chip :=
  let own := c.ownBound woken
  if c.par.role = .active ∧ c.partnerSeen then
    let (m, c) := c.fresh 3
    (max own (modeBound m woken), c)
  else (own, c)

/-- The opening of a window that a frame lies in (R594): its cycle start. -/
def Chip.openingOf (c : Chip) (x : Nat) (f : Frame) : Option Nat :=
  let q := c.port (c.winF x 1 0)
  let opn := c.winF x 8 0
  let cls := c.winF x 0xC 0
  if q.state ≠ .running then none
  else (q.cycleStart.toList ++ q.prevStart.toList).find? fun t =>
    decide (0 ≤ timeDiff f.first.toNat (add48 t opn)) && decide (0 ≤ timeDiff (add48 t cls) f.last.toNat)

/-- The frames already accepted in an opening. -/
def WinState.tookIn (w : WinState) (t : Nat) : Nat := if w.opening = some t then w.took else 0

/-- Where frame `j` of a window goes: (byte of the data space of its array, ENTER, STRAND) (R598, R599). -/
def Chip.place (c : Chip) (x j : Nat) : Nat × Bool × Nat :=
  let P := c.winF x 0x20 0
  let shape := if c.winF x 0 2 = 1 then c.winF x 5 0 else 0
  let W := shape / 4 + 1
  let G := max 1 (c.winF x 0x24 0 * P)
  let lap := (j - (c.win x).start) * P % max 1 (c.winF x 0x18 0)
  let jin := lap % G / max 1 P
  let v := c.winF x 4 0
  (c.volBase v + c.winF x 0x10 0 + lap / G * G + jin * (P / W), lap % max 1 (c.arr (c.vol v).array).dataBytes == 0, G / W)

/-- Cells of the packet buffer that items hold: (first cell, cells). -/
def Chip.cellsHeld (c : Chip) : List (Nat × Nat) :=
  c.engines.flatMap fun e => (e.2.items.filter fun i => decide (0 < i.cells)).map fun i => (i.field 8 4 / 256, i.cells)

/-- The item of an accepted frame (R601). `t` is its opening. None while the packet buffer has no room for its payload. -/
def Chip.ingestItem (c : Chip) (x : Nat) (f : Frame) (t : Option Nat) : Option (Nat × Item × Chip) :=
  let w := c.win x
  let v := c.winF x 4 0
  let a := (c.vol v).array
  let r := c.arr a
  let P := c.winF x 0x20 0
  let n := (P + 255) / 256
  let held := c.cellsHeld
  let free := (List.range 262144).filter fun b => decide (b + n ≤ 262144) && held.all fun h => decide (b + n ≤ h.1) || decide (h.1 + h.2 ≤ b)
  match c.choose free with
  | (none, _) => none
  | (some b, c) =>
    let (y, enter, strand) := c.place x w.next
    let g := r.geomAt y
    let D := max 1 (g.dataBytes r.stripBytes)
    let bounded := t.isSome && c.winF x 0 1 == 1
    let (bound, c) := if bounded then c.pairBound (c.wokenFor x (add48 (t.getD 0) (c.winF x 8 0))) else (0, c)
    let dead := if bounded then add48 f.last.toNat bound else 0
    let dilv := c.winF x 0 2
    let (seq, c) := c.takeSeq
    let body := bodyOf [(0, leBytes 8 w.next), (8, leBytes 4 (256 * b)), (0xC, leBytes 2 P), (0xE, leBytes 1 (b2n enter + 2 * b2n t.isSome + 4 * dilv)),
      (0xF, leBytes 1 (c.winF x 5 0)), (0x10, leBytes 4 (y % D)), (0x14, leBytes 4 strand), (0x18, leBytes 8 f.last.toNat), (0x20, leBytes 8 dead),
      (0x28, leBytes 2 x), (0x2A, leBytes 1 v), (0x2B, leBytes 1 f.port.val)]
    let i : Item := {
      seq := seq
      handle := 0
      source := 2
      port := f.port.val
      origin := x
      array := a
      route := routeOf a (y % D / r.stripBytes) (y / D) 0
      body := body
      slot := c.winF x 6 0
      ep := c.winF x 6 4
      part := w.lap
      cells := n }
    let c := { (c.grant 0 n) with pkt := mwrite zeros c.pkt (256 * b) ((f.data.drop (c.winF x 0x20 16)).take P) }
    some (ownerOf a (y / D), i, c)

/-- A frame is accepted into a window: it takes the next frame index, and its item goes to the owner (R597, R601, R603). -/
def Chip.acceptFrame (c : Chip) (x : Nat) (f : Frame) (t : Option Nat) : Chip :=
  match c.ingestItem x f t with
  | none => c
  | some (e, i, c) =>
    let c := c.modWin x fun w => { w with
      next := (w.next + 1) % 2 ^ 64
      opening := t <|> w.opening
      took := match t with | some u => w.tookIn u + 1 | none => w.took }
    (c.request (c.groupsMask (c.winWake x))).submit e i

/-- The unit accepts frames and transmits: it serves, its announce frames have left, and no planned handover has stopped it (R669, R691, R704). -/
def Chip.netServes (c : Chip) : Bool := c.serving && c.admits && !c.par.announce && c.par.handing != .stopped && !c.vault.stopped

/-- A frame of a window's stream (R594–R596). -/
def Chip.windowFrame (c : Chip) (x h : Nat) (f : Frame) : Chip :=
  if f.data.length < c.winF x 0x20 16 + c.winF x 0x20 0 then c.streamDropped h
  else
    let t := (c.openingOf x f).filter fun t => decide ((c.win x).tookIn t < c.winF x 0x2C 0)
    match t with
    | some t => c.acceptFrame x f (some t)
    | none =>
      let c := c.modWin x fun w => { w with outside := satAdd 32 w.outside 1 }
      if c.winF x 0 3 = 1 then c.acceptFrame x f none else c

/-- The valid window of a stream, the lowest-numbered. -/
def Chip.windowOf (c : Chip) (h : Nat) : Option Nat := (c.wins.filter fun w => w.2.live && c.winF w.1 2 0 == h).head?.map (·.1)

/-- The destination of a frame outside the windows: PTP and remote memory have rows of their own (R588 step 5). -/
def Chip.otherFrame (c : Chip) (f : Frame) : Chip :=
  if f.etype = 0x88F7 ∨ (f.ip ∧ (f.dport = 319 ∨ f.dport = 320 ∨ f.dport = 4791)) then c else c.rxDropped f.port

/-- Steps 4 and 5 of R588. -/
def Chip.meterAndSend (c : Chip) (h : Nat) (f : Frame) : Chip :=
  let (ok, c) := c.metered h f
  if !ok then c.streamDropped h
  else
    let c := c.modStream h fun x => { x with passed := satAdd 32 x.passed 1 }
    match c.windowOf h with
    | some x => if c.netServes then c.windowFrame x h f else c.rxDropped f.port
    | none => c.otherFrame f

/-- FRAME_RECEIVE (R588): its last bit arrives. A frame with a bad FCS goes no further. -/
def frameReceiveOp (f : Frame) (c : Chip) : Chip :=
  if !c.clocked ∨ !(c.port f.port).linkUp then c
  else
    let c := c.passTo f.last.toNat
    let c := c.modPort f.port fun x => { x with rxFirst := f.first.toNat, rxLast := f.last.toNat }
    if !f.fcsOk then c
    else if c.eff (recTrd f.port) 0x10C 0 < f.length then c.rxDropped f.port
    else match c.identifyFrame f with
      | none => c.otherFrame f
      | some h =>
        let sdu := c.strF h 0x18 0
        if sdu ≠ 0 ∧ sdu < f.data.length then c.streamDropped h
        else if c.strF h 0x14 24 = 1 then { c with held := c.held ++ [⟨f, h⟩] }
        else c.meterAndSend h f

/-- The held frame that reaches recovery next: ascending last-bit time, then port (R591). -/
def firstHeld : List HeldFrame → Option HeldFrame
  | [] => none
  | x :: r => match firstHeld r with
    | none => some x
    | some y =>
      let d := timeDiff y.frame.last.toNat x.frame.last.toNat
      if d < 0 ∨ (d = 0 ∧ y.frame.port < x.frame.port) then some y else some x

/-- FRER_HOLD_EXPIRE (R590–R592): 64 ns after its last bit, recovery decides on the frame. -/
def frerHoldExpireOp (c : Chip) : Chip :=
  match firstHeld c.held with
  | none => c
  | some x =>
    let c := ({ c with held := c.held.erase x }).passTo (add48 x.frame.last.toNat 64)
    let h := x.stream
    let (ok, s) := recover (c.strF h 0x1C 0) (c.strF h 0x14 25 == 1) (x.frame.rtag.map (·.toNat)) (c.stream h)
    let c := c.modStream h fun _ => s
    if ok then c.meterAndSend h x.frame else c

/-- FRER_RESET_TIMEOUT (R590): RESET_MS without a frame. -/
def frerResetTimeoutOp (h : Fin 1024) (c : Chip) : Chip :=
  if (c.stream h).recov.isNone then c
  else c.modStream h fun x => { x with recov := none, hist := [], resets := satAdd 32 x.resets 1 }

/-! ## The ingest calendar (R605) -/

/-- The owners of the stripes that hold frame indices NEXT to NEXT + MAX_FRAMES − 1. -/
def Chip.nextOwners (c : Chip) (x : Nat) : List Nat :=
  let a := (c.vol (c.winF x 4 0)).array
  let r := c.arr a
  ((List.range (c.winF x 0x2C 0)).map fun k =>
    let y := (c.place x ((c.win x).next + k)).1
    ownerOf a (y / max 1 ((r.geomAt y).dataBytes r.stripBytes))).dedup

/-- The engine set of a window is reserved for the opening of the cycle that starts at `t`. -/
def Chip.reserve (c : Chip) (x t : Nat) : Chip :=
  let es := c.nextOwners x
  let opn := add48 t (c.winF x 8 0)
  let upto := add48 (add48 t (c.winF x 0xC 0)) (c.ownBound (c.wokenFor x opn))
  c.modWin x fun w => { w with reserved := es, resFrom := opn, resTo := upto }

/-- WINDOW_CLOSE: the opening of the latest cycle closes, and the next one is reserved. A Sleeper unit's bound follows the wakes of the opening that closes. -/
def windowCloseOp (x : Fin 256) (c : Chip) : Chip :=
  let p := c.winF x 1 0
  match (c.port p).state, (c.port p).cycleStart with
  | .running, some t =>
    if !(c.win x).live then c
    else
      let cyc := c.eff (recTrd p) 0x120 0
      let woken := c.wokenFor x (add48 t (c.winF x 8 0))
      let c := c.passTo (add48 t (c.winF x 0xC 0))
      let c := c.reserve x (add48 t cyc)
      c.modWin x fun w => { w with resTo := add48 (add48 (add48 t cyc) (c.winF x 0xC 0)) (c.ownBound woken) }
  | _, _ => c

/-! ## Meanings -/

def execCommitChecksDone (r : Rec) (s : State) := onChip (commitChecksOp r) s

def execTgclCycle (p : Port) (s : State) := onChip (tgclCycleOp p) s
def execCycleStart (p : Port) (s : State) := onChip (cycleStartOp p) s
def execPortLinkUp (p : Port) (s : State) := onChip (portLinkUpOp p) s
def execPortLinkDown (p : Port) (s : State) := onChip (portLinkDownOp p) s
def execMmVerifyResult (p : Port) (ok : Bool) (s : State) := onChip (mmVerifyResultOp p ok) s
def execFrameReceive (fr : Frame) (s : State) := onChip (frameReceiveOp fr) s
def execFrerHoldExpire (s : State) := onChip frerHoldExpireOp s
def execFrerResetTimeout (h : Fin 1024) (s : State) := onChip (frerResetTimeoutOp h) s
def execWindowClose (x : Fin 256) (s : State) := onChip (windowCloseOp x) s


end Sys2Proof.Machine
end

