-- ==== Sys2Proof/Machine/Rma.lean ====
section
/-! DEFINITION. Remote memory (13): packets with their checks and their miss queues, messages and their answers, outbound requests, and the commands on queue
pairs, windows and triggered work. -/

namespace Sys2Proof.Machine

/-! ## Counters -/

def Chip.modRma (c : Chip) (f : Rma → Rma) : Chip := { c with rma := f c.rma }
def Chip.noQp (c : Chip) : Chip := c.modRma fun r => { r with noQp := satAdd 32 r.noQp 1 }
def Chip.authFail (c : Chip) : Chip := c.modRma fun r => { r with authFail := satAdd 32 r.authFail 1 }

/-! ## Answers -/

/-- Bytes of a packet beside its payload: Ethernet with a C-tag, IP, UDP, BTH, extension headers, sealing, ICRC and FCS. -/
def Qp.wire (q : Qp) (ext n : Nat) : Nat := 18 + (if q.conn.ipv6 then 40 else 20) + 8 + 12 + ext + (if q.sealing then 28 else 0) + n + 8

/-- An answer of a queue pair is queued. -/
def Chip.answer (c : Chip) (n : Nat) (k : TxKind) (ext len : Nat) : Chip :=
  match c.qp n with | some q => c.qpFrame n k (q.wire ext len) | none => c

/-- A NAK (R635, R642): code 0 PSN Sequence Error, 1 Invalid Request, 2 Remote Access Error, 3 Remote Operational Error. All but the first end the queue
pair (R623). -/
def Chip.nak (c : Chip) (n psn code : Nat) : Chip :=
  let c := (c.answer n (.rmaNak n psn code) 4 0).modRma fun r => { r with nakSent := satAdd 32 r.nakSent 1 }
  if code = 0 then c else c.qpError n 1

/-- An RNR NAK with RMA_CFG.RNR_TIMER (R642, R652). -/
def Chip.rnr (c : Chip) (n psn : Nat) : Chip :=
  (c.answer n (.rmaRnr n psn (c.eff 82 0x100 0)) 4 0).modRma fun r => { r with rnrSent := satAdd 32 r.rnrSent 1 }

/-! ## Sealing (R626–R631) -/

/-- The key of the epoch after `epoch` (R629). -/
def nextKey (alg epoch : Nat) (key : List Byte) : List Byte :=
  (hmacSm3 key (ascii "VZ-SEAL-NEXT" ++ beBytes 4 ((epoch + 1) % 2 ^ 32))).take (if alg = 1 then 16 else 32)

/-- What the receiver of a sealed queue pair makes of a sealing header: 0 accepted, 1 AUTH_FAIL, 2 REPLAY, 3 STALE. -/
def SealKey.verdict (k : SealKey) (h : SealHdr) : Nat :=
  let d := toSigned 32 ((h.epoch.toNat + 2 ^ 32 - k.rxEpoch) % 2 ^ 32)
  let seen := d == 0 && match k.rxHigh with
    | some t => decide (h.seq.toNat + 64 ≤ t) || (decide (h.seq.toNat ≤ t) && bitAt k.rxMask (t - h.seq.toNat))
    | none => false
  if h.verAlg.toNat ≠ 16 + k.alg ∨ h.side = k.side then 1
  else if d < 0 then 3
  else if 1 < d then 1
  else if seen then 2
  else if h.tagOk then 0 else 1

/-- The key after an accepted packet. -/
def SealKey.accept (k : SealKey) (h : SealHdr) : SealKey :=
  let s := h.seq.toNat
  if h.epoch.toNat = k.rxEpoch then match k.rxHigh with
    | some t =>
      if t < s then { k with rxHigh := some s, rxMask := (k.rxMask * 2 ^ (min 64 (s - t)) + 1) % 2 ^ 64 }
      else { k with rxMask := k.rxMask ||| 2 ^ (t - s) }
    | none => { k with rxHigh := some s, rxMask := 1 }
  else { k with rxEpoch := h.epoch.toNat, rxKey := nextKey k.alg k.rxEpoch k.rxKey, rxHigh := some s, rxMask := 1 }

/-- Step 3 of R635: the packet passes, with the key after it, or is dropped and counted. -/
def Chip.unseal (c : Chip) (n : Nat) (q : Qp) (p : Packet) : Bool × Chip :=
  if !q.sealing then (true, c)
  else match q.key, p.sealHdr with
    | some k, some h => match k.verdict h with
      | 0 => (true, c.modQp n fun q => { q with key := some (k.accept h) })
      | 2 => (false, c.modRma fun r => { r with replay := satAdd 32 r.replay 1 })
      | 3 => (false, c.modRma fun r => { r with stale := satAdd 32 r.stale 1 })
      | _ => (false, c.authFail)
    | _, _ => (false, c.authFail)

/-! ## Messages in their windows (R636–R641) -/

/-- The access right that an operation needs. -/
def rightOf : RmaOp → Nat
  | .read => 1 | .cmpSwap | .fetchAdd => 4 | _ => 2

def isAtomic (o : RmaOp) : Bool := o == .cmpSwap || o == .fetchAdd

/-- The window that a message's key names. -/
def Chip.msgWin (c : Chip) (m : RmaMsg) : RmaWin := c.rmaWin (m.key / 4096)

/-- Packets of a message: those that the PSN counts (a READ counts its response packets). -/
def Qp.packets (q : Qp) (m : RmaMsg) : Nat := if isAtomic m.op then 1 else max 1 ((m.len + q.mtu - 1) / q.mtu)

/-- Two messages meet in one window. -/
def RmaMsg.meets (m k : RmaMsg) : Bool := m.key / 4096 == k.key / 4096 && decide (m.off < k.off + k.len) && decide (k.off < m.off + m.len)

/-- A message of any queue pair admitted before `m` still runs and meets its range (R639). -/
def Chip.blocked (c : Chip) (m : RmaMsg) : Bool :=
  c.rma.qps.any fun x => x.2.any fun q => q.msgs.any fun k => decide (0 < timeDiff m.seq k.seq) && m.meets k

/-- A message of a queue pair changes. -/
def Chip.modMsg (c : Chip) (n seq : Nat) (f : RmaMsg → RmaMsg) : Chip :=
  c.modQp n fun q => { q with msgs := q.msgs.map fun m => if m.seq = seq then f m else m }

/-- The item of one part of a volume message, staged (R640, R641). None while the engine's share of staging has no room. -/
def Chip.rmaItem (c : Chip) (n : Nat) (m : RmaMsg) (ps : List Part) (k : Nat) (p : Part) : Option ((Nat × Item) × Chip) :=
  let w := c.msgWin m
  let x := c.vol w.volume
  let a := x.array
  let S := (c.arr a).stripBytes
  let o := ownerOf a p.stripe
  let write := m.op != .read
  match c.allocStg o (64 + p.len) with
  | (none, _) => none
  | (some stage, c) =>
    let full := write && fullStripe ((c.arr a).geomOf p.stripe).d S ps p.stripe
    let hd := headerBytes p w.volume x.big (k == 0) (k + 1 == ps.length) full (ps.filter fun q => q.stripe == p.stripe).length 0 0
    let c := { c with stg := mwrite zeros c.stg stage (hd ++ if write then (m.data.drop p.at0).take p.len else []) }
    let r := recSe a
    let op := match m.op with | .write => 1 | .send => 2 | _ => 3
    let body := bodyOf [(0, leBytes 1 op), (4, leBytes 4 n), (8, leBytes 4 m.psn), (0xC, leBytes 4 m.key), (0x10, leBytes 8 m.off), (0x18, leBytes 4 m.len)]
    let i : Item := {
      seq := m.seq
      handle := 0
      source := 1
      port := match c.qp n with | some q => q.port | none => 0
      origin := n
      array := a
      route := routeOf a p.strip p.stripe (stage / 64)
      body := body
      slot := c.eff r 0x100 0
      ep := c.eff r 0x100 (if write then 4 else 8)
      part := k
      room := 64 + p.len
      at0 := p.at0 }
    some ((o, i), c)

/-- The items of all the parts. -/
def Chip.rmaItems (c : Chip) (n : Nat) (m : RmaMsg) (ps : List Part) : Nat → List Part → Option (List (Nat × Item) × Chip)
  | _, [] => some ([], c)
  | k, p :: r =>
    match c.rmaItem n m ps k p with
    | none => none
    | some (i, c) => match c.rmaItems n m ps (k + 1) r with
      | none => none
      | some (is, c) => some (i :: is, c)

/-- The status of a volume message that no item decides: the volume or its array does not serve, or a write meets a plan of 0 (R456, R538). -/
def Chip.volStatus (c : Chip) (m : RmaMsg) : Option Nat :=
  let v := c.vol (c.msgWin m).volume
  if v.state != .ready || !(c.arr v.array).recovered then some stNotReady
  else if m.op != .read && c.noRegion then some stNotReady
  else none

/-- A volume message begins: its items go to their engines (R376–R381, R606). It waits while it is incomplete, blocked, or finds no staging. -/
def Chip.beginMsg (c : Chip) (n : Nat) (m : RmaMsg) : Chip :=
  if m.begun || !m.whole || !(c.msgWin m).volumeType || c.blocked m then c
  else match c.volStatus m with
    | some code => c.modMsg n m.seq fun x => { x with begun := true, left := 0, worst := some (0, code, 0) }
    | none =>
      let w := c.msgWin m
      let ps := c.volParts w.volume (w.base + m.off) m.len
      match c.rmaItems n m ps 0 ps with
      | none => c
      | some (is, c) =>
        let c := c.modMsg n m.seq fun x => { x with begun := true, left := is.length }
        is.foldl (fun c i => c.submit i.1 i.2) c

/-- Every waiting volume message that can begin does so. -/
def Chip.beginAll (c : Chip) : Chip :=
  (c.rma.qps.flatMap fun x => match x.2 with | some q => q.msgs.map fun m => (x.1, m) | none => []).foldl (fun c x => c.beginMsg x.1 x.2) c

/-- A message is admitted (R636): it takes a place, and its bytes reach an HBM window as they come unless an earlier message runs over them. -/
def Chip.admitMsg (c : Chip) (n : Nat) (m : RmaMsg) : Chip :=
  let (seq, c) := c.takeSeq
  let m := { m with seq := seq }
  let now := !(c.msgWin m).volumeType && (m.op == .write || m.op == .send) && !c.blocked m
  let c := if now then c.winWrite m.key m.off m.data else c
  let m := { m with begun := now }
  (c.modQp n fun q => { q with msgs := q.msgs ++ [m] }).beginMsg n m

/-- A middle or last packet of the message under way (R635, R636). -/
def Chip.continueMsg (c : Chip) (n : Nat) (m : RmaMsg) (p : Packet) (range : Nat) : Chip :=
  if range < m.got + p.payload.length then c.nak n p.psn.toNat 1
  else
    let c := if m.begun then c.winWrite m.key (m.off + m.got) p.payload else c
    let got := m.got + p.payload.length
    let done := p.pos == .last
    let x := { m with got := got, data := m.data ++ p.payload, whole := done, len := if m.op = .send && done then got else m.len }
    (c.modMsg n m.seq fun _ => x).beginMsg n x

/-! ## The checks of a packet (R635) -/

/-- The offset in the receive window of the next SEND (R637). -/
def Chip.sendOff (c : Chip) (q : Qp) : Nat :=
  let w := c.rmaWin (q.conn.recvKey / 4096)
  (q.recvCount + (q.msgs.filter fun m => m.op == .send).length) * q.conn.recvSlot % max 1 w.size

/-- Steps 7 and 8 for the first packet of a request: none where it is admitted, a NAK code otherwise. -/
def Chip.firstCheck (c : Chip) (q : Qp) (p : Packet) : Option Nat :=
  let send := p.op == .send
  let slot := q.conn.recvSlot
  let key := if send then q.conn.recvKey else p.rkey.toNat
  let off := if send then c.sendOff q else p.addr.toNat
  let len := if send then (if p.pos = .only then p.payload.length else slot) else if isAtomic p.op then 8 else p.dmaLen.toNat
  let w := c.rmaWin (key / 4096)
  let bs := (c.vol w.volume).blockSize
  if send ∧ key = 0 then some 1
  else if !c.keyOk key q.pd (rightOf p.op) off len q.sealing then some 2
  else
    let long := decide ((if w.volumeType then 0x100000 else 0x1000000) < len) || (send && decide (slot < p.payload.length))
    let atomBad := isAtomic p.op && (w.volumeType || off % 8 != 0)
    let volBad := w.volumeType && (off % bs != 0 || len % bs != 0)
    if long || atomBad || volBad then some 1 else none

/-- A request at the expected PSN, or a READ executed again. -/
def Chip.firstPacket (c : Chip) (n : Nat) (q : Qp) (p : Packet) (dup : Bool) : Chip :=
  match c.firstCheck q p with
  | some code => c.nak n p.psn.toNat code
  | none =>
    let send := p.op == .send
    let one := p.pos == .only
    let m : RmaMsg := {
      seq := 0
      op := p.op
      psn := p.psn.toNat
      key := if send then q.conn.recvKey else p.rkey.toNat
      off := if send then c.sendOff q else p.addr.toNat
      len := if send then (if one then p.payload.length else q.conn.recvSlot) else if isAtomic p.op then 8 else p.dmaLen.toNat
      got := if p.op = .read then 0 else p.payload.length
      data := if p.op = .read ∨ isAtomic p.op then [] else p.payload
      whole := one || p.op == .read || isAtomic p.op
      dup := dup
      op0 := p.operand0.toNat
      op1 := p.operand1.toNat }
    let step := if p.op = .read then q.packets m else 1
    let c := if dup then c else c.modQp n fun q => { q with rqPsn := (q.rqPsn + step) % 2 ^ 24, nakked := false }
    c.admitMsg n m

/-- A packet with a PSN earlier than expected (R643, R647). A duplicate of a message that is still running is answered with it. -/
def Chip.duplicate (c : Chip) (n : Nat) (q : Qp) (p : Packet) : Chip :=
  let running := q.msgs.any fun m =>
    decide (toSigned 24 ((p.psn.toNat + 2 ^ 24 - m.psn) % 2 ^ 24) < q.packets m) && decide (0 ≤ toSigned 24 ((p.psn.toNat + 2 ^ 24 - m.psn) % 2 ^ 24))
  if running then c
  else if isAtomic p.op then
    match q.atomics.find? fun x => x.1 == p.psn.toNat with
    | some x => c.answer n (.rmaAtomic n p.psn.toNat x.2) 12 0
    | none => c.nak n p.psn.toNat 1
  else if p.op = .read then c.firstPacket n q p true
  else c.answer n (.rmaAck n p.psn.toNat) 4 0

/-- A packet whose context is on chip meets steps 2 to 8. -/
def Chip.processPacket (c : Chip) (p : Packet) : Chip :=
  let n := p.qpn.toNat
  match c.qp n with
  | none => c.noQp
  | some q =>
    if q.port ≠ p.port.val ∨ q.state ≠ .rts then c.noQp
    else
      let (ok, c) := c.unseal n q p
      if !ok then c
      else match c.qp n with
        | none => c
        | some q =>
          let psn := p.psn.toNat
          let d := toSigned 24 ((psn + 2 ^ 24 - q.rqPsn) % 2 ^ 24)
          if 0 < d then (if q.nakked then c else (c.nak n q.rqPsn 0).modQp n fun q => { q with nakked := true })
          else if d < 0 then c.duplicate n q p
          else if !c.rma.ready then c.rnr n psn
          else if p.op = .other then c.nak n psn 1
          else
            let run := q.msgs.find? fun m => !m.whole
            match run, p.pos with
            | some m, .middle | some m, .last =>
              if m.op = p.op then
                let range := m.len
                (c.modQp n fun q => { q with rqPsn := (q.rqPsn + 1) % 2 ^ 24, nakked := false }).continueMsg n m p range
              else c.nak n psn 1
            | none, .only | none, .first => c.firstPacket n q p false
            | _, _ => c.nak n psn 1

/-! ## The miss queue and residency (R648–R651, R807) -/

/-- Cells that a port's miss queue holds. -/
def Chip.missCells (c : Chip) (p : Nat) : Nat := ((tget c.rma.miss [] p).map fun k => (k.length + 255) / 256).sum

/-- A context is used: it becomes the most recent. -/
def Chip.useQp (c : Chip) (n : Nat) : Chip :=
  let u := c.rma.uses
  (c.modRma fun r => { r with uses := u + 1 }).modQp n fun q => { q with used := u }

/-- The resident contexts. -/
def Chip.residents (c : Chip) : List (Nat × Qp) :=
  c.rma.qps.filterMap fun x => match x.2 with | some q => if q.resident then some (x.1, q) else none | none => none

/-- A context comes on chip, the least recently used unpinned one leaving where there is no slot. -/
def Chip.bringIn (c : Chip) (n : Nat) : Chip :=
  let rs := c.residents
  let c := if rs.length < 16384 then c
    else match (rs.filter fun x => !x.2.pin).foldl (fun m x => match m with
        | none => some x
        | some (y : Nat × Qp) => if x.2.used < y.2.used then some x else some y) none with
      | some (k, _) => c.modQp k fun q => { q with resident := false }
      | none => c
  (c.modQp n fun q => { q with resident := true }).useQp n

/-- RMA_PACKET_RECEIVE (R622, R635, R648, R649, R654). -/
def rmaPacketReceiveOp (p : Packet) (c : Chip) : Chip :=
  if !c.clocked ∨ !(c.port p.port).linkUp ∨ !c.netServes ∨ c.par.handing ≠ .none then c
  else
    let c := if p.ecnCe then c.modRma fun r => { r with ecnCe := satAdd 32 r.ecnCe 1 } else c
    if !p.icrcOk then c.modRma fun r => { r with icrcErr := satAdd 32 r.icrcErr 1 }
    else match c.qp p.qpn.toNat with
      | none => c.noQp
      | some q =>
        if q.port ≠ p.port.val then c.noQp
        else if q.resident then (c.useQp p.qpn.toNat).processPacket p
        else
          let k := (p.length + 255) / 256
          if 128 < c.missCells p.port + k then
            c.modRma fun r => { r with missDrop := tput r.missDrop 0 p.port ((tget r.missDrop 0 p.port + 1) % 2 ^ 64) }
          else
            ((c.grant 6 k).modRma fun r => { r with miss := tput r.miss [] p.port (tget r.miss [] p.port ++ [p]) }).request (2 ^ 26)

/-- CONTEXT_FETCH_DONE (R648, R650, R651): the context is on chip, and its waiting packets go on in arrival order. -/
def contextFetchDoneOp (qpn : BitVec 18) (c : Chip) : Chip :=
  let n := qpn.toNat
  if (c.qp n).isNone ∨ !c.clocked ∨ c.isGated 26 then c
  else
    let mine := c.rma.miss.flatMap fun x => x.2.filter fun p => p.qpn == qpn
    let c := if ((c.qp n).map (·.resident)).getD false then c else c.bringIn n
    let c := c.modRma fun r => { r with miss := (r.miss.map fun x => (x.1, x.2.filter fun p => p.qpn != qpn)).filter fun x => !x.2.isEmpty }
    mine.foldl (fun c p => (c.giveBack 6 ((p.length + 255) / 256)).processPacket p) c

/-! ## Answers to messages (R638, R642, R646, R647) -/

/-- The read-modify-write of an atomic on 8 little-endian bytes (R646). -/
def atomicNew (m : RmaMsg) (old : Nat) : Nat :=
  if m.op = .fetchAdd then (old + m.op0) % 2 ^ 64 else if old = m.op0 then m.op1 else old

/-- A message on an HBM window executes as it is answered: a blocked WRITE or SEND places its bytes, a READ and an atomic read theirs. -/
def Chip.runHbm (c : Chip) (m : RmaMsg) : List Byte × Chip :=
  match m.op with
  | .read => (c.winRead m.key m.off m.len, c)
  | .cmpSwap | .fetchAdd =>
    let l := c.winRead m.key m.off 8
    (l, c.winWrite m.key m.off (leBytes 8 (atomicNew m (ofLe l))))
  | _ => ([], if m.begun then c else c.winWrite m.key m.off m.data)

/-- The message leaves its queue pair, and what waited for it begins. -/
def Chip.endMsg (c : Chip) (n seq : Nat) : Chip := (c.modQp n fun q => { q with msgs := q.msgs.filter fun m => m.seq != seq }).beginAll

/-- A message ends with its ACK, its response or a NAK. -/
def Chip.answerMsg (c : Chip) (n : Nat) (q : Qp) (m : RmaMsg) (code : Nat) (data : List Byte) : Chip :=
  let last := (m.psn + q.packets m - 1) % 2 ^ 24
  if code = stNotReady then
    ((c.modQp n fun q => { q with rqPsn := if m.dup then q.rqPsn else m.psn, msgs := [] }).rnr n m.psn).beginAll
  else if code ≠ stOk then (c.nak n m.psn 3).endMsg n m.seq
  else
    let c := c.mirrorState
    let c := match m.op with
      | .read => c.answer n (.rmaData n m.psn data) (4 * q.packets m) data.length
      | .cmpSwap | .fetchAdd =>
        (c.modQp n fun q => { q with atomics := ((m.psn, ofLe data) :: q.atomics).take 16 }).answer n (.rmaAtomic n m.psn (ofLe data)) 12 0
      | _ => c.answer n (.rmaAck n last) 4 0
    let c := c.endMsg n m.seq
    if m.op = .send then (c.modQp n fun q => { q with recvCount := (q.recvCount + 1) % 2 ^ 64 }).fireTwrs m.seq else c

/-- MESSAGE_ANSWER: the oldest message of the queue pair has run, and is answered. In ERROR it ends without an answer. -/
def messageAnswerOp (qpn : BitVec 18) (c : Chip) : Chip :=
  let n := qpn.toNat
  match c.qp n with
  | none => c
  | some q => match q.msgs with
    | [] => c
    | m :: _ =>
      let vol := (c.msgWin m).volumeType
      if !m.whole then (if q.state = .error then c.endMsg n m.seq else c)
      else if vol && (!m.begun || m.left != 0) then c.beginMsg n m
      else if !vol && c.blocked m then c
      else
        let (data, c) := if vol then (m.data, c) else c.runHbm m
        let code := if vol then (statusOf m.worst).1 else stOk
        if q.state ≠ .rts then c.endMsg n m.seq else c.answerMsg n q m code data

/-! ## Outbound requests (R623, R657, R661) -/

/-- RMA_RESPONSE_RECEIVE: the answer to the oldest outbound request of the queue pair. -/
def rmaResponseReceiveOp (qpn : BitVec 18) (r : RmaAnswer) (c : Chip) : Chip :=
  let n := qpn.toNat
  if !c.clocked ∨ !c.netServes then c
  else match c.qp n with
    | none => c.noQp
    | some q =>
      if q.state ≠ .rts then c.noQp
      else match q.outs, r with
        | [], _ => c
        | _, .fatalNak => c.qpError n 2
        | o :: os, .success l =>
          let t := c.twr o.entry
          let c := c.modQp n fun q => { q with outs := os, tries := 0 }
          let k := t.f 0x14 4
          let c := if k = 0 then c
            else if t.action = 3 then c.winWrite k (t.f 0x18 8) (l.take (t.f 0x2C 4))
            else if t.action = 4 ∨ t.action = 5 then c.winWrite k (t.f 0x18 8) (l.take 8)
            else c
          (c.twrDone o.entry).fireTwrs c.nextPlace

/-- RC_RETRY_TIMEOUT (R623): the oldest outbound request is sent again, or its retries are exhausted. -/
def rcRetryTimeoutOp (qpn : BitVec 18) (c : Chip) : Chip :=
  let n := qpn.toNat
  match c.qp n with
  | none => c
  | some q => match q.outs with
    | [] => c
    | o :: _ =>
      if q.state ≠ .rts ∨ !c.netServes then c
      else if q.conn.retry ≤ q.tries then c.qpError n 3
      else
        let t := c.twr o.entry
        let len := t.f 0x2C 4
        let data := if t.action = 1 ∨ t.action = 2 then c.winRead (t.f 0x14 4) (t.f 0x18 8) len else []
        (c.modQp n fun q => { q with tries := q.tries + 1 }).qpFrame n
          (.rmaRequest n o.psn t.action (t.f 0x20 8) (t.f 0x28 4) len (t.f 0x30 8) (t.f 0x38 8) data) (q.wire 16 data.length)

/-! ## Queue pair commands (R665) -/

/-- Pinned contexts. -/
def Chip.pinned (c : Chip) : Nat := (c.rma.qps.filter fun x => x.2.any (·.pin)).length

/-- QP_CREATE. A pinned context is on chip from the start. -/
def qpCreateOp (f : Fn) (ix : BitVec 16) (c : Chip) : Chip :=
  c.onAdmin f ix.toNat 0x40 fun a c =>
    let e := a.entry
    let n := eField e 4 4
    let fl := eField e 0xB 1
    let tier1 := bitAt fl 0
    if 2 ^ 18 ≤ n then ((stRange, 4), c)
    else if (c.qp n).isSome then ((stState, 1), c)
    else if tier1 ∧ c.rma.hostArea.isNone then ((stState, 2), c)
    else if tier1 ∧ bitAt fl 2 then ((stState, 3), c)
    else if bitAt fl 1 ∧ 8192 ≤ c.pinned then ((stNoSpace, 0), c)
    else
      let q : Qp := { pd := eField e 8 2, port := eField e 0xA 1, tier1 := tier1, pin := bitAt fl 1, sealing := bitAt fl 2, pmtu := eField e 0xC 1, owner := f.val }
      let c := c.setQp n (some q)
      ((stOk, 0), (if q.pin then c.bringIn n else c).mirrorState)

/-- The connection that QP_CONNECT's data gives; none where its layout is broken. -/
def connOf (l : List Byte) : Option (Conn × Nat × Nat) :=
  let g (o n : Nat) : Nat := ofLe ((l.drop o).take n)
  let slot := g 0x3C 4
  if 2 ^ 18 ≤ g 0 4 ∨ 2 ^ 24 ≤ g 4 4 ∨ 2 ^ 24 ≤ g 8 4 ∨ 64 ≤ g 0xF 1 ∨ 8 ≤ g 0x10 1 ∨ 2 ≤ g 0x11 1 ∨
     !((List.range 9).any fun k => slot == 256 * 2 ^ k) then none
  else some ({ peerQpn := g 0 4, timeout := g 0xC 1, retry := g 0xD 1, rnrRetry := g 0xE 1, dscp := g 0xF 1, pcp := g 0x10 1, ipv6 := g 0x11 1 == 1,
               dmac := g 0x12 6, srcIp := g 0x18 16, dstIp := g 0x28 16, recvKey := g 0x38 4, recvSlot := slot }, g 4 4, g 8 4)

/-- QP_CONNECT. -/
def qpConnectOp (f : Fn) (ix : BitVec 16) (c : Chip) : Chip :=
  c.onEntry f 0 ix.toNat 0x41 fun a c =>
    let n := eField a.entry 4 4
    match a.data with
    | none => c
    | some l =>
      let done (code detail : Nat) (c : Chip) : Chip := c.finish f 0 a.pos code detail
      match connOf l with
      | none => done stMalformed 0x28 c
      | some (k, sq, rq) => match c.qp n with
        | none => done stRange 4 c
        | some q =>
          if q.state ≠ .reset then done stState 4 c
          else if q.sealing ∧ q.key.isNone then done stState 5 c
          else done stOk 0 ((c.setQp n (some { q with state := .rts, conn := k, sqPsn := sq, rqPsn := rq })).mirrorState)

/-- QP_DESTROY. Requests it still has outstanding have no answer to come, and its waiting packets find no queue pair. -/
def qpDestroyOp (f : Fn) (ix : BitVec 16) (c : Chip) : Chip :=
  c.onAdmin f ix.toNat 0x42 fun a c =>
    let n := eField a.entry 4 4
    match c.qp n with
    | none => ((stRange, 4), c)
    | some q =>
      if !q.msgs.isEmpty ∨ c.rma.twrs.any (fun t => t.2.state == 1 && (t.2.trigQp == n || t.2.outQp == n)) then ((stQueueBusy, 0), c)
      else
        let mine := c.rma.miss.flatMap fun x => x.2.filter fun p => p.qpn.toNat == n
        let c := c.modRma fun r => { r with miss := (r.miss.map fun x => (x.1, x.2.filter fun p => p.qpn.toNat != n)).filter fun x => !x.2.isEmpty }
        let c := mine.foldl (fun c p => (c.giveBack 6 ((p.length + 255) / 256)).noQp) c
        let c := q.outs.foldl (fun c o => c.twrError o.entry 2) c
        ((stOk, 0), (c.setQp n none).mirrorState)

/-- The 64 bytes of QP_QUERY. STATE has the order of R623. -/
def Qp.query (q : Qp) : List Byte :=
  leBytes 1 (match q.state with | .reset => 0 | .rts => 1 | .error => 2) ++ leBytes 3 0 ++ leBytes 8 q.recvCount ++ leBytes 8 q.complCount ++ leBytes 4 q.rqPsn ++
  leBytes 4 q.sqPsn ++ leBytes 4 (q.key.elim 0 (·.txEpoch)) ++ leBytes 4 (q.key.elim 0 (·.rxEpoch)) ++ leBytes 28 0

/-- QP_QUERY. -/
def qpQueryOp (f : Fn) (ix : BitVec 16) (c : Chip) : Chip :=
  c.onEntry f 0 ix.toNat 0x43 fun a c =>
    if !a.placed then c
    else match c.qp (eField a.entry 4 4) with
      | none => c.finish f 0 a.pos stRange 4
      | some q => (c.toBuffer f a.buffer 0 q.query).finish f 0 a.pos stOk 0

/-- KEY_INSTALL (R629, R632). -/
def keyInstallOp (f : Fn) (ix : BitVec 16) (c : Chip) : Chip :=
  c.onEntry f 0 ix.toNat 0x44 fun a c =>
    let e := a.entry
    let n := eField e 4 4
    match a.data with
    | none => c
    | some l =>
      let done (code detail : Nat) (c : Chip) : Chip := c.finish f 0 a.pos code detail
      match c.qp n with
      | none => done stRange 4 c
      | some q =>
        if q.state ≠ .reset then done stState 4 c
        else if q.tier1 then done stState 3 c
        else
          let k : SealKey := { alg := eField e 8 1, side := eField e 9 1 == 1, salt := eField e 0xC 4, txKey := l, rxKey := l, txEpoch := eField e 0x10 4,
                               rxEpoch := eField e 0x10 4 }
          done stOk 0 ((c.setQp n (some { q with key := some k })).mirrorState)

/-! ## Window commands (R633, R634, R644, R645) -/

/-- What WIN_REGISTER meets; none where the window is registered. -/
def Chip.registerCheck (c : Chip) (e : BitVec 512) : Option (Nat × Nat) :=
  let n := eField e 4 4
  let vol := eField e 0xC 1 == 1
  let v := eField e 0xE 1
  let base := eField e 0x10 8
  let size := eField e 0x18 8
  let w := c.rmaWin n
  if vol && base % (c.vol v).blockSize != 0 then some (stMalformed, 0x10)
  else if vol && size % (c.vol v).blockSize != 0 then some (stMalformed, 0x18)
  else if 2 ^ 20 ≤ n then some (stRange, 4)
  else if vol && bitAt (eField e 0xD 1) 2 then some (stRange, 0xD)
  else if vol && (c.vol v).state == .none then some (stRange, 0xE)
  else if (if vol then decide (c.volBytes v < base + size) else decide (base < 0x200000000 ∨ 0x5C0000000 < base + size)) then some (stRange, 0x10)
  else if w.lastTag = some (eField e 8 2) then some (stState, 6)
  else if w.state ≠ .free then some (stState, 1)
  else none

/-- WIN_REGISTER. -/
def winRegisterOp (f : Fn) (ix : BitVec 16) (c : Chip) : Chip :=
  c.onAdmin f ix.toNat 0x48 fun a c =>
    let e := a.entry
    match c.registerCheck e with
    | some s => (s, c)
    | none =>
      let w : RmaWin := { state := .valid, tag := eField e 8 2, lastTag := some (eField e 8 2), pd := eField e 0xA 2, volumeType := eField e 0xC 1 == 1,
                          access := eField e 0xD 1, volume := eField e 0xE 1, base := eField e 0x10 8, size := eField e 0x18 8 }
      ((stOk, 0), (c.setRmaWin (eField e 4 4) w).mirrorState)

/-- WIN_REVOKE: from its place on, new messages find the window REVOKING. -/
def winRevokeOp (f : Fn) (ix : BitVec 16) (c : Chip) : Chip :=
  c.onEntry f 0 ix.toNat 0x49 fun a c =>
    let n := eField a.entry 4 4
    let w := c.rmaWin n
    if 2 ^ 20 ≤ n then c.finish f 0 a.pos stRange 4
    else if w.state ≠ .valid then c.finish f 0 a.pos stState 1
    else ((c.setRmaWin n { w with state := .revoking, drain := some (f.val, a.pos), revokedAt := a.seq }).modAdm f 0 a.pos fun x => { x with begun := true }).mirrorState

/-- WIN_REVOKE_DRAIN: the last earlier message has been answered. -/
def winRevokeDrainOp (index : BitVec 20) (c : Chip) : Chip :=
  let n := index.toNat
  let w := c.rmaWin n
  if w.state ≠ .revoking ∨ c.rma.qps.any (fun x => x.2.any fun q => q.msgs.any fun m => m.key / 4096 == n) then c
  else
    let c := ((c.setRmaWin n { lastTag := w.lastTag }).mirrorState).windowEvent 1 0 n
    match w.drain with
    | some (f, pos) => c.finish f 0 pos stOk 0
    | none => c

/-- CTX_HOST_AREA. -/
def ctxHostAreaOp (f : Fn) (ix : BitVec 16) (c : Chip) : Chip :=
  c.onAdmin f ix.toNat 0x4F fun a c =>
    if c.rma.qps.any fun x => x.2.any (·.tier1) then ((stQueueBusy, 0), c)
    else ((stOk, 0), c.modRma fun r => { r with hostArea := if eDlen a.entry = 0 then none else some (f.val, eDptr a.entry, eDlen a.entry) })

/-! ## Triggered work commands (R657, R658, R663) -/

/-- A descriptor has the layout of R657. -/
def twrOk (t : Twr) : Bool :=
  let act := t.action
  decide (1 ≤ act) && decide (act ≤ 7) && t.f 0 1 == 0 && decide (t.f 2 1 < 64) && decide (t.f 4 4 < 2 ^ 18) && decide (t.f 0x10 4 < 2 ^ 18) &&
  (if act = 6 then !bitAt (t.f 3 1) 3 else t.f 3 1 == 0) && (!(act == 4 || act == 5) || t.f 0x2C 4 == 8) && (act != 6 || decide (t.f 0x2C 4 ≤ 262144)) &&
  decide (t.f 0x2C 4 ≤ 0x1000000)

/-- TWR_POST: the request is armed, and fires at once where its counter is already there. -/
def twrPostOp (f : Fn) (ix : BitVec 16) (c : Chip) : Chip :=
  c.onEntry f 0 ix.toNat 0x50 fun a c =>
    let n := eField a.entry 4 4
    match a.data with
    | none => c
    | some l =>
      let t : Twr := { state := 1, desc := BitVec.ofNat 512 (ofLe l) }
      let done (code detail : Nat) (c : Chip) : Chip := c.finish f 0 a.pos code detail
      if !twrOk t then done stMalformed 0x28 c
      else if 65536 ≤ n then done stRange 4 c
      else if (c.qp t.trigQp).isNone ∨ (c.qp t.outQp).isNone then done stRange 0x28 c
      else if (c.twr n).state ≠ 0 then done stState 1 c
      else done stOk 0 (((c.setTwr n t).mirrorState).fireTwrs a.seq)

/-- TWR_CANCEL. -/
def twrCancelOp (f : Fn) (ix : BitVec 16) (c : Chip) : Chip :=
  c.onAdmin f ix.toNat 0x51 fun a c =>
    let n := eField a.entry 4 4
    if 65536 ≤ n then ((stRange, 4), c)
    else if (c.twr n).state = 1 then ((stOk, 1), (c.setTwr n {}).mirrorState)
    else ((stOk, 0), c)

/-! ## Meanings -/

def execRmaPacketReceive (pk : Packet) (s : State) := onChip (rmaPacketReceiveOp pk) s
def execContextFetchDone (qpn : BitVec 18) (s : State) := onChip (contextFetchDoneOp qpn) s
def execMessageAnswer (qpn : BitVec 18) (s : State) := onChip (messageAnswerOp qpn) s
def execRmaResponseReceive (qpn : BitVec 18) (r : RmaAnswer) (s : State) := onChip (rmaResponseReceiveOp qpn r) s
def execRcRetryTimeout (qpn : BitVec 18) (s : State) := onChip (rcRetryTimeoutOp qpn) s
def execQpCreate (f : Fn) (ix : BitVec 16) (s : State) := onChip (qpCreateOp f ix) s
def execQpConnect (f : Fn) (ix : BitVec 16) (s : State) := onChip (qpConnectOp f ix) s
def execQpDestroy (f : Fn) (ix : BitVec 16) (s : State) := onChip (qpDestroyOp f ix) s
def execQpQuery (f : Fn) (ix : BitVec 16) (s : State) := onChip (qpQueryOp f ix) s
def execKeyInstall (f : Fn) (ix : BitVec 16) (s : State) := onChip (keyInstallOp f ix) s
def execWinRegister (f : Fn) (ix : BitVec 16) (s : State) := onChip (winRegisterOp f ix) s
def execWinRevoke (f : Fn) (ix : BitVec 16) (s : State) := onChip (winRevokeOp f ix) s
def execWinRevokeDrain (index : BitVec 20) (s : State) := onChip (winRevokeDrainOp index) s
def execCtxHostArea (f : Fn) (ix : BitVec 16) (s : State) := onChip (ctxHostAreaOp f ix) s
def execTwrPost (f : Fn) (ix : BitVec 16) (s : State) := onChip (twrPostOp f ix) s
def execTwrCancel (f : Fn) (ix : BitVec 16) (s : State) := onChip (twrCancelOp f ix) s


end Sys2Proof.Machine
end

