-- ==== Sys2Proof/Machine/Transmit.lean ====
section
/-! DEFINITION. Transmission (12): which frame a port starts, the bodies of acknowledgements and announce frames, and the sealing of remote-memory packets as they
leave (13). -/

namespace Sys2Proof.Machine

/-! ## Frame bodies (R614, R615, R691) -/

/-- Ethernet header bytes: destination and source as the registers hold them, first wire byte lowest. -/
def macs (dst src : Nat) : List Byte := leBytes 6 dst ++ leBytes 6 src

/-- An acknowledgement of window `x` as it leaves (R614), with an R-TAG where ACK_REPL names a second port (R615). -/
def Chip.ackBytes (c : Chip) (x : Nat) : List Byte :=
  let w := c.win x
  let seq := w.acks
  let tci := c.winF x 0x36 12 * 2 ^ 13 + c.winF x 0x36 0
  let rtag := if c.winF x 7 4 = 0 then [] else beBytes 2 0xF1C1 ++ beBytes 2 0 ++ beBytes 2 seq
  macs (c.winF x 0x30 0) (c.eff (recTrd (c.winF x 1 0)) 0x128 0) ++ beBytes 2 0x8100 ++ beBytes 2 tci ++ rtag ++ beBytes 2 (c.eff 81 0x100 0) ++
  beBytes 1 1 ++ beBytes 1 (b2n c.par.unit) ++ beBytes 2 x ++ beBytes 8 (w.mark.getD (2 ^ 64 - 1)) ++ beBytes 8 w.markInfo.landed ++
  beBytes 8 w.markInfo.ingress ++ beBytes 8 w.markInfo.seq ++ beBytes 4 w.outside ++ beBytes 4 w.failed ++ beBytes 4 seq

/-- An announce frame of a port (R691). -/
def Chip.announceBytes (c : Chip) (p role seq : Nat) : List Byte :=
  macs (2 ^ 48 - 1) (c.eff (recTrd p) 0x128 0) ++ beBytes 2 (c.eff 81 0x100 0) ++ beBytes 1 2 ++ beBytes 1 (b2n c.par.unit) ++ beBytes 1 role ++ beBytes 1 0 ++
  beBytes 8 seq ++ List.replicate 36 0

/-! ## Sealing (R626, R627, R629) -/

/-- The key with which the next packet is sealed: the next epoch's once SEQ 0xFFFF_FFFF has been sent (R629). -/
def SealKey.rotate (k : SealKey) : SealKey :=
  if k.txSeq < 2 ^ 32 then k else { k with txEpoch := (k.txEpoch + 1) % 2 ^ 32, txSeq := 0, txKey := nextKey k.alg k.txEpoch k.txKey }

/-- The sealing header of the next packet (R626). -/
def SealKey.header (k : SealKey) : List Byte :=
  beBytes 1 (16 + k.alg) ++ beBytes 1 (b2n k.side) ++ beBytes 2 0 ++ beBytes 4 k.txEpoch ++ beBytes 4 k.txSeq

/-- The nonce of the next packet (R627). -/
def SealKey.nonce (k : SealKey) : List Byte := beBytes 4 k.salt ++ beBytes 4 (b2n k.side * 2 ^ 31 + k.txEpoch % 2 ^ 31) ++ beBytes 4 k.txSeq

/-- `n` packets are sealed: header and nonce of each, and the key after them. -/
def SealKey.send : Nat → SealKey → List Byte × SealKey
  | 0, k => ([], k)
  | n + 1, k =>
    let k := k.rotate
    let r := SealKey.send n { k with txSeq := k.txSeq + 1 }
    (k.header ++ k.nonce ++ r.1, r.2)

/-- The queue pair of a remote-memory frame and the payload bytes it carries. -/
def TxKind.qpOf : TxKind → Option (Nat × Nat)
  | .rmaAck n _ | .rmaAtomic n _ _ | .rmaNak n _ _ | .rmaRnr n _ _ => some (n, 0)
  | .rmaData n _ d | .rmaRequest n _ _ _ _ _ _ _ d => some (n, d.length)
  | _ => none

/-- A frame of a sealed queue pair takes its sealing headers and nonces; the ciphertext itself is not modelled. -/
def Chip.sealFrame (c : Chip) (k : TxKind) : List Byte × Chip :=
  match k.qpOf with
  | none => ([], c)
  | some (n, len) => match c.qp n with
    | none => ([], c)
    | some q => match q.key with
      | some key =>
        if q.sealing then
          let r := key.send (max 1 ((len + q.mtu - 1) / q.mtu))
          (r.1, c.setQp n (some { q with key := some r.2 }))
        else ([], c)
      | none => ([], c)

/-! ## FRAME_TRANSMIT_START (R574, R576–R579, R832) -/

/-- A frame that may start now: its heddle is open, its shaper has credit, and it is not preemptable under a hold. Until the first LOCKED only RNR NAKs start. -/
def Chip.eligible (c : Chip) (p : Nat) (f : TxFrame) : Bool :=
  let x := c.port p
  let early := match f.kind with | .rmaRnr _ _ _ => true | _ => false
  (c.tmb.lockedEver || early) && bitAt x.heddles f.tc && (!bitAt (c.eff (recTrd p) 0x100 16) f.tc || decide (0 ≤ tget x.credit 0 f.tc)) &&
  !(x.hold && x.verified && c.preemptable p f.tc)

/-- The frame that starts: of the highest eligible class, the oldest. -/
def Chip.nextFrame (c : Chip) (p : Nat) : Option TxFrame :=
  ((c.port p).queue.filter fun f => c.eligible p f).foldl (fun m f => match m with
    | none => some f
    | some (g : TxFrame) => if g.tc < f.tc then some f else some g) none

/-- What a frame carries as it leaves, and what its leaving changes: an acknowledgement counts and hands its second copy to the other port. -/
def Chip.departs (c : Chip) (k : TxKind) (len : Nat) : List Byte × Chip :=
  match k with
  | .ack x =>
    let l := c.ackBytes x
    let repl := c.winF x 7 4
    let c := c.modWin x fun w => { w with acks := satAdd 32 w.acks 1, ackQueued := false }
    (l, if repl = 0 ∨ 4 < repl then c else c.queueFrame (repl - 1) (c.winF x 7 0) (.ackCopy l) len)
  | .ackCopy l => (l, c)
  | k => c.sealFrame k

/-- FRAME_TRANSMIT_START: the port starts its next frame. A pre-empted frame stays so while an express one passes it. -/
def frameTransmitStartOp (p : Port) (c : Chip) : Chip :=
  if !c.clocked ∨ !(c.port p).linkUp ∨ !c.netServes then c
  else
    let c := c.accrue p
    match c.nextFrame p with
    | none => c
    | some f =>
      let cbs := c.eff (recTrd p) 0x100 16
      let express := !(c.preemptable p f.tc) || !(c.port p).verified
      let c := c.modPort p fun x => { x with
        queue := x.queue.erase f
        tx := if x.preempted && express then x.tx else some f
        preempted := x.preempted && express
        credit := if bitAt cbs f.tc then tput x.credit 0 f.tc (tget x.credit 0 f.tc - (f.bytes + 20) * 8000) else x.credit }
      let (l, c) := c.departs f.kind f.bytes
      c.emit (.frame p f.kind l)

/-! ## Meanings -/

def execFrameTransmitStart (p : Port) (s : State) := onChip (frameTransmitStartOp p) s

end Sys2Proof.Machine
end

