-- ==== Sys2Proof/Machine/Pair.lean ====
section
/-! DEFINITION. The coupled pair (14): roles, heartbeats and the lease, the Coupler's messages, takeover, reclaim, rejoin, election, planned handover and the proof
cycle. -/

namespace Sys2Proof.Machine

def Chip.modPar (c : Chip) (f : Par → Par) : Chip := { c with par := f c.par }

/-- Time passes until the elapsed time is `t`, where it lies ahead. -/
def Chip.passUp (c : Chip) (t : Nat) : Chip :=
  let n := t - c.tmb.up
  { c with tmb := { c.tmb with now := c.tmb.now + n, up := c.tmb.up + n } }

/-- `ns` nanoseconds in units of elapsed time. -/
def nsUp (ns : Nat) : Nat := ns * 2 ^ 16

/-! ## Coupler messages (R678, R679) -/

/-- A message framed: header, padded payload, CRC. -/
def CouplerMsg.bytes (m : CouplerMsg) : List Byte :=
  let n := (m.payload.length + 31) / 32
  let l := beBytes 1 m.cls ++ beBytes 1 (b2n m.last + 2 * b2n m.ingest) ++ beBytes 2 n ++ beBytes 1 m.engine ++ beBytes 5 m.offset ++ beBytes 6 m.ticket ++
    m.payload ++ List.replicate (32 * n - m.payload.length) 0
  l ++ beBytes 4 (crc32c l)

/-- Credits that a message with `n` bytes of payload consumes. -/
def creditsFor (n : Nat) : Nat := ((n + 31) / 32 * 32 + 20 + 255) / 256

/-- A message leaves, and its credits are in use (pool 3). -/
def Chip.sendMsg (c : Chip) (m : CouplerMsg) : Chip :=
  let n := creditsFor m.payload.length
  ((c.emit (.coupler m.bytes)).grant 3 n).modPar fun p => { p with credits := p.credits - n }

/-- The message that goes next: of the lowest priority number, the oldest. -/
def nextMsg (l : List CouplerMsg) : Option CouplerMsg :=
  l.foldl (fun m x => match m with | none => some x | some (y : CouplerMsg) => if x.prio < y.prio then some x else some y) none

/-- The bytes of a COPY message are read as it leaves. -/
def Chip.fillMsg (c : Chip) (m : CouplerMsg) : CouplerMsg := if m.cls = 8 then { m with payload := mread hbmInit c.hbm m.offset 65536 } else m

/-- COUPLER_SEND: credits to return go first, then the queue in priority order, when the credits of the head allow. -/
def couplerSendOp (c : Chip) : Chip :=
  if !c.clocked ∨ !c.par.trained then c
  else if 0 < c.par.owed ∧ 0 < c.par.credits then
    (c.sendMsg { cls := 9, prio := 0, payload := beBytes 4 (c.par.owed % 2 ^ 32) }).modPar fun p => { p with owed := 0 }
  else match nextMsg c.par.queue with
    | none => c
    | some m =>
      let x := c.fillMsg m
      if c.par.credits < creditsFor x.payload.length then c else (c.sendMsg x).modPar fun p => { p with queue := p.queue.erase m }

/-- A message from the partner has arrived: its credits are to be returned. -/
def Chip.received (c : Chip) (n : Nat) : Chip := c.modPar fun p => { p with owed := p.owed + creditsFor n }

/-- CREDIT: the partner returns credits. -/
def creditOp (n : W32) (c : Chip) : Chip :=
  let k := min n.toNat (c.pool 3).held
  ((c.received 4).giveBack 3 k).modPar fun p => { p with credits := p.credits + k }

/-! ## Role changes (R691, R694, R695, R710) -/

/-- The record and the event of a role change, at the place it takes. -/
def Chip.roleEvent (c : Chip) (old : Role) (reason data : Nat) : Chip :=
  let new := c.par.role.code
  (c.record 3 83 new old.code reason).happen 7 (new + 4 * old.code + 16 * b2n c.par.unit + 256 * reason) data

/-- Preempt and Abort goes to every attached member (R562, R695). -/
def Chip.preemptAll (c : Chip) : Chip :=
  ((List.range 48).filter fun m => (c.mbr m).attached).foldl (fun c m => (c.emit (.preempt m)).modMbr m fun x => { x with preempting := true }) c

/-- A key names an HBM window that is registered. -/
def Chip.hbmKey (c : Chip) (key : Nat) : Bool := let w := c.rmaWin (key / 4096); key != 0 && w.state != .free && !w.volumeType

/-- HBM windows do not survive a takeover, nor the armed requests that name one (R656). -/
def Chip.dropHbmWindows (c : Chip) : Chip :=
  let ts := (c.rma.twrs.filter fun t => t.2.state == 1 && (c.hbmKey (t.2.f 0x14 4) || (t.2.action == 6 && c.hbmKey (t.2.f 0x28 4)))).map (·.1)
  let ws := (c.rma.wins.filter fun w => w.2.state != .free && !w.2.volumeType).map (·.1)
  let c := ws.foldl (fun c i => (c.setRmaWin i { lastTag := (c.rmaWin i).lastTag }).windowEvent 2 0 i) c
  ts.foldl (fun c i => (c.setTwr i {}).windowEvent 5 0 i) c

/-- The arrays that the unit serves. -/
def Chip.liveArrays (c : Chip) : List Nat := (List.range 16).filter fun a => (c.arr a).made && (c.arr a).recovered

/-- The reasons that count as a token take, and the bound on the output gap in ns that the spec promises for each (R45, R690, R705). -/
def gapBound (reason : Nat) : Option Nat := if reason = 2 ∨ reason = 3 then some 26000 else if reason = 4 then some 30000 else if reason = 6 then some 10000 else none

/-- The unit takes the token in a role (R31, R191, R656, R691, R695): the output gap that it measures is a free value within its bound. -/
def Chip.takeToken (c : Chip) (role : Role) (reason : Nat) : Chip :=
  let old := c.par.role
  let next := match c.par.seqTop with | some t => if 0 < timeDiff t c.admNext then t else c.admNext | none => c.admNext
  let (gap, c) := match gapBound reason with | some b => c.fresh (b + 1) | none => (0, c)
  let c := ({ c with admNext := next }.grant 7 1).modPar fun p => { p with
    role := role
    reclaimBlocked := false
    wasActive := false
    copying := false
    copySent := false
    electing := false
    failbackReady := false
    blockLeft := 0
    seqTop := none
    takeovers := if (gapBound reason).isSome then satAdd 32 p.takeovers 1 else p.takeovers
    lastGap := gap
    announce := true
    announceSeq := next }
  let c := c.roleEvent old reason gap
  let c := if role = .alone then
      let c := (List.range 16).foldl (fun c e => c.confirmAlone e) c
      c.liveArrays.foldl (fun c a => c.beginEpoch a 2) c
    else c
  let moved := reason == 2 || reason == 3 || reason == 6
  let c := if moved then c.liveArrays.foldl (fun c a => c.resumeFrom a) c.dropHbmWindows else c
  let c := c.preemptAll.request (c.groupsMask 0xFFFF)
  if reason = 1 then c.milestone 3 else c

/-- Host entries that no engine has begun end with ST_FENCED, and their items leave the dispatch queues (R694). -/
def Chip.fenceEntries (c : Chip) : Chip :=
  let undispatched (a : Adm) : Bool := a.status.isNone && !a.committed
  let mine (i : Item) : Bool := i.source == 0 && ((c.queue (64 * i.port + i.origin % 64) (bits i.origin 6 8 + 1)).work.any fun a => a.pos == i.pos && undispatched a)
  let code := c.par.role.code
  let c := (List.range 16).foldl (fun c e =>
    let gone := (c.eng e).queue.filter mine
    let c := gone.foldl (fun c i => (c.giveBack 1 (stgBlocks i.room)).giveBack 0 i.cells) c
    c.modEng e fun x => { x with queue := x.queue.filter fun i => !mine i }) c
  { c with funcs := tmap (fun (x : Func) => { x with queues := x.queues.map fun g =>
      if g.1 = 0 then g else (g.1, { g.2 with work := g.2.work.map fun a => if undispatched a then { a with status := some (stFenced, code) } else a }) }) c.funcs }

/-- The unit leaves a serving role (R189, R694): waiting LANDs end FENCED, entries not begun complete, chains are cut. The token is given back, or leaves in a
HANDOVER (R685). -/
def Chip.yieldToken (c : Chip) (role : Role) (reason : Nat) (away : Bool) : Chip :=
  let old := c.par.role
  let c := c.modPar fun p => { p with
    role := role
    reclaimBlocked := false
    wasActive := old == .active && role == .fenced
    copySent := false
    handing := .none
    announce := false
    blockLeft := 0
    grantSent := none
    tokenAway := away
    queue := p.queue.filter fun m => m.cls == 2 || m.cls == 3 }
  let c := if away then c.modPool 7 fun q => { q with held := 0, inFlight := q.held } else c.giveBack 7 1
  let c := c.roleEvent old reason 0
  let c := (List.range 16).foldl (fun c e => c.landWake e) c
  (List.range 64).foldl (fun c n => c.cutChan n) c.fenceEntries

/-! ## Heartbeats (R672–R674, R681, R686) -/

/-- Path `x`. -/
def Par.path (p : Par) : Path → PathState
  | .coupler => p.coupler
  | .drawbar => p.drawbar

def Par.modPath (p : Par) (x : Path) (f : PathState → PathState) : Par :=
  match x with
  | .coupler => { p with coupler := f p.coupler }
  | .drawbar => { p with drawbar := f p.drawbar }

/-- The other path. -/
def otherPath : Path → Path
  | .coupler => .drawbar
  | .drawbar => .coupler

/-- PAR_STATE.PATH_DEGRADED. -/
def Par.degraded (p : Par) : Bool := p.coupler.degraded || p.drawbar.degraded

/-- A STANDBY unit grants while its partner served within the last 1.5 µs (R681). -/
def Chip.grants (c : Chip) : Bool := c.par.role == .standby && c.since c.par.lastActive 1500

/-- The 16 bytes of a heartbeat (R674); `base` is SEQ. -/
def Chip.heartbeatBytes (c : Chip) (x : Path) (base : Nat) : List Byte :=
  let p := c.par
  let l := beBytes 1 1 ++
    beBytes 1 (p.role.code + 4 * b2n c.grants + 8 * b2n p.pref + 16 * b2n p.proofOk + 32 * b2n p.failbackReady + 64 * b2n p.unit) ++
    beBytes 2 (p.path x).txSeq ++ beBytes 1 c.cache.ownQ ++ beBytes 1 0 ++ beBytes 6 base
  l ++ beBytes 4 (crc32c l)

/-- HEARTBEAT_SEND: an ACTIVE unit grants a block of 256 values in it (R686). On the Coupler it is a message of class 1 and needs a credit. -/
def heartbeatSendOp (x : Path) (c : Chip) : Chip :=
  if !c.clocked ∨ (x = .coupler ∧ (!c.par.trained ∨ c.par.credits = 0)) then c
  else
    let active := c.par.role == .active
    let l := c.heartbeatBytes x (if active then c.admNext else c.par.lastTaken)
    let granted := c.grants
    let up := c.tmb.up
    let c := { c with admNext := if active then add48 c.admNext 256 else c.admNext }
    let c := c.modPar fun p => { (p.modPath x fun s => { s with txSeq := (s.txSeq + 1) % 2 ^ 16 }) with
      grantSent := if granted then some up else p.grantSent
      hbFirst := p.hbFirst <|> some up }
    match x with
    | .coupler => c.sendMsg { cls := 1, prio := 0, payload := l }
    | .drawbar => c.emit (.heartbeat true l)

/-! ## Rejoin and copy (R441, R700, R701) -/

/-- A FENCED unit whose partner shows ALONE on both paths discards its protected region and takes the copy. -/
def Chip.rejoin (c : Chip) : Chip :=
  let alone (s : PathState) : Bool := c.pathUp s && s.role == 2
  if c.par.role ≠ .fenced ∨ c.par.copying ∨ !alone c.par.coupler ∨ !alone c.par.drawbar then c
  else
    let c := c.giveBack 2 c.heldCount
    { c with hbm := c.hbm.filter (fun x => decide (0x200000000 ≤ x.1)), cache := { c.cache with issued := [] } }.modPar fun p => { p with
      copying := true
      electing := false
      mirrorTop := []
      mirrorWait := [] }

/-- An ALONE unit whose partner is back queues the copy: the journal area and every held page, in messages of 64 KiB. -/
def Chip.sendCopy (c : Chip) : Chip :=
  let offs := (List.range 5120).map (· * 65536) ++ c.heldPages.map pageAt
  c.modPar fun p => { p with copySent := true, queue := p.queue ++ offs.map fun o => ({ cls := 8, prio := 5, last := true, offset := o } : CouplerMsg) }

/-- COPY: part of the copy arrives. -/
def copyOp (off : BitVec 40) (l : List Byte) (c : Chip) : Chip :=
  let c := c.received l.length
  if !c.par.copying ∨ 0x200000000 < off.toNat + l.length then c else c.hbmWrite off.toNat l

/-- COPY_COMPLETE (R700): the unit becomes STANDBY, and grants from its next heartbeat. -/
def copyCompleteOp (c : Chip) : Chip :=
  if c.par.role ≠ .fenced ∨ !c.par.copying then c
  else
    (c.modPar fun p => { p with role := .standby, copying := false, reclaimBlocked := false, wasActive := false, grantSent := none }).roleEvent .fenced 7 0

/-! ## What a heartbeat does (R674, R682, R684, R700, R704, R707, R708) -/

/-- The preferred unit (R702). -/
def Par.preferred (p : Par) : Bool := if p.pref == p.partnerPref then !p.unit else p.pref

/-- A heartbeat whose CRC or UNIT is wrong is counted and goes no further. -/
def PathState.discard (s : PathState) : PathState := { s with lost := satAdd 16 s.lost 1, rxSeq := s.rxSeq.map fun n => (n + 1) % 2 ^ 16 }

/-- A valid heartbeat on a path; the numbers missing before it are counted. -/
def PathState.accept (s : PathState) (hb : Heartbeat) (up : Nat) : PathState :=
  let gap := match s.rxSeq with | some n => (hb.hbSeq.toNat + 2 * 2 ^ 16 - n - 1) % 2 ^ 16 | none => 0
  { s with lost := satAdd 16 s.lost gap, rxSeq := some hb.hbSeq.toNat, role := hb.role.toNat, lastValid := some up }

/-- What every valid heartbeat tells this unit, whatever its role. -/
def Par.hears (p : Par) (x : Path) (hb : Heartbeat) (up : Nat) : Par :=
  let seq := hb.seq.toNat
  let p := p.modPath x fun s => s.accept hb up
  let block := hb.role == 0 && seq != 0
  { p with
    partnerRole := hb.role.toNat
    partnerPref := hb.pref
    partnerProofOk := hb.proofOk
    partnerPlan := hb.planQ.toNat
    lastActive := if hb.role = 0 ∨ hb.role = 2 then some up else p.lastActive
    blockNext := if block then seq else p.blockNext
    blockLeft := if block then 256 else p.blockLeft
    seqTop := if block then some (add48 seq 256) else if hb.role = 0 then p.seqTop else some (add48 seq 1)
    heardSinceGrant := true }

/-- A grant reaches the token holder: its lease runs anew (R682), and an ALONE unit becomes ACTIVE (R700). -/
def Chip.granted (c : Chip) : Chip :=
  let up := c.tmb.up
  let c := c.modPar fun p => { p with lastGrant := some up, degradedAtGrant := p.degraded, heardSinceGrant := false }
  if c.par.role = .alone then (c.modPar fun p => { p with role := .active, copySent := false, reclaimBlocked := false }).roleEvent .alone 7 0 else c

/-- A planned handover begins with the drain (R704). -/
def Chip.startHandover (c : Chip) : Chip :=
  if c.par.role = .active ∧ c.par.handing = .none then c.modPar fun p => { p with handing := .draining } else c

/-- What a heartbeat means to a unit in its role. -/
def Chip.roleHears (c : Chip) (hb : Heartbeat) (fresh : Bool) : Chip :=
  let theirs := hb.role.toNat
  match c.par.role with
  | .active | .alone =>
    if theirs = 0 ∨ theirs = 2 then
      let c := c.setCause 83 6
      if c.par.preferred then c else (c.yieldToken .fenced 9 false).rejoin
    else
      let c := if c.par.role = .alone ∧ theirs = 3 ∧ (fresh || !c.par.copySent) then c.sendCopy else c
      let c := if hb.grant then c.granted else c
      if theirs = 1 ∧ hb.failbackReady ∧ c.eff 83 0x100 12 = 1 then c.startHandover else c
  | .standby => if theirs = 3 then c.takeToken .alone 3 else c
  | .fenced =>
    if c.par.electing && theirs != 1 then
      if theirs = 3 then
        if c.par.preferred then c.takeToken .alone 1 else (c.modPar fun p => { p with electing := false }).milestone 3
      else ((c.modPar fun p => { p with electing := false }).milestone 3).rejoin
    else c.rejoin

/-- HEARTBEAT. -/
def heartbeatOp (x : Path) (hb : Heartbeat) (c : Chip) : Chip :=
  if !c.clocked then c
  else
    let c := if x = .coupler then c.received 16 else c
    if !hb.crcOk ∨ hb.unit = c.par.unit then c.modPar fun p => p.modPath x PathState.discard
    else
      let fresh := !c.partnerSeen
      let up := c.tmb.up
      let c := c.modPar fun p => p.hears x hb up
      let c := if c.pathUp c.par.coupler && c.pathUp c.par.drawbar && bitAt (c.blk 83).level 4 then c.setLevel 83 4 false else c
      let c := if hb.role = 0 ∧ c.par.tokenAway then (c.dropMoving 7).modPar fun p => { p with tokenAway := false } else c
      c.roleHears hb fresh

/-! ## Paths (R675) -/

/-- PATH_DOWN: 10 µs have passed without a valid heartbeat on a path while the other delivers. -/
def pathDownOp (x : Path) (c : Chip) : Chip :=
  let s := c.par.path x
  let c := if c.clocked then c.passUp (s.lastValid.getD 0 + nsUp 10000) else c
  if !c.clocked ∨ c.tmb.up < s.lastValid.getD 0 + nsUp 10000 ∨ !c.pathUp (c.par.path (otherPath x)) then c
  else (c.modPar fun p => p.modPath x fun s => { s with degraded := true, lastValid := none }).setLevel 83 4 true

/-- PATH_DEGRADED_CLEAR: the path has delivered for 100 ms. -/
def pathDegradedClearOp (x : Path) (c : Chip) : Chip :=
  if c.pathUp (c.par.path x) then c.modPar fun p => p.modPath x fun s => { s with degraded := false } else c

/-! ## The lease, takeover and reclaim (R683, R684, R689, R692, R693) -/

/-- Every port goes to its idle gates, without its hold request or its WAKE requests (R582, R683). -/
def Chip.idleGates (c : Chip) : Chip :=
  (List.range 4).foldl (fun c p =>
    let g := c.eff (recTrd p) 0x124 0
    c.modPort p fun x => { x with heddles := g, hold := false, wakes := [] }) c

/-- LEASE_EXPIRE: 10 µs have passed since the latest grant. -/
def leaseExpireOp (c : Chip) : Chip :=
  if c.par.role ≠ .active ∨ !c.clocked then c
  else
    let c := c.passUp (c.par.lastGrant.getD 0 + nsUp 10000)
    ((c.yieldToken .fenced 5 false).idleGates).setCause 83 3

/-- TAKEOVER: 11 µs have passed since the last heartbeat with GRANT, with none from a serving partner since. -/
def takeoverOp (c : Chip) : Chip :=
  match c.par.grantSent with
  | none => c
  | some g =>
    let silent := match c.par.lastActive with | some t => decide (t ≤ g) | none => true
    if c.par.role ≠ .standby ∨ !c.clocked ∨ !silent then c else (c.passUp (g + nsUp 11000)).takeToken .alone 2

/-- RECLAIM: 16 µs have passed since the last grant of a FENCED unit that was ACTIVE. -/
def reclaimOp (silent lossOfSignal : Bool) (c : Chip) : Chip :=
  if c.par.role ≠ .fenced ∨ !c.par.wasActive ∨ c.par.reclaimBlocked ∨ !c.clocked then c
  else
    let c := c.passUp (c.par.lastGrant.getD 0 + nsUp 16000)
    if silent && !c.par.heardSinceGrant && lossOfSignal && !c.par.degradedAtGrant && c.par.rxProved then c.takeToken .alone 4
    else c.modPar fun p => { p with reclaimBlocked := true }

/-- ANNOUNCE_SEND: every block that the token holder woke is awake; its announce frames leave on every port that is up, and it serves. -/
def announceSendOp (c : Chip) : Chip :=
  if !c.par.announce ∨ !c.clocked ∨ (c.pwr.waking &&& c.groupsMask 0xFFFF) ≠ 0 then c
  else
    let role := c.par.role.code
    let seq := c.par.announceSeq
    let c := c.modPar fun p => { p with announce := false }
    if !c.tmb.lockedEver then c
    else ((List.range 4).filter fun p => (c.port p).linkUp).foldl (fun c p => c.emit (.frame p (.announce role seq) (c.announceBytes p role seq))) c

/-! ## Mirrors and confirmations (R438, R439, R697) -/

/-- Tickets that wait above the latest one up to which all is written, taken in order (R184, R439). -/
def advanceTop : Nat → Nat → List Nat → Nat
  | 0, t, _ => t
  | n + 1, t, l =>
    let u := if (t + 1) % 2 ^ 48 = 0 then 1 else (t + 1) % 2 ^ 48
    if l.contains u then advanceTop n u l else t

/-- The mirror of ticket `t` of an engine is written: the unit confirms as far as all earlier ones are (R439). -/
def Chip.mirrored (c : Chip) (e t : Nat) : Chip :=
  if t = 0 ∨ c.par.role ≠ .standby then c
  else
    let mine := (c.par.mirrorWait.filter (·.1 == e)).map (·.2) ++ [t]
    let top := tget c.par.mirrorTop 0 e
    let new := if top = 0 then advanceTop mine.length t mine else advanceTop mine.length top mine
    let rest := mine.filter fun u => decide (0 < timeDiff u new)
    let c := c.modPar fun p => { p with mirrorTop := tput p.mirrorTop 0 e new, mirrorWait := (p.mirrorWait.filter (·.1 != e)) ++ rest.map fun u => (e, u) }
    if new = top then c else c.modPar fun p => { p with queue := p.queue ++ [{ cls := 2, prio := 1, last := true, engine := e, ticket := new }] }

/-- The unit takes mirror traffic: as STANDBY, and while it is copied to. -/
def Chip.mirrors (c : Chip) : Bool := c.par.role == .standby || c.par.copying

/-- MIRROR. -/
def mirrorOp (off : BitVec 40) (l : List Byte) (e : Se) (t : BitVec 48) (c : Chip) : Chip :=
  let c := c.received l.length
  if !c.mirrors ∨ 0x200000000 < off.toNat + l.length then c else (c.hbmWrite off.toNat l).mirrored e t.toNat

/-- JOURNAL: the record goes to its ring offset, and the ring state follows it. -/
def journalOp (off : BitVec 40) (l : List Byte) (e : Se) (t : BitVec 48) (c : Chip) : Chip :=
  let c := c.received l.length
  let o := off.toNat - 0x01000000
  if !c.mirrors ∨ off.toNat < 0x01000000 ∨ 0x11000000 ≤ off.toNat ∨ 256 < l.length then c
  else
    let a := o / ringSize
    let c := c.ringWrite a (o % ringSize) l
    let c := c.hbmWrite (ringAt a) (leBytes 8 ((o % ringSize + l.length) % ringSize))
    let c := c.hbmWrite (ringAt a + 16) ((l.drop 4).take 4 ++ leBytes 8 (ofLe ((l.drop 8).take 8) + 1))
    c.mirrored e t.toNat

/-- Every ticket of every engine is confirmed. -/
def Chip.allLanded (c : Chip) : Bool := (List.range 16).all fun e => (c.eng e).tickets.isEmpty

/-- The end of a planned handover at the unit that hands over: with every ticket confirmed it becomes STANDBY and sends HANDOVER (R704). -/
def Chip.handOff (c : Chip) : Chip :=
  if c.par.handing = .stopped ∧ c.par.role = .active ∧ c.allLanded then
    let c := c.yieldToken .standby 6 true
    c.modPar fun p => { p with queue := p.queue ++ [{ cls := 3, prio := 1, last := true, payload := beBytes 8 c.admNext }] }
  else c

/-- CONFIRM: every ticket of an engine up to `t` is confirmed. -/
def confirmOp (e : Se) (t : BitVec 48) (c : Chip) : Chip :=
  let c := c.received 0
  let ts := ((c.eng e).tickets.filter fun k => decide (0 ≤ timeDiff t.toNat k.num)).map (·.num)
  (ts.foldl (fun c k => c.confirmTicket e k false) c).handOff

/-- STATE (R655, R697): the mirrored state of an ingest window, a window, a queue pair or a triggered work request. -/
def stateOp (m : PairStateMsg) (c : Chip) : Chip :=
  let c := c.received 32
  if !c.mirrors then c
  else match m with
    | .ingest x next mark =>
      let mk := if mark.toNat = 2 ^ 64 - 1 then none else some mark.toNat
      c.modWin x fun w => { w with next := next.toNat, mark := mk, done := w.done.filter fun d => match mk with | some k => decide (k < d.1) | none => true }
    | .winTable i valid revoking tag pd vt access v base size =>
      let w : RmaWin := { lastTag := some tag.toNat }
      c.setRmaWin i.toNat (if valid || revoking then { w with
        state := if revoking then .revoking else .valid
        tag := tag.toNat
        pd := pd.toNat
        volumeType := vt
        access := access.toNat
        volume := v.toNat
        base := base.toNat
        size := size.toNat } else w)
    | .qp n psn recv compl => c.modQp n.toNat fun q => { q with rqPsn := psn.toNat, recvCount := recv.toNat, complCount := compl.toNat }
    | .twr i s => c.setTwr i.toNat { c.twr i.toNat with state := s.toNat }

/-! ## Time over the Coupler (R118–R120, R680) -/

/-- TIME_SEND. -/
def timeSendOp (c : Chip) : Chip :=
  if !c.clocked ∨ !c.par.trained ∨ c.par.credits = 0 then c
  else
    let now := c.nowLayout
    (c.sendMsg { cls := 4, prio := 2, last := true, payload := beBytes 8 (c.par.timeSent.getD 0) ++ beBytes 8 (c.par.timeGot.getD 0) }).modPar fun p =>
      { p with timeSent := some now }

/-- The unit follows its partner (R118, R119): from HOLDOVER with PAIR_FOLLOW set, where the partner's time is to be followed, which no message tells. -/
def Chip.followPartner (c : Chip) (off : Int) : Chip :=
  if c.tmb.following then c.measure off none
  else if c.tmb.state = .holdover ∧ c.eff 76 0x108 2 = 1 then
    let (k, c) := c.fresh 2
    if k = 1 then (c.setFollowing true).measure off none else c
  else c

/-- TIME: t1 and t2 of a message that this unit receives at `t4`. They pair with the receive time of the previous one and the latest send time. -/
def timeOp (t1 t2 t4 : W64) (c : Chip) : Chip :=
  let c := c.received 16
  let p := c.par
  let c := c.modPar fun p => { p with timeGot := some t4.toNat }
  match p.timeGot, p.timeSent with
  | some r, some s =>
    let d := (toSigned 64 ((r + 2 ^ 64 - t1.toNat) % 2 ^ 64) - toSigned 64 ((t2.toNat + 2 ^ 64 - s) % 2 ^ 64)) / 2 / 65536
    (c.modPar fun p => { p with timeOffset := satInt (2 ^ 31 - 1) d }).followPartner d
  | _, _ => c

/-! ## The proof cycle (R698, R699, R703) -/

/-- A failed step. -/
def Chip.proofFails (c : Chip) (step : Nat) : Chip :=
  (c.modPar fun p => { p with proofOk := false, failbackReady := false, clean := 0, lastFail := step, fails := satAdd 8 p.fails 1 }).setCause 83 5

/-- PROOF_CYCLE: step 0 says that all eight steps passed. The STANDBY unit runs them; an ACTIVE one takes part in steps 1 and 2, which prove its own paths. -/
def proofCycleOp (step : Fin 9) (c : Chip) : Chip :=
  let pairUp := (c.par.role == .standby && c.par.partnerRole == 0) || (c.par.role == .active && c.par.partnerRole == 1)
  if !c.clocked ∨ !pairUp then c
  else
    let c := c.modPar fun p => { p with rxProved := step != 1 && step != 2 }
    if c.par.role = .active then c
    else if step ≠ 0 then c.proofFails step
    else
      let n := satAdd 16 c.par.clean 1
      let ready := c.par.preferred && decide (10 * c.eff 83 0x100 0 ≤ n)
      c.modPar fun p => { p with proofOk := true, clean := n, failbackReady := p.failbackReady || ready }

/-! ## Planned handover (R704–R706) -/

/-- PLANNED_HANDOVER: PAR_CTRL.HANDOVER. -/
def plannedHandoverOp (c : Chip) : Chip := if c.par.partnerRole = 1 ∧ c.par.partnerProofOk then c.startHandover else c

/-- Every admitted entry, item and message has run to its end. -/
def Chip.drained (c : Chip) : Bool :=
  c.funcs.all (fun f => f.2.queues.all fun g => g.2.work.all fun a => a.status.isSome) &&
  (List.range 16).all (fun e => (c.eng e).run.isNone && (c.eng e).queue.isEmpty) &&
  c.rma.qps.all fun x => x.2.all fun q => q.msgs.isEmpty

/-- The first instant from `t` on at which no reservation of the ingest calendar meets the next 10 µs; a reservation in the way moves it to that one's end. -/
def freeInstant (rs : List (Nat × Nat)) : Nat → Nat → Nat
  | 0, t => t
  | n + 1, t => match rs.find? fun r => decide (timeDiff r.1 (add48 t 10000) ≤ 0) && decide (0 < timeDiff r.2 t) with
    | some r => freeInstant rs n r.2
    | none => t

/-- HANDOVER_DRAIN_DONE: T is chosen. -/
def handoverDrainDoneOp (c : Chip) : Chip :=
  if c.par.handing ≠ .draining ∨ !c.drained then c
  else
    let rs := (c.wins.filter fun w => w.2.live && !w.2.reserved.isEmpty).map fun w => (w.2.resFrom, w.2.resTo)
    let t := freeInstant rs (rs.length + 1) c.nowNs
    c.modPar fun p => { p with handing := .drained, handAt := t }

/-- HANDOVER_INSTANT: at T frames stop and firmware's chains pause; HANDOVER follows once every ticket is confirmed. -/
def handoverInstantOp (c : Chip) : Chip :=
  if c.par.handing ≠ .drained then c
  else
    let c := c.passTo c.par.handAt
    let c := (List.range 16).foldl (fun c k => if (c.chan (48 + k)).state = .running then c.modChan (48 + k) fun h => { h with pausePend := true } else c) c
    (c.modPar fun p => { p with handing := .stopped }).handOff

/-- HANDOVER: the STANDBY unit becomes ACTIVE; its lease starts (R682, R706). -/
def handoverOp (next : BitVec 48) (c : Chip) : Chip :=
  let c := c.received 8
  if c.par.role ≠ .standby then c
  else
    let up := c.tmb.up
    let c := { c with admNext := next.toNat }.modPar fun p => { p with seqTop := none, lastGrant := some up, degradedAtGrant := p.degraded, heardSinceGrant := false }
    c.takeToken .active 6

/-! ## Election and FORCE_ALONE (R707, R709) -/

/-- ELECT_WAIT_EXPIRE: no valid heartbeat on either path for ELECT_WAIT since this unit's first. -/
def electWaitExpireOp (c : Chip) : Chip :=
  match c.par.hbFirst with
  | none => c
  | some t =>
    if c.par.role ≠ .fenced ∨ !c.par.electing ∨ !c.clocked ∨ c.par.coupler.lastValid.isSome ∨ c.par.drawbar.lastValid.isSome then c
    else
      let c := c.passUp (t + nsUp (c.eff 83 0x100 16 * 10000000))
      if c.eff 83 0x100 13 = 1 then c.takeToken .alone 1 else c

/-- FORCE_ALONE. -/
def forceAloneOp (c : Chip) : Chip := if c.par.role = .fenced then c.takeToken .alone 8 else c

/-! ## Member commands (R387–R389, R695) -/

/-- The strips' chunks of its array that bytes `[off, off + n)` of a member hold at home: (stripe, strip, chunk). -/
def Chip.chunksAt (c : Chip) (m off n : Nat) : List (Nat × Nat × Nat) :=
  let x := c.mbr m
  let r := c.arr x.array
  let S := r.stripBytes
  match x.position with
  | none => []
  | some y =>
    if off < 0x10000000 ∨ n = 0 then []
    else
      let lo := (off - 0x10000000) / 512
      (((List.range ((off % 512 + n + 511) / 512)).filterMap fun k =>
        let at0 := (lo + k) * 512
        (stripAt r.geom y (at0 / S)).map fun s => (s.1, s.2, at0 % S / 65536))).dedup

/-- MEMBER_COMMAND_COMPLETE: line 0x60 + e pulses. A media error of a read marks the range and asks for its repair; a reservation conflict fences. -/
def memberCommandCompleteOp (m : Mbr) (e : Se) (k : MemberCmd) (r : MemberResult) (c : Chip) : Chip :=
  if !(c.mbr m).attached ∨ !c.clocked then c
  else
    let c := c.pulse (0x60 + e)
    match r with
    | .ok => c
    | .mediaError =>
      let c := c.modMbr m fun x => { x with mediaErr := satAdd 16 x.mediaErr 1, bad := if k.isWrite then x.bad else x.bad ++ [(k.off, k.len)] }
      if k.isWrite then c else (c.chunksAt m k.off k.len).foldl (fun c x => c.wantRepair (c.mbr m).array x.1 x.2.1 x.2.2) c
    | .reservationConflict =>
      if k.proof ∨ !k.isWrite then c
      else
        let c := if c.serving then c.yieldToken .fenced 9 false else c
        c.setCause 83 6

/-! ## Meanings -/

def execHeartbeatSend (path : Path) (s : State) := onChip (heartbeatSendOp path) s
def execHeartbeat (path : Path) (hb : Heartbeat) (s : State) := onChip (heartbeatOp path hb) s
def execPathDown (path : Path) (s : State) := onChip (pathDownOp path) s
def execPathDegradedClear (path : Path) (s : State) := onChip (pathDegradedClearOp path) s
def execLeaseExpire (s : State) := onChip leaseExpireOp s
def execTakeover (s : State) := onChip takeoverOp s
def execReclaim (silent lossOfSignal : Bool) (s : State) := onChip (reclaimOp silent lossOfSignal) s
def execAnnounceSend (s : State) := onChip announceSendOp s
def execCouplerSend (s : State) := onChip couplerSendOp s
def execConfirm (e : Se) (t : BitVec 48) (s : State) := onChip (confirmOp e t) s
def execHandover (next : BitVec 48) (s : State) := onChip (handoverOp next) s
def execTimeSend (s : State) := onChip timeSendOp s
def execTime (t1 t2 t4 : W64) (s : State) := onChip (timeOp t1 t2 t4) s
def execMirror (off : BitVec 40) (bytes : List Byte) (e : Se) (t : BitVec 48) (s : State) := onChip (mirrorOp off bytes e t) s
def execJournal (off : BitVec 40) (bytes : List Byte) (e : Se) (t : BitVec 48) (s : State) := onChip (journalOp off bytes e t) s
def execState (m : PairStateMsg) (s : State) := onChip (stateOp m) s
def execCopy (off : BitVec 40) (bytes : List Byte) (s : State) := onChip (copyOp off bytes) s
def execCredit (n : W32) (s : State) := onChip (creditOp n) s
def execCopyComplete (s : State) := onChip copyCompleteOp s
def execProofCycle (failStep : Fin 9) (s : State) := onChip (proofCycleOp failStep) s
def execPlannedHandover (w : Who) (s : State) := onWrite w (plannedHandoverOp) s
def execHandoverDrainDone (s : State) := onChip handoverDrainDoneOp s
def execHandoverInstant (s : State) := onChip handoverInstantOp s
def execElectWaitExpire (s : State) := onChip electWaitExpireOp s
def execForceAlone (w : Who) (s : State) := onWrite w (forceAloneOp) s
def execMemberCommandComplete (m : Mbr) (e : Se) (c : MemberCmd) (r : MemberResult) (s : State) := onChip (memberCommandCompleteOp m e c r) s


end Sys2Proof.Machine
end

