-- ==== Sys2Proof/Machine/Guard.lean ====
section
/-! DEFINITION. Functional safety (15): clearing causes, the Guard's watches, the ERR_OUT pin, block resets and the conditions that the monitors report. -/

namespace Sys2Proof.Machine

/-! ## Clearing (R729, R730) -/

/-- Level causes whose end no command reports: whether the condition still holds at the write is a free value (log entry 4). -/
def unseenLevel (r bit : Nat) : Bool := (r == 88 && bit == 3) || (r == 87 && (bit == 3 || bit == 4))

/-- The clocks with trouble of one kind are good again, and locked. -/
def Chip.clocksGood (c : Chip) (freq : Bool) : Chip :=
  let lost := c.pwr.clkBad.foldl (fun m x => if x.2 = freq ∧ !freq then m ||| 2 ^ x.1 else m) 0
  { c with pwr := { c.pwr with clkBad := c.pwr.clkBad.filter fun x => x.2 != freq, clkLocked := c.pwr.clkLocked ||| lost } }

/-- The condition of a monitored level cause may have ended by now. -/
def Chip.mayEnd (c : Chip) (r bit : Nat) : Chip :=
  if r = 90 ∧ bit = 4 ∧ !c.holdupBad then c.setLevel 90 4 false
  else if unseenLevel r bit && bitAt (c.blk r).level bit then
    let (v, c) := c.fresh 2
    if v = 1 then
      let c := c.setLevel r bit false
      if r = 88 then { c with pwr := { c.pwr with supplyBad := false } } else c.clocksGood (bit == 4)
    else c
  else c

/-- An engine whose ENGINE_FAULT cause is cleared may restart (R232, R581). -/
def Chip.restart (c : Chip) (r : Nat) : Chip :=
  match kindOf r with
  | .ary => c.modEng (instOf r) fun x => { x with faulted := false }
  | .trd =>
    let c := c.modEng (16 + instOf r) fun x => { x with faulted := false }
    if (c.port (instOf r)).state = .faulted then c.setTrd (instOf r) .armed else c
  | _ => c

/-- STATUS_W1C (R730, R729, R232): event bits clear, and level bits whose condition has ended; at CAUSE 0 the block stops handling. -/
def statusW1COp (r : Rec) (value : W32) (c : Chip) : Chip :=
  if r = 0 then c
  else
    let c := (bitsOf (value.toNat % 2 ^ 16)).foldl (fun c b => c.mayEnd r b) c
    let b := c.blk r
    let ask := b.cause &&& (value.toNat % 2 ^ 16)
    let gone := ask - (ask &&& b.level)
    let cause := b.cause - gone
    let c := c.setBlk r { b with cause := cause, handling := b.handling && cause != 0, watch := b.watch.filter fun k => bitAt cause k && cause != 0 }
    let c := if bitAt gone 3 then c.restart r else c
    c.releaseErr

/-! ## The Guard's watches (R714, R715, R733) -/

/-- HANDLE_TIMEOUT (R733): a merged cause marked S has stood for HANDLE_MAX in a block that is still handling. -/
def handleTimeoutOp (r : Rec) (c : Chip) : Chip :=
  let b := c.blk r
  match b.watch.find? fun k => bitAt (causesS (kindOf r)) k with
  | some k => if b.handling then { c with grd := { c.grd with handleRecord := r.val, handleCause := k } }.setCause 84 4 else c
  | none => c

/-- CONFIG_SCRUB (R714): the upset named holds until the set is restored; a block without one has none. -/
def configScrubOp (upset : Option Rec) (c : Chip) : Chip :=
  match upset with
  | some r => if r = 0 then c else c.setLevel r 2 true
  | none => c

/-- ALONE_SELF_PROOF (R715): step 0 says that steps 4, 5 and 8 passed. -/
def aloneSelfProofOp (step : Fin 9) (c : Chip) : Chip :=
  if c.par.role = .alone ∧ (step = 4 ∨ step = 5 ∨ step = 8) then c.proofFails step else c

/-! ## ERR_OUT (R723, R724) -/

/-- ERR_OUT_TEST. -/
def errOutTestOp (c : Chip) : Chip :=
  let c := c.assertErr
  { c with grd := { c.grd with test := true, errHold := true } }

/-- ERR_OUT_HOLD_END: the 10 µs of the pin, and of a test pulse, end. -/
def errOutHoldEndOp (c : Chip) : Chip := { c with grd := { c.grd with test := false, errHold := false } }.releaseErr

/-- GUARD_SELF_TEST: the Guard's self-test passes once a stage of the boot chain runs; with no bank to boot ERR_OUT stays asserted (R796). -/
def guardSelfTestOp (c : Chip) : Chip := if c.sec.boot = .rom then c else { c with grd := { c.grd with boot := false } }.releaseErr

/-! ## Block resets (R89, R145, R719, R720) -/

/-- The engine of a block reset: nothing runs, and its pending counts and ticket counters are 0 (R145). -/
def Chip.resetEngine (c : Chip) (e : Nat) : Chip :=
  c.modEng e fun x => { x.halt with pend := [], issued := 0, confirmed := 0, tickets := [], landed := [], haltPending := false }

/-- What the reset of a block does (R719). -/
def Chip.blockReset (c : Chip) (r : Nat) : Chip :=
  let n := instOf r
  match kindOf r with
  | .sht => (List.range 8).foldl (fun c i => c.cutChan (8 * n + i)) c
  | .ary =>
    let c := (List.range 3).foldl (fun c i => c.cutChan (3 * n + i)) c
    let items := match (c.eng n).run with | some x => x.taken | none => []
    (items.foldl (fun c i => c.completeItem n i stEngineFault n c.nowNs) c).resetEngine n
  | .trd =>
    let c := (c.idlePort n).resetEngine (16 + n)
    if (c.port n).state = .stopped ∨ (c.port n).state = .held then c
    else if bitAt (c.blk r).cause 3 then c.setTrd n .faulted else c.setTrd n .armed
  | .mbr => c.emit (.memberReset n)
  | .stm => { c with held := [], streams := tmap (fun x => { x with recov := none, hist := [] }) c.streams }
  | .rma =>
    let cells := (List.range 4).foldl (fun m p => m + c.missCells p) 0
    (c.giveBack 6 cells).modRma fun x => { x with miss := [] }
  | _ => c

/-- BLOCK_RESET_DONE (R719, R718): the reset completes, and the FAULT event follows. -/
def blockResetDoneOp (r : Rec) (c : Chip) : Chip :=
  if !(c.blk r).resetting then c
  else
    let c := (c.blockReset r).modBlk r fun b => { b.resetCfg with resetting := false }
    c.faultEvent r (c.blk r).first 3 false (c.blk r).place

/-! ## Conditions that the monitors report (R716, R804, R839) -/

/-- ECC_UNCORR of a block. -/
def eccUncorrOp (r : Rec) (c : Chip) : Chip := if r = 0 then c else c.setCause r 0

/-- CHECKER of a block. -/
def checkerMismatchOp (r : Rec) (c : Chip) : Chip := if r = 0 then c else c.setCause r 1

/-- SUPPLY_EXCURSION (R839). -/
def supplyExcursionOp (c : Chip) : Chip := { c with pwr := { c.pwr with supplyBad := true } }.setLevel 88 3 true

/-- CLOCK_FAULT (R804): a lost clock is not locked. -/
def clockFaultOp (k : Fin 6) (t : ClockTrouble) (c : Chip) : Chip :=
  let p := c.pwr
  match t with
  | .loss =>
    { c with pwr := { p with
      clkLocked := p.clkLocked - b2n (bitAt p.clkLocked k) * 2 ^ k.val
      clkBad := if p.clkBad.contains (k.val, false) then p.clkBad else p.clkBad ++ [(k.val, false)] } }.setLevel 87 3 true
  | .freq =>
    { c with pwr := { p with clkBad := if p.clkBad.contains (k.val, true) then p.clkBad else p.clkBad ++ [(k.val, true)] } }.setLevel 87 4 true

/-- OVER_TEMPERATURE (R716): the junction is above 105 °C. -/
def overTemperatureOp (c : Chip) : Chip := { c with pwr := { c.pwr with hot := true } }.setLevel 88 4 true

/-! ## Meanings -/

def execStatusW1C (w : Who) (r : Rec) (value : W32) (s : State) := onWrite w (statusW1COp r value) s
def execHandleTimeout (r : Rec) (s : State) := onChip (handleTimeoutOp r) s
def execErrOutTest (w : Who) (s : State) := onWrite w errOutTestOp s
def execErrOutHoldEnd (s : State) := onChip errOutHoldEndOp s
def execGuardSelfTest (s : State) := onChip guardSelfTestOp s
def execConfigScrub (upset : Option Rec) (s : State) := onChip (configScrubOp upset) s
def execAloneSelfProof (failStep : Fin 9) (s : State) := onChip (aloneSelfProofOp failStep) s
def execBlockResetDone (r : Rec) (s : State) := onChip (blockResetDoneOp r) s
def execEccUncorr (r : Rec) (s : State) := onChip (eccUncorrOp r) s
def execCheckerMismatch (r : Rec) (s : State) := onChip (checkerMismatchOp r) s
def execSupplyExcursion (s : State) := onChip supplyExcursionOp s
def execClockFault (c : Fin 6) (t : ClockTrouble) (s : State) := onChip (clockFaultOp c t) s
def execOverTemperature (s : State) := onChip overTemperatureOp s

end Sys2Proof.Machine
end

