-- ==== Sys2Proof/Machine/RegRead.lean ====
section
/-! DEFINITION. What the registers of the configurable blocks read (R8, R54, R69): shadows of the RWS fields, the common register group, and the registers of every
chapter. The snapshot banks latch these values (R754, R755). -/

namespace Sys2Proof.Machine

/-- A register: its block offset, its bytes and its value. -/
abbrev Reg := Nat × Nat × Nat

/-- A run of registers of one size at a stride. -/
def regs (base stride size n : Nat) (v : Nat → Nat) : List Reg := (List.range n).map fun i => (base + stride * i, size, v i)

/-- Fields packed from the lowest bit up: (lowest bit, value). -/
def pack (fs : List (Nat × Nat)) : Nat := fs.foldl (fun m f => m + f.2 * 2 ^ f.1) 0

/-- The name of a field in COMMIT_ERR_A and COMMIT_ERR_B, in block `r` (R80, R855). -/
def fieldName (r key : Nat) : Nat :=
  let w := match fieldAt r key with | some f => f.width | none => 32
  let lsb := key % 32
  pack [(0, key / 32 * 4), (16, lsb), (21, min w (32 - lsb) - 1), (26, b2n (decide (32 < lsb + w)))]

/-- The registers of the common group that hold no RWS field (R68). -/
def Chip.commonRegs (c : Chip) (r : Nat) : List Reg :=
  let b := c.blk r
  let e := b.err
  let l := b.clamp
  [(0x04, 4, pack [(0, b2n (b.shadow != b.accepted)), (1, b2n b.taken.isSome), (2, b2n b.staged), (3, b2n b.lastRefused), (4, b2n b.goDropped), (16, b.gen)]),
   (0x08, 4, b.epoch),
   (0x0C, 4, pack [(0, b2n e.valid), (1, b2n e.cross), (4, e.reason), (8, e.check), (16, e.bRecord)]),
   (0x10, 4, if e.valid && e.check != 0 then fieldName r e.fieldA else 0),
   (0x14, 4, if e.valid && e.check != 0 then fieldName (if e.cross then e.bRecord else r) e.fieldB else 0),
   (0x18, 4, pack [(0, l.offset), (16, l.lsb), (21, l.kind), (24, l.count), (31, b2n l.valid)]),
   (0x1C, 4, l.value),
   (0x40, 8, pack [(0, b.cause), (16, b.first), (20, b2n b.handling), (21, b.reacted), (24, b2n b.errOut)]),
   (0x58, 8, pack [(0, b.late), (16, b.merged)]),
   (0xA0, 4, b.snap.seq), (0xA8, 8, b.snap.time)] ++
  regs 0x80 4 4 8 (fun i => tget b.snap.sel 0 i) ++ regs 0xC0 4 4 16 (fun j => tget b.snap.vals 0 j)

/-- The slot registers of an engine block (05). -/
def Chip.slotRegs (c : Chip) (e n : Nat) : List Reg :=
  (List.range n).flatMap fun k =>
    let s := c.slot e k
    [(0x204 + 16 * k, 4, c.slotWcet e k), (0x208 + 16 * k, 4, c.slotProg e k),
     (0x20C + 16 * k, 4, match s.cur with
      | some i => pack [(0, 1), (1, b2n s.old.isSome), (2, i.keySlot), (4, i.entries.length), (16, i.version)]
      | none => b2n s.old.isSome * 2)]

/-- The fault registers of an engine block (R227). -/
def Chip.faultRegs (c : Chip) (e : Nat) : List Reg :=
  let x := c.eng e
  [(0x300, 4, pack [(0, x.faultCode), (8, x.faultSlot), (12, x.faultPc), (24, x.softCode)]), (0x304, 4, x.faultWord), (0x308, 4, x.evtLost), (0x30C, 4, x.eccCorr)]

/-- The code of MBR_STATE.STATE is the state's; the byte of ARY_PSTATE of a position. -/
def Position.byte (p : Position) : Nat := pack [(0, p.state.code), (2, p.slot.getD 7), (5, b2n p.toRepl)]

def Chip.shtRegs (c : Chip) (k : Nat) : List Reg :=
  (List.range 8).flatMap fun i =>
    let h := c.chan (8 * k + i)
    let o := 0x1000 + 0x40 * i
    let st : Nat := match h.state with | .idle => 0 | .running => 1 | .paused => 2 | .halted => 3
    [(o + 4, 4, pack [(0, st), (2, h.endBy), (4, h.desc), (8, h.issuer)]), (o + 8, 8, h.overrun),
     (o + 0x10, 4, pack [(0, h.haltCause), (3, b2n h.haltSide), (4, h.haltDesc), (8, h.haltTries)]), (o + 0x18, 8, h.haltAddr)]

def Chip.aryRegs (c : Chip) (n : Nat) : List Reg :=
  let a := c.arr n
  let at4 (f : Nat → Nat) (i : Nat) : Nat := pack ((List.range 4).map fun j => (8 * j, f (4 * i + j)))
  let mark := match a.pass with | some p => p.mark | none => 0
  c.slotRegs n 8 ++ c.faultRegs n ++
  [(0x400, 4, if a.made then pack [(0, a.geom.n), (8, a.geom.w), (16, a.geom.k), (20, a.stripLog2 - 10), (24, a.geom.q)] else 0),
   (0x404, 4, a.rows), (0x408, 8, if a.made then a.stripes else 0), (0x410, 4, pack [(0, a.stateCode), (8, a.unavail)]), (0x414, 4, a.prog),
   (0x418, 4, a.lost.length), (0x420, 8, a.repaired),
   (0x508, 4, pack [(0, b2n a.pass.isSome), (1, b2n (a.pass.any (·.main))), (2, b2n a.scrub.isSome),
     (3, match a.reshape with | some r => if r.paused then 2 else 1 | none => 0), (5, b2n (a.reshape.any (·.desc))), (6, b2n a.starved)]),
   (0x510, 8, mark), (0x518, 8, match a.scrub with | some s => s.mark | none => 0), (0x520, 8, match a.reshape with | some r => r.selvedge | none => 0),
   (0x528, 4, match a.reshape with | some r => pack [(0, r.new.n), (8, r.new.w), (16, r.new.k), (24, r.new.q)] | none => 0),
   (0x530, 8, pack [(0, a.fix.1), (16, a.fix.2.1), (32, a.fix.2.2.1), (48, a.fix.2.2.2)]), (0x538, 4, a.uncovered)] ++
  regs 0x440 4 4 12 (at4 fun y => match a.pos[y]? with | some p => p.member.getD 0xFF | none => 0xFF) ++
  regs 0x540 4 4 12 (at4 fun y => match a.pos[y]? with | some p => p.byte | none => 0x1C)

def Chip.cchRegs (c : Chip) : List Reg :=
  let k := c.cache
  let act := (List.range 16).foldl (fun m a => if (c.arr a).resync.isSome then m + 2 ^ a else m) 0
  [(0x104, 4, pack [(0, k.pairQ), (8, k.ownQ), (14, b2n k.partnerSmaller), (16, k.eMeas)]), (0x108, 4, c.pages),
   (0x10C, 4, pack [(0, c.heldCount), (17, b2n k.overPlan), (18, b2n (k.pairQ == 0)), (19, b2n !c.vault.armed)]),
   (0x110, 4, pack [(0, act), (16, k.stale)]), (0x118, 8, (List.range 16).foldl (fun m a => m + (c.arr a).resyncLeft) 0)]

def Chip.vltRegs (c : Chip) : List Reg :=
  let v := c.vault
  let kind : Nat := match v.current with | some s => (match v.slot s with | some i => if i.clean then 2 else 1 | none => 0) | none => 0
  [(0x100, 4, pack [(0, b2n v.armedSlot), (1, b2n v.armed), (2, b2n v.erasing.isSome), (3, b2n v.dumping), (4, b2n (v.current == some true)),
     (5, b2n v.current.isSome), (6, kind), (16, v.badBlocks)]),
   (0x108, 8, pack [(0, v.lastDuration), (32, v.lastPages)]), (0x110, 8, v.imageSeq)]

def Chip.mbrRegs (c : Chip) (m : Nat) : List Reg :=
  let x := c.mbr m
  [(0x104, 4, pack [(0, x.state.code), (4, x.rate), (8, x.width), (11, b2n x.resv), (12, x.auth), (16, x.array), (20, x.position.getD 0x3F)]),
   (0x108, 4, pack [(0, x.pctUsed), (8, x.critWarn), (16, x.mediaErr)]), (0x110, 8, x.written)]

def Chip.tmbRegs (c : Chip) : List Reg :=
  let t := c.tmb
  [(0x104, 4, c.timeWord), (0x118, 8, c.nowLayout), (0x120, 4, ofSigned 32 t.offset), (0x124, 4, ofSigned 32 t.rate), (0x140, 8, t.ppsInTs), (0x14C, 4, t.wakeErr),
   (0x150, 4, ofSigned 32 t.wakeStep)]

def Chip.trdRegs (c : Chip) (p : Nat) : List Reg :=
  let x := c.port p
  c.slotRegs (16 + p) 2 ++ c.faultRegs (16 + p) ++
  [(0x160, 4, pack [(0, x.state.code), (3, x.slotRun), (4, x.heddles), (12, b2n x.hold), (13, b2n x.linkUp), (14, b2n x.verified)]),
   (0x168, 8, (c.eng (16 + p)).cycleNo), (0x170, 4, x.missed), (0x174, 4, x.overrun), (0x178, 4, x.cut), (0x17C, 4, x.rxDrop)]

/-- MARK reads all ones while no frame is landed (R620). -/
def Chip.stmRegs (c : Chip) : List Reg :=
  (0x104, 4, rateTotal c.acc) ::
  ((List.range 256).flatMap fun x =>
    let w : WinState := tget c.wins {} x
    let o := 0x10000 + 32 * x
    [(o, 8, w.next), (o + 8, 8, w.mark.getD (2 ^ 64 - 1)), (o + 0x10, 4, w.outside), (o + 0x14, 4, w.failed), (o + 0x18, 4, w.late), (o + 0x1C, 4, w.acks)]) ++
  ((List.range 1024).flatMap fun h =>
    let s : StreamState := tget c.streams {} h
    let o := 0x12000 + 32 * h
    [(o, 4, s.passed), (o + 4, 4, s.discarded), (o + 8, 4, s.outOfOrder), (o + 0xC, 4, s.rogue), (o + 0x10, 4, s.lost), (o + 0x14, 4, s.resets),
     (o + 0x18, 4, s.tagless), (o + 0x1C, 4, s.dropped)])

def Chip.rmaRegs (c : Chip) : List Reg :=
  let r := c.rma
  [(0x104, 4, pack [(0, b2n r.ready), (1, b2n r.hostArea.isSome), (16, c.pinned)]), (0x108, 4, c.residents.length),
   (0x130, 4, r.icrcErr), (0x134, 4, r.noQp), (0x138, 4, r.authFail), (0x13C, 4, r.replay), (0x140, 4, r.stale), (0x144, 4, r.nakSent), (0x148, 4, r.rnrSent),
   (0x14C, 4, r.ecnCe)] ++ regs 0x110 8 8 4 (fun n => tget r.missDrop 0 n)

/-- LEASE_LEFT in units of 100 ns (R682). -/
def Chip.leaseLeft (c : Chip) : Nat :=
  match c.par.role, c.par.lastGrant with
  | .active, some t => min 100 ((t + nsUp 10000 - c.tmb.up) / nsUp 100)
  | _, _ => 0

def Chip.parRegs (c : Chip) : List Reg :=
  let p := c.par
  [(0x104, 4, pack [(0, p.role.code), (2, b2n p.unit), (3, b2n p.pref), (4, p.partnerRole), (6, b2n c.partnerSeen), (7, b2n (c.pathUp p.coupler)),
     (8, b2n (c.pathUp p.drawbar)), (9, b2n p.degraded), (10, b2n p.reclaimBlocked), (11, b2n p.copying), (12, b2n p.failbackReady), (16, c.leaseLeft)]),
   (0x10C, 4, pack [(0, p.clean), (16, p.lastFail), (24, p.fails)]), (0x110, 4, p.takeovers), (0x114, 4, p.lastGap), (0x118, 4, ofSigned 32 p.timeOffset),
   (0x11C, 4, pack [(0, p.coupler.lost), (16, p.drawbar.lost)])]

def Chip.grdRegs (c : Chip) : List Reg :=
  let g := c.grd
  [(0x108, 4, pack [(0, b2n g.errOutPin), (1, b2n g.test), (2, b2n g.boot)]), (0x110, 4, g.imbal), (0x118, 8, g.audits),
   (0x120, 4, pack [(0, g.handleRecord), (8, g.handleCause)])] ++
  regs 0x140 4 4 4 (fun n => pack [(0, tget g.devMax 0 n), (16, tget g.devCount 0 n)]) ++
  ((List.range 8).flatMap fun p =>
    let l := (c.pool p).latched
    [(0x1000 + 0x20 * p, 8, l.1), (0x1008 + 0x20 * p, 8, l.2.1), (0x1010 + 0x20 * p, 8, l.2.2.1), (0x1018 + 0x20 * p, 8, l.2.2.2)])

/-- The code of a bank's operation. -/
def BankOp.code : BankOp → Nat
  | .idle => 0 | .programming => 1 | .erasing => 2 | .suspended => 3

/-- The code of a command port's sequence. -/
def CflSeq.code : CflSeq → Nat
  | .locked => 0 | .key1 => 1 | .armed => 2 | .cmdSet => 3 | .data => 4 | .running => 5

/-- Command port `p` of the code flash, bank `b` and region `r`. -/
def Chip.cport (c : Chip) (p : Bool) : CflPort := tget c.cfl.ports {} (b2n p)
def Chip.bank (c : Chip) (b : Bool) : Bank := tget c.cfl.banks {} (b2n b)
def Chip.xo (c : Chip) (r : Nat) : XoRegion := tget c.cfl.xo {} r

def XoRegion.value (x : XoRegion) : Nat := pack [(0, x.base), (16, x.size), (32, b2n x.en), (33, b2n x.wp), (34, b2n x.lock)]

def Chip.cflRegs (c : Chip) : List Reg :=
  [(0x108, 4, pack [(0, c.cfl.warnAddr), (26, c.cfl.warnCount)])] ++
  [false, true].map (fun b => (0x110 + 4 * b2n b, 4, pack [(0, (c.bank b).op.code), (2, (c.bank b).sector)])) ++
  regs 0x120 8 8 8 (fun r => (c.xo r).value) ++
  [false, true].flatMap fun p =>
    let x := c.cport p
    let o := 0x1000 + 0x100 * b2n p
    [(o + 0xC, 4, pack [(0, x.seq.code), (3, b2n x.done), (4, b2n x.err), (5, x.corrected), (8, x.result)]), (o + 0x10, 4, x.failAddr)] ++
      regs (o + 0x40) 4 4 16 (fun i => tget x.data 0 i)

/-- The firmware floor (R791). -/
def Chip.fwFloor (c : Chip) : Nat := c.sec.fwRows.foldl max 0

/-- Bit `k` of a key slot: written, or revoked. -/
def Chip.keyWritten (c : Chip) (k : Nat) : Bool := (c.keyDigest k).isSome
def Chip.keyRevoked (c : Chip) (k : Nat) : Bool := tget c.sec.revoked false k

def Chip.secRegs (c : Chip) : List Reg :=
  let s := c.sec
  [(0x100, 4, pack [(0, b2n s.secured), (1, b2n s.bank), (2, b2n s.trial), (16, s.fwVersion)]),
   (0x10C, 4, pack [(0, c.fwFloor), (16, 32 - s.fwRows.length), (22, s.floorResult)]),
   (0x180, 4, pack [(0, b2n s.attBusy), (1, b2n s.attDone)]), (0x1200, 64, ofLe (Config.deviceKey 0 s.secret [])), (0x2000, 832, if s.attDone then ofLe s.report else 0)] ++
  regs 0x110 4 4 4 (fun k => pack [(0, c.keyFloor k), (16, 16 - (tget s.keyRows [] k).length), (21, b2n (c.keyWritten k)), (22, b2n (c.keyRevoked k))]) ++
  regs 0x140 4 4 8 (fun i => tget s.nonce 0 i) ++ regs 0x160 4 4 8 (fun i => tget s.extend 0 i) ++ regs 0x1000 32 32 8 (fun i => ofLe (c.meas i))

def Chip.clkRegs (c : Chip) : List Reg :=
  [(0x100, 4, pack [(0, c.pwr.clkLocked), (8, (List.range 4).foldl (fun m p => if (c.port p).calStarved then m + 2 ^ p else m) 0)])]

/-- The code of PWR_STATE.STATE; a unit in SIDING cannot be read. -/
def PwrState.code : PwrState → Nat
  | .off => 0 | .starting => 1 | .running => 2 | .siding => 3 | .entry => 3

def Chip.pwrRegs (c : Chip) : List Reg :=
  let p := c.pwr
  [(0x104, 4, pack [(0, p.modeEff), (2, b2n p.switching), (3, p.state.code), (5, b2n p.hostReady), (6, p.sidingResult), (16, p.gated / 2 ^ 16)]),
   (0x10C, 4, p.wakeSrc)]

/-- Comparator `n`. -/
def Chip.cmp (c : Chip) (n : Nat) : Comparator := tget c.aon.cmps {} n

def Comparator.ctrl (x : Comparator) : Nat := pack [(0, b2n x.arm), (1, b2n x.wake), (16, x.groups), (32, x.period)]

def Chip.aonRegs (c : Chip) : List Reg :=
  [(0x180, 4, c.aon.wakeInEn), (0x188, 8, pack [(0, c.aon.kind), (4, c.aon.record), (12, c.aon.cause), (16, c.aon.ns)])] ++
  regs 0x100 16 8 8 (fun n => (c.cmp n).target) ++ regs 0x108 16 8 8 (fun n => (c.cmp n).ctrl)

/-- Equivalent hours at which a least-squares line through the daily minima reaches 800 mV; all ones when unknown (R737, AGE_LIFE). -/
def projHours (ds : List (Nat × Nat)) : Nat :=
  let n : Int := ds.length
  let sx : Int := ((ds.map (·.1)).sum : Nat)
  let sy : Int := ((ds.map (·.2)).sum : Nat)
  let sxx : Int := ((ds.map fun d => d.1 * d.1).sum : Nat)
  let sxy : Int := ((ds.map fun d => d.1 * d.2).sum : Nat)
  let a := n * sxy - sx * sy
  let b := n * sxx - sx * sx
  if a ≤ 0 ∨ b ≤ 0 then 0x3FFFFF else min 0x3FFFFF (((800 * n - sy) * b + a * sx) / (n * a)).toNat

def Chip.ageRegs (c : Chip) : List Reg :=
  let g := c.age
  [(0x110, 8, pack [(0, g.v0), (16, g.v1), (32, g.eLast), (48, g.eAcc)]), (0x118, 4, pack [(0, g.setpoint), (10, g.slack)]),
   (0x120, 8, pack [(0, g.eq / (2 ^ 32 * 3600) % 2 ^ 32), (32, min 1000 c.lifeUsed), (42, projHours g.daily)]), (0x128, 4, g.obsPpm), (0x12C, 4, c.marginBits)] ++
  regs 0x140 4 4 48 (fun m => tget g.remain 0xFFFF m)

def Chip.evrRegs (c : Chip) : List Reg :=
  let e := c.evr
  [(0x108, 8, e.mark), (0x110, 4, pack [(0, e.next), (16, b2n e.wrapped), (17, b2n e.frozen), (18, e.frozenBy)]), (0x114, 4, e.dropped)]

/-- The registers of block `r` that hold no RWS field. -/
def Chip.ownRegs (c : Chip) (r : Nat) : List Reg :=
  match kindOf r with
  | .drf => []
  | .wq => [(0x108, 8, c.nextPlace)]
  | .sht => c.shtRegs (instOf r)
  | .ary => c.aryRegs (instOf r)
  | .cch => c.cchRegs
  | .vlt => c.vltRegs
  | .mbr => c.mbrRegs (instOf r)
  | .tmb => c.tmbRegs
  | .trd => c.trdRegs (instOf r)
  | .stm => c.stmRegs
  | .rma => c.rmaRegs
  | .par => c.parRegs
  | .grd => c.grdRegs
  | .cfl => c.cflRegs
  | .sec => c.secRegs
  | .clk => c.clkRegs
  | .pwr => c.pwrRegs
  | .aon => c.aonRegs
  | .age => c.ageRegs
  | .snp => [(0x108, 4, c.snp.seq), (0x110, 8, c.snp.time)]
  | .evr => c.evrRegs

/-- What the RWS fields of the word at `off` read: the shadow (R69). -/
def Chip.shadowWord (c : Chip) (r off : Nat) : Nat :=
  (fieldsIn r (8 * off) (8 * off + 32)).foldl (fun m f =>
    let v := tget (c.blk r).shadow f.reset f.lsb
    m + (if 8 * off ≤ f.lsb then v * 2 ^ (f.lsb - 8 * off) else v / 2 ^ (8 * off - f.lsb)) % 2 ^ 32) 0

/-- The 32-bit word at block offset `off` (a multiple of 4) of a configurable block. Write-only and reserved words read 0. -/
def Chip.regWord (c : Chip) (r off : Nat) : Nat :=
  let own := match (c.commonRegs r ++ c.ownRegs r).find? fun x => decide (x.1 ≤ off) && decide (off < x.1 + x.2.1) with
    | some x => x.2.2 / 2 ^ (8 * (off - x.1)) % 2 ^ 32
    | none => 0
  (own + c.shadowWord r off) % 2 ^ 32

end Sys2Proof.Machine
end

