-- ==== Sys2Proof/Machine/Ageing.lean ====
section
/-! DEFINITION. Ageing and margin plans (16): core slack and the core setpoint, thermal history, the crystal and hold-up tests. -/

namespace Sys2Proof.Machine

/-! ## Fixed-point logarithm and exponential -/

/-- Unit of the fixed-point logarithm. -/
def lnUnit : Nat := 2 ^ 96

/-- `2 × atanh (a / b)` for `3 × a ≤ b`, in units of 2^−96: the sum of the odd powers (log entry 45). -/
def atanhSum (a b : Nat) : Nat → Nat → Nat → Nat
  | 0, _, _ => 0
  | n + 1, k, p => 2 * p / k + atanhSum a b n (k + 2) (p * a * a / (b * b))

/-- `ln (a / b)` for `b ≤ a`, both nonzero, in units of 2^−96. -/
def lnRatio (a b : Nat) : Nat :=
  let k := Nat.log2 (a / b)
  let b' := b * 2 ^ k
  k * atanhSum 1 3 40 1 (lnUnit / 3) + atanhSum (a - b') (a + b') 40 1 (lnUnit * (a - b') / (a + b'))

/-- Terms of the exponential series from the `k`-th on, in units of 2^−64. -/
def expTerms (x : Int) : Nat → Nat → Int → Int
  | 0, _, _ => 0
  | n + 1, k, t => t + expTerms x n (k + 1) (t * x / (2 ^ 64 * (k : Int)))

/-- Repeated squares in units of 2^−64. -/
def squares : Nat → Int → Int
  | 0, y => y
  | n + 1, y => squares n (y * y / 2 ^ 64)

/-- The acceleration factor of R738 at `tj` °C, in units of 2^−32. -/
def accel (tj : Int) : Nat :=
  let t := 100 * tj + 27315
  if t ≤ 0 then 0
  else
    let x : Int := 8123 * 2 ^ 64 * 100 * (t - 36815) / (36815 * t)
    (squares 6 (expTerms (x / 64) 24 1 (2 ^ 64)) / 2 ^ 32).toNat

/-! ## Core slack and thermal history (R736–R740) -/

/-- SLACK_SAMPLE (R736): below 25 ps the setpoint rises by one step; with slack to spare whether it falls by one is firmware's own choice (log entry 4). -/
def slackSampleOp (slackPs : BitVec 10) (c : Chip) : Chip :=
  let (v, c) := c.fresh 2
  let g := c.age
  let sp := if slackPs.toNat < 25 then min 800 (g.setpoint + 5) else if v = 1 then max 650 (g.setpoint - 5) else g.setpoint
  let c := { c with age := { g with slack := slackPs.toNat, setpoint := sp, dayMin := min g.dayMin sp } }
  (c.record 7 90 1 sp 0).checkMargin

/-- A day has passed: its smallest setpoint joins those of the last 365 days, with the equivalent hours of that day (R736). -/
def Age.endDay (g : Age) : Age :=
  { g with daily := (g.daily ++ [(g.eq / (2 ^ 32 * 3600), g.dayMin)]).drop (g.daily.length + 1 - 365), dayMin := g.setpoint }

/-- THERMAL_INTEGRATE (R738): one second at the highest junction temperature `tjC`. THERMAL no longer holds at or below 105 °C. -/
def thermalIntegrateOp (tjC : Int) (c : Chip) : Chip :=
  let g := { c.age with eq := c.age.eq + accel tjC, seconds := c.age.seconds + 1 }
  let c := { c with age := if g.seconds % 86400 = 0 then g.endDay else g }
  let c := if tjC ≤ 105 then { c with pwr := { c.pwr with hot := false } }.setLevel 88 4 false else c
  c.checkMargin

/-- LIFE_SAVE (R740): EQ_HOURS goes to the life record. -/
def lifeSaveOp (c : Chip) : Chip := { c with age := { c.age with savedEq := c.age.eq } }

/-- XTAL_RESET (R741). -/
def xtalResetOp (c : Chip) : Chip := { c with age := { c.age with obsPpm := 0 } }.checkMargin

/-! ## Hold-up tests (R744–R749) -/

/-- HUP_NOW. -/
def hupNowOp (c : Chip) : Chip := { c with age := { c.age with hupNow := true } }

/-- Elapsed time at which a test is due, where one is (R744): at once when asked for, or when none has run; else HUP_PERIOD hours after the latest one. -/
def Chip.hupDue (c : Chip) : Option Nat :=
  if c.age.hupNow then some 0
  else if c.eff 90 0x100 8 = 0 then none
  else match c.age.hupAt with
    | none => some 0
    | some t => some (t + nsUp (c.eff 90 0x100 0 * 3600 * 1000000000))

/-- HUP_TEST_START: V0 is read, and HUP_TEST closes the switch. -/
def hupTestStartOp (v0 : BitVec 16) (c : Chip) : Chip :=
  match c.hupDue with
  | none => c
  | some t =>
    if c.vault.pwrFail ∨ c.age.hupRunning.isSome then c
    else
      let c := (c.passUp t).emit (.hupTest true)
      { c with age := { c.age with hupRunning := some v0.toNat, hupTestPin := true, hupNow := false, hupAt := some c.tmb.up } }

/-- The energy of a test in units of 0.01 J; none when the measurement is discarded (R745). Voltages in mV, R_LOAD in units of 10 mΩ, η in percent. -/
def hupEnergy (v0 v1 vMin rLoad eta : Nat) : Option Nat :=
  if v0 ≤ v1 then none
  else if v0 ≤ vMin ∨ v1 = 0 then some 0
  else some (min 65535 (eta * (v0 * v0 - vMin * vMin) * lnUnit / (10000000 * rLoad * lnRatio v0 v1)))

/-- A measurement and its acceptance (R747): the first alone; a lower one at once; a higher one after another higher one, the smaller of the two. -/
def Age.measure (g : Age) (e : Nat) : Age :=
  let acc := g.eAcc
  let g := { g with eLast := e }
  if g.eFirst then { g with eAcc := e, eFirst := false, ePrevAbove := none }
  else if e < acc then { g with eAcc := e, ePrevAbove := none }
  else if acc < e then
    match g.ePrevAbove with
    | some p => { g with eAcc := min p e, ePrevAbove := if acc < min p e ∧ min p e < e then some e else none }
    | none => { g with ePrevAbove := some e }
  else { g with ePrevAbove := none }

/-- HUP_TEST_END (R745, R747, R820): after 2 ms V1 is read, the switch opens, and E is computed and accepted. -/
def hupTestEndOp (v1 : BitVec 16) (c : Chip) : Chip :=
  match c.age.hupRunning with
  | none => c
  | some v0 =>
    let c := c.passUp ((c.age.hupAt.getD c.tmb.up) + nsUp 2000000)
    let c := ((c.emit (.hupTest false)).pulse 0xED)
    let c := { c with age := { c.age with hupRunning := none, hupTestPin := false, v0 := v0, v1 := v1.toNat } }
    match hupEnergy v0 v1.toNat (8 * c.eff 90 0x104 19) (c.eff 90 0x104 0) (c.eff 90 0x104 12) with
    | none => c
    | some e =>
      let old := (c.age.eAcc, c.age.eFirst)
      let c := { c with age := c.age.measure e }
      let c := if (c.age.eAcc, c.age.eFirst) = old then c else c.record 7 90 3 c.age.eAcc 0
      c.checkPlan

/-! ## Meanings -/

def execSlackSample (slackPs : BitVec 10) (s : State) := onChip (slackSampleOp slackPs) s
def execThermalIntegrate (tjC : Int) (s : State) := onChip (thermalIntegrateOp tjC) s
def execLifeSave (s : State) := onChip lifeSaveOp s
def execXtalReset (w : Who) (s : State) := onWrite w xtalResetOp s
def execHupNow (w : Who) (s : State) := onWrite w hupNowOp s
def execHupTestStart (v0 : BitVec 16) (s : State) := onChip (hupTestStartOp v0) s
def execHupTestEnd (v1 : BitVec 16) (s : State) := onChip (hupTestEndOp v1) s

end Sys2Proof.Machine
end

