-- ==== Sys2Proof/Machine/Snapshot.lean ====
section
/-! DEFINITION. The common snapshot trigger (R750–R757), the Guard's conservation audit (R734, R735) and the event recorder's controls (R763–R767). -/

namespace Sys2Proof.Machine

/-! ## The trigger -/

/-- A request for the next trigger, as (code of R759 kind 1, ARG1). -/
def Chip.requestSnap (c : Chip) (code arg : Nat) : Chip := { c with snp := { c.snp with requests := c.snp.requests ++ [(code, arg)] } }

/-- SNAP_IN: a rising edge, while SNAP_IN_EN is set. -/
def snapInOp (c : Chip) : Chip := if c.eff 91 0x100 20 = 1 then c.requestSnap 0 0 else c

/-- FIRE. -/
def fireOp (c : Chip) : Chip := c.requestSnap 2 0

/-- SNAP_PERIOD: PERIOD µs have passed, while PERIOD is nonzero. -/
def snapPeriodOp (c : Chip) : Chip := if c.eff 91 0x100 0 = 0 then c else c.requestSnap 3 0

/-- What selector `j` of a block latches (R754, R755). -/
def Chip.snapVal (c : Chip) (r j : Nat) : Nat :=
  let s := bits (tget (c.blk r).snap.sel 0 (j / 2)) (16 * (j % 2)) 16
  if bitAt s 15 && decide (4 * (s % 2 ^ 14) < blockSize r) then c.regWord r (4 * (s % 2 ^ 14)) else 0

/-- The bank of a block after a trigger. -/
def Chip.latchBank (c : Chip) (r seq time : Nat) : SnapBank :=
  let b := (c.blk r).snap
  { b with seq := seq, time := time, vals := (List.range 16).foldl (fun t j => tput t 0 j (c.snapVal r j)) [] }

/-- The trigger fires (R752, R753): every bank and the counters of R34 are latched, line 0xFE pulses, and every request is recorded. -/
def Chip.fireSnap (c : Chip) : Chip :=
  let seq := (c.snp.seq + 1) % 2 ^ 32
  let time := c.nowLayout
  let banks := blockRecs.map fun r => (r, c.latchBank r seq time)
  let reqs := c.snp.requests
  let out := reqs.any fun q => q.1 != 0
  let c := banks.foldl (fun c b => c.modBlk b.1 fun x => { x with snap := b.2 }) c
  let c := (List.range 8).foldl (fun c p => c.modPool p fun q => { q with snap := (q.granted, q.returned, q.held, q.inFlight) }) c
  let c := { c with snp := { seq := seq, time := time, requests := [], outHigh := c.snp.outHigh || out, sinceAudit := true, last := some c.tmb.up } }
  let c := reqs.foldl (fun c q => c.record 1 91 q.1 seq q.2) (c.pulse 0xFE)
  if out then c.emit (.snapOut true) else c

/-- The trigger fires at most once in 8 fabric cycles, 5 ns (R751). -/
def Chip.fireSoon (c : Chip) : Chip :=
  (match c.snp.last with | some t => c.passUp (t + nsUp 5) | none => c).fireSnap

/-- SNAP_TRIGGER: the requests that wait join one trigger. -/
def snapTriggerOp (c : Chip) : Chip := if c.snp.requests.isEmpty then c else c.fireSoon

/-- SNAP_OUT_END: the pulse rose 20 ns after the trigger (R851) and lasts 100 ns. -/
def snapOutEndOp (c : Chip) : Chip :=
  if !c.snp.outHigh then c
  else
    let c := c.passUp (c.snp.last.getD 0 + nsUp 120)
    { (c.emit (.snapOut false)) with snp := { c.snp with outHigh := false } }

/-! ## The conservation audit (R34–R39, R734, R735) -/

/-- The capacity of a pool (R35). Pool 2 may stand above the plan while OVER_PLAN is set, so its bound is the largest region; pool 5 is bounded by the rings that are
set (log entry 46). -/
def Chip.capacity (c : Chip) (p : Nat) : Nat :=
  match p with
  | 0 => 262144
  | 1 => 8192
  | 2 => planPages 32
  | 3 => c.par.creditCap
  | 4 => 1024
  | 5 => ((List.range 128).map fun f => if (c.fn f).evtSet then (c.fn f).evtSize else 0).sum
  | 6 => 512
  | _ => 1

/-- A pool's latched counters balance (R35). -/
def Chip.balanced (c : Chip) (p : Nat) : Bool :=
  let l := (c.pool p).latched
  let out := l.2.2.1 + l.2.2.2
  l.1 == l.2.1 + out && decide ((if p = 5 then l.2.2.1 else out) ≤ c.capacity p)

/-- The Guard takes the latched counters (R734). -/
def Chip.takeCounters (c : Chip) : Chip := (List.range 8).foldl (fun c p => c.modPool p fun q => { q with latched := q.snap }) c

/-- IMBAL: the pools whose latched counters do not balance. -/
def Chip.imbalance (c : Chip) : Nat := (List.range 8).foldl (fun m p => if c.balanced p then m else m + 2 ^ p) 0

/-- The result of an audit (R734, R735). -/
def Chip.endAudit (c : Chip) (bad : Nat) : Chip :=
  let c := { c with grd := { c.grd with imbal := bad, audits := (c.grd.audits + 1) % 2 ^ 64 }, snp := { c.snp with sinceAudit := false } }
  if bad = 0 then c else c.setCause 84 3

/-- AUDIT (R38, R734, R735): the counters latched by the latest trigger, the Guard's own when none has fired since the last audit, are copied and checked. -/
def auditOp (c : Chip) : Chip :=
  let c := (if c.snp.sinceAudit then c else (c.requestSnap 4 0).fireSoon).takeCounters
  c.endAudit c.imbalance

/-! ## The event recorder (R763–R766) -/

/-- FREEZE. -/
def freezeOp (c : Chip) : Chip := { c with evr := { c.evr with frozen := true, frozenBy := 1, post := none } }

/-- UNFREEZE: recording goes on at the next index. -/
def unfreezeOp (c : Chip) : Chip := if c.evr.frozen then { c with evr := { c.evr with frozen := false, frozenBy := 0 } } else c

/-- EVR_CLEAR: the ring is emptied, while it is frozen. -/
def evrClearOp (c : Chip) : Chip :=
  if c.evr.frozen then { c with evr := { c.evr with ring := [], next := 0, wrapped := false, dropped := 0 } } else c

/-- MARK (R759 kind 8). -/
def markOp (c : Chip) : Chip := c.record 8 92 (c.evr.mark % 2 ^ 16) (c.evr.mark / 2 ^ 32) 0

/-! ## Meanings -/

def execSnapIn (s : State) := onChip snapInOp s
def execFire (w : Who) (s : State) := onWrite w fireOp s
def execSnapPeriod (s : State) := onChip snapPeriodOp s
def execSnapTrigger (s : State) := onChip snapTriggerOp s
def execSnapOutEnd (s : State) := onChip snapOutEndOp s
def execAudit (s : State) := onChip auditOp s
def execFreeze (w : Who) (s : State) := onWrite w freezeOp s
def execUnfreeze (w : Who) (s : State) := onWrite w unfreezeOp s
def execEvrClear (w : Who) (s : State) := onWrite w evrClearOp s
def execMark (w : Who) (s : State) := onWrite w markOp s

end Sys2Proof.Machine
end

