-- ==== Sys2Proof/Machine/Flash.lean ====
section
/-! DEFINITION. The code-flash controller (17): the command ports with their sequences, reads, programs, erases and suspends, and the execute-only regions. -/

namespace Sys2Proof.Machine

/-! ## Ports and regions -/

/-- The writer reaches command port `p`: firmware port 0, the others of R57 port 1 (R769, R789). -/
def Who.mayPort (w : Who) (p : Bool) (c : Chip) : Bool := if p then Who.mayWrite w c else w == .firmware

/-- A write to a command port takes effect when its writer reaches the port; otherwise it is ignored. -/
def Chip.atPort (c : Chip) (w : Who) (p : Bool) (h : Chip → Chip) : Chip := if Who.mayPort w p c then h c else c

def Chip.modCport (c : Chip) (p : Bool) (f : CflPort → CflPort) : Chip := { c with cfl := { c.cfl with ports := tput c.cfl.ports {} (b2n p) (f (c.cport p)) } }
def Chip.modBank (c : Chip) (b : Bool) (f : Bank → Bank) : Chip := { c with cfl := { c.cfl with banks := tput c.cfl.banks {} (b2n b) (f (c.bank b)) } }

/-- Results of a command (the port's STATUS.RESULT). -/
def resOk : Nat := 0
def resBusy : Nat := 1
def resSuspended : Nat := 2
def resNotBlank : Nat := 3
def resXoDenied : Nat := 4
def resWpDenied : Nat := 5
def resSeqErr : Nat := 6
def resSeqTimeout : Nat := 7
def resUncorr : Nat := 8
def resAlign : Nat := 9
def resIdle : Nat := 10

/-- The command of a port completes: the port is LOCKED again (R772). Every result but OK is an error. -/
def Chip.cflEnd (c : Chip) (p : Bool) (res : Nat) : Chip :=
  c.modCport p fun x => { x with seq := .locked, reading := false, words := 0, waiting := none, erasing := none, done := true, err := res != resOk, result := res }

/-- A port is inside a sequence that its first key opened. -/
def CflPort.inSequence (x : CflPort) : Bool := x.seq == .key1 || x.seq == .armed || x.seq == .cmdSet || x.seq == .data

/-- A sequence older than 1 ms has ended (R771). -/
def Chip.expirePort (c : Chip) (p : Bool) : Chip :=
  let x := c.cport p
  if x.inSequence && decide (x.keyAt + nsUp 1000000 ≤ c.tmb.up) then c.cflEnd p resSeqTimeout else c

/-- A write to a port register; a port that runs a command takes none (R771). -/
def Chip.cflWrite (c : Chip) (p : Bool) (h : CflPort → Chip → Chip) : Chip :=
  let c := c.expirePort p
  let x := c.cport p
  if x.seq = .running then c else h x c

/-- The bank, the sector and the sector within its bank of a flash address. -/
def bankOf (a : Nat) : Bool := decide (0x2000000 ≤ a)
def sectorOf (a : Nat) : Nat := a / 0x10000
def inBank (a : Nat) : Nat := sectorOf a % 512

/-- A region in force covers a sector (R785). -/
def XoRegion.covers (x : XoRegion) (s : Nat) : Bool := x.en && decide (x.base ≤ s) && decide (s < x.base + x.size)

/-- Some execute-only region, or some write-protected one, covers the sector of an address. -/
def Chip.xoAt (c : Chip) (a : Nat) : Bool := (List.range 8).any fun r => (c.xo r).covers (sectorOf a)
def Chip.wpAt (c : Chip) (a : Nat) : Bool := (List.range 8).any fun r => (c.xo r).wp && (c.xo r).covers (sectorOf a)

/-- The bytes of flash from an address on. -/
def Chip.flashBytes (c : Chip) (a n : Nat) : List Byte := mread flashInit c.cfl.flash a n

/-- Flash with bytes written. -/
def Chip.flashWrite (c : Chip) (a : Nat) (l : List Byte) : Chip := { c with cfl := { c.cfl with flash := mwrite flashInit c.cfl.flash a l } }

/-! ## READ (R773, R775, R777, R782–R785) -/

/-- The data registers of a port hold a unit. -/
def Chip.cflShow (c : Chip) (p : Bool) (l : List Byte) (corrected : Nat) : Chip :=
  c.modCport p fun x => { x with corrected := corrected, data := (List.range 16).foldl (fun t i => tput t 0 i (ofLe ((l.drop (4 * i)).take 4))) [] }

/-- All-ones data with a denial or a suspension. -/
def Chip.cflDeny (c : Chip) (p : Bool) (res : Nat) : Chip := (c.cflShow p (List.replicate 64 0xFF) 0).cflEnd p res

/-- A unit is read with `n` bit errors: up to 4 are corrected, and at the threshold the unit is named (R782–R784). Uncorrected bytes are free values. -/
def Chip.cflRun (c : Chip) (p : Bool) (a n : Nat) : Chip :=
  if 4 < n then
    let (l, c) := c.freshBytes 64
    ((c.cflShow p l 0).cflEnd p resUncorr).setCause 85 0
  else
    let c := (c.cflShow p (c.flashBytes a 64) n).cflEnd p resOk
    if c.eff 85 0x100 0 ≤ n then { c with cfl := { c.cfl with warnAddr := a, warnCount := n } }.setCause 85 3 else c

/-- A READ at its bank (R777); it waits for a program of the bank to end. -/
def Chip.cflReadAt (c : Chip) (p : Bool) (a n : Nat) : Chip :=
  let b := c.bank (bankOf a)
  if a % 64 ≠ 0 then c.cflEnd p resAlign
  else if p && c.xoAt a then c.cflDeny p resXoDenied
  else if b.prog.isSome then c.modCport p fun x => { x with seq := .running, reading := false, addr := a, done := false, waiting := some (a, n) }
  else match b.op with
    | .erasing => c.cflEnd p resBusy
    | .suspended => if inBank a = b.sector then c.cflDeny p resSuspended else c.cflRun p a n
    | _ => c.cflRun p a n

/-- CFL_READ: READ in CMD from LOCKED, and the ADDR write that starts it. -/
def cflReadOp (p : Bool) (addr : BitVec 26) (bitErrors : Nat) (c : Chip) : Chip :=
  c.cflWrite p fun x c =>
    if x.seq = .locked then (c.modCport p fun x => { x with addr := addr.toNat }).cflReadAt p addr.toNat bitErrors else c.cflEnd p resSeqErr

/-- The reads that waited for a bank's program run, port 0 first (R776, R777). -/
def Chip.cflResume (c : Chip) (b : Bool) : Chip :=
  [false, true].foldl (fun c p => match (c.cport p).waiting with
    | some (a, n) => if bankOf a = b then c.cflReadAt p a n else c
    | none => c) c

/-! ## The sequence (R770–R775) -/

/-- CFL_KEY. -/
def cflKeyOp (p : Bool) (value : W32) (c : Chip) : Chip :=
  c.cflWrite p fun x c =>
    match x.seq, x.reading with
    | .locked, false =>
      if value = 0x4C58 then c.modCport p fun x => { x with seq := .key1, keyAt := c.tmb.up, done := false, err := false } else c.cflEnd p resSeqErr
    | .key1, _ => if value = 0xB3A7 then c.modCport p fun x => { x with seq := .armed } else c.cflEnd p resSeqErr
    | _, _ => c.cflEnd p resSeqErr

/-- A PROGRAM starts (R777, R779, R780, R785): write protection, the bank, and the blank check decide. -/
def Chip.programStart (c : Chip) (p : Bool) : Chip :=
  let x := c.cport p
  let a := x.addr
  let b := c.bank (bankOf a)
  if c.wpAt a then c.cflEnd p resWpDenied
  else if b.prog.isSome ∨ b.op = .erasing then c.cflEnd p resBusy
  else if b.op = .suspended ∧ inBank a = b.sector then c.cflEnd p resSuspended
  else if (c.flashBytes a 64).any fun y => y != 0xFF then (c.modCport p fun x => { x with failAddr := a }).cflEnd p resNotBlank
  else
    let l := (List.range 16).flatMap fun i => leBytes 4 (tget x.data 0 i)
    (c.modCport p fun x => { x with seq := .running }).modBank (bankOf a) fun b =>
      { b with op := if b.op = .suspended then .suspended else .programming, prog := some (p, a), image := l }

/-- A DATA write: the words come in ascending order, and the last one starts the PROGRAM. -/
def Chip.dataWrite (c : Chip) (p : Bool) (i value : Nat) : Chip :=
  c.cflWrite p fun x c =>
    if x.seq = .data ∧ x.words = i then
      let c := c.modCport p fun x => { x with data := tput x.data 0 i value, words := i + 1 }
      if i = 15 then c.programStart p else c
    else c.cflEnd p resSeqErr

/-- CFL_DATA. -/
def cflDataOp (p : Bool) (i : Fin 16) (value : W32) (c : Chip) : Chip := c.dataWrite p i.val value.toNat

/-- PROGRAM: the write of DATA15. -/
def programOp (p : Bool) (d15 : W32) (c : Chip) : Chip := c.dataWrite p 15 d15.toNat

/-- An ERASE starts (R775, R777, R785). -/
def Chip.eraseStart (c : Chip) (p : Bool) (a : Nat) : Chip :=
  let c := c.modCport p fun x => { x with addr := a }
  let b := c.bank (bankOf a)
  if a % 0x10000 ≠ 0 then c.cflEnd p resAlign
  else if c.wpAt a then c.cflEnd p resWpDenied
  else if b.op ≠ .idle then c.cflEnd p resBusy
  else (c.modCport p fun x => { x with seq := .running, erasing := some (bankOf a) }).modBank (bankOf a) fun b =>
    { b with op := .erasing, port := p, sector := inBank a }

/-- ERASE: the command in an armed port, and the ADDR write that starts it. -/
def eraseOp (p : Bool) (addr : BitVec 26) (c : Chip) : Chip :=
  c.cflWrite p fun x c =>
    if x.seq = .armed ∨ (x.seq = .cmdSet ∧ x.cmd = 3) then c.eraseStart p addr.toNat else c.cflEnd p resSeqErr

/-- The bank that a suspend or a resume means: the one whose erase stands as asked, and with two such the one of the port's latest ADDR. -/
def Chip.bankWith (c : Chip) (p : Bool) (o : BankOp) : Option Bool :=
  let x := (c.bank false).op == o
  let y := (c.bank true).op == o
  if x && y then some (bankOf (c.cport p).addr) else if x then some false else if y then some true else none

/-- ERASE_SUSPEND (R773, R777, R778): from a LOCKED port, or from the port that runs the erase. -/
def eraseSuspendOp (p : Bool) (c : Chip) : Chip :=
  let c := c.expirePort p
  let x := c.cport p
  if x.seq = .running ∧ x.erasing = none then c
  else if x.inSequence ∨ x.reading then c.cflEnd p resSeqErr
  else match c.bankWith p .erasing with
    | none => c.cflEnd p resIdle
    | some b =>
      if (c.bank b).suspending.isSome then c.cflEnd p resIdle
      else (c.modCport p fun x => { x with seq := .running, erasing := none, done := false }).modBank b fun y => { y with suspending := some p }

/-- SUSPEND_REACHED (R778). -/
def suspendReachedOp (bank : Bool) (c : Chip) : Chip :=
  match (c.bank bank).op, (c.bank bank).suspending with
  | .erasing, some p => (c.modBank bank fun y => { y with op := .suspended, suspending := none }).cflEnd p resOk
  | _, _ => c

/-- ERASE_RESUME (R777). -/
def eraseResumeOp (p : Bool) (c : Chip) : Chip :=
  c.cflWrite p fun x c =>
    if x.inSequence ∨ x.reading then c.cflEnd p resSeqErr
    else match c.bankWith p .suspended with
      | none => c.cflEnd p resIdle
      | some b => if (c.bank b).prog.isSome then c.cflEnd p resBusy else (c.modBank b fun y => { y with op := .erasing }).cflEnd p resOk

/-- SEQUENCE_TIMEOUT (R771): 1 ms has passed since the first key. -/
def sequenceTimeoutOp (p : Bool) (c : Chip) : Chip :=
  let x := c.cport p
  if x.inSequence then (c.passUp (x.keyAt + nsUp 1000000)).cflEnd p resSeqTimeout else c

/-! ## Ends (R787) -/

/-- PROGRAM_COMPLETE. -/
def programCompleteOp (bank : Bool) (c : Chip) : Chip :=
  match (c.bank bank).prog with
  | none => c
  | some (p, a) =>
    let l := (c.bank bank).image
    let c := (c.flashWrite a l).modBank bank fun y => { y with op := if y.op = .programming then .idle else y.op, prog := none, image := [] }
    (c.cflEnd p resOk).cflResume bank

/-- ERASE_COMPLETE: a suspend still waiting meets an idle bank. -/
def eraseCompleteOp (bank : Bool) (c : Chip) : Chip :=
  let b := c.bank bank
  if b.op ≠ .erasing then c
  else
    let c := (c.flashWrite (b2n bank * 0x2000000 + b.sector * 0x10000) (List.replicate 0x10000 0xFF)).modBank bank fun _ => {}
    let c := if (c.cport b.port).erasing = some bank then c.cflEnd b.port resOk else c
    match b.suspending with
    | some p => c.cflEnd p resIdle
    | none => c

/-! ## Regions (R785, R786) -/

/-- A region's register takes a value, unless it is locked. -/
def Chip.xoWrite (c : Chip) (r v : Nat) : Chip :=
  let x := c.xo r
  if x.lock then c
  else
    let y : XoRegion := { base := bits v 0 10, size := bits v 16 11, en := bitAt v 32, wp := bitAt v 33, lock := bitAt v 34 }
    { c with cfl := { c.cfl with xo := tput c.cfl.xo {} r y } }

/-- XO_LOCK. -/
def xoLockOp (r : Fin 8) (c : Chip) : Chip := { c with cfl := { c.cfl with xo := tput c.cfl.xo {} r { c.xo r with lock := true } } }

/-! ## Writes to CMD and ADDR (R770–R775) -/

/-- A write to CMD. -/
def Chip.cmdWrite (c : Chip) (p : Bool) (v : Nat) : Chip :=
  if v = 4 then eraseSuspendOp p c
  else if v = 5 then eraseResumeOp p c
  else c.cflWrite p fun x c =>
    match x.seq, x.reading with
    | .locked, false => if v = 1 then c.modCport p fun x => { x with reading := true, done := false } else c.cflEnd p resSeqErr
    | .armed, _ => if v = 2 ∨ v = 3 then c.modCport p fun x => { x with seq := .cmdSet, cmd := v } else c.cflEnd p resSeqErr
    | _, _ => c.cflEnd p resSeqErr

/-- A write to ADDR. The bit errors of a READ that starts here are a free value (log entry 4). -/
def Chip.addrWrite (c : Chip) (p : Bool) (a : Nat) : Chip :=
  c.cflWrite p fun x c =>
    match x.seq, x.reading with
    | .locked, true =>
      let (n, c) := c.fresh 6
      (c.modCport p fun x => { x with addr := a }).cflReadAt p a n
    | .cmdSet, _ =>
      if x.cmd = 3 then c.eraseStart p a
      else if a % 64 ≠ 0 then (c.modCport p fun x => { x with addr := a }).cflEnd p resAlign
      else c.modCport p fun x => { x with seq := .data, addr := a, words := 0 }
    | _, _ => c.cflEnd p resSeqErr

/-! ## Meanings -/

def execCflKey (w : Who) (port : Bool) (value : W32) (s : State) := onChip (fun c => c.atPort w port (cflKeyOp port value)) s
def execCflRead (w : Who) (port : Bool) (addr : BitVec 26) (bitErrors : Nat) (s : State) := onChip (fun c => c.atPort w port (cflReadOp port addr bitErrors)) s
def execProgram (w : Who) (port : Bool) (d15 : W32) (s : State) := onChip (fun c => c.atPort w port (programOp port d15)) s
def execErase (w : Who) (port : Bool) (addr : BitVec 26) (s : State) := onChip (fun c => c.atPort w port (eraseOp port addr)) s
def execEraseSuspend (w : Who) (port : Bool) (s : State) := onChip (fun c => c.atPort w port (eraseSuspendOp port)) s
def execEraseResume (w : Who) (port : Bool) (s : State) := onChip (fun c => c.atPort w port (eraseResumeOp port)) s
def execCflData (w : Who) (port : Bool) (i : Fin 16) (value : W32) (s : State) := onChip (fun c => c.atPort w port (cflDataOp port i value)) s
def execSequenceTimeout (port : Bool) (s : State) := onChip (sequenceTimeoutOp port) s
def execProgramComplete (bank : Bool) (s : State) := onChip (programCompleteOp bank) s
def execEraseComplete (bank : Bool) (s : State) := onChip (eraseCompleteOp bank) s
def execSuspendReached (bank : Bool) (s : State) := onChip (suspendReachedOp bank) s
def execXoLock (w : Who) (r : Fin 8) (s : State) := onWrite w (xoLockOp r) s

end Sys2Proof.Machine
end

