-- ==== Sys2Proof/Machine/Boot.lean ====
section
/-! DEFINITION. Secure boot (17): the boot chain with its measurements, the stock programs installed at start-up, the confirm mark, the anti-rollback floors and the
attestation report. -/

namespace Sys2Proof.Machine

/-! ## Bank headers (R794–R796) -/

/-- First address of a bank. -/
def bankBase (b : Bool) : Nat := b2n b * 0x2000000

/-- Field of `n` bytes at `o` in the header of a bank. -/
def Chip.hdr (c : Chip) (b : Bool) (o n : Nat) : Nat := ofLe (c.flashBytes (bankBase b + o) n)

/-- Bytes of the header of a bank. -/
def Chip.hdrBytes (c : Chip) (b : Bool) (o n : Nat) : List Byte := c.flashBytes (bankBase b + o) n

/-- The mark at offset `o` of a bank is set: its unit holds anything other than all ones (R794). -/
def Chip.marked (c : Chip) (b : Bool) (o : Nat) : Bool := (c.hdrBytes b o 64).any fun x => x != 0xFF

/-- The confirm mark, and the trial marks. -/
def confirmAt : Nat := 0x1000
def trialsAt : List Nat := [0x1040, 0x1080, 0x10C0]

/-- A bank is valid (R795). -/
def Chip.bankValid (c : Chip) (b : Bool) : Bool :=
  let pub := c.hdrBytes b 0x10 64
  decide (c.hdr b 0 4 = 0x48425A56) && decide (c.hdr b 4 2 = 1) && decide (sm3 pub = c.sec.rootKey) &&
  sm2Verify (ascii "VZ-FIRMWARE") pub (c.hdrBytes b 0 0xFBC) (c.hdrBytes b 0xFBC 64) && decide (c.fwFloor ≤ c.hdr b 6 2) &&
  decide (sm3 (c.flashBytes (bankBase b + 0x10000) (c.hdr b 0x50 4)) = c.hdrBytes b 0x60 32)

/-- A bank that the boot ROM may boot (R796). -/
def Chip.bootable (c : Chip) (b : Bool) : Bool :=
  c.bankValid b && (c.marked b confirmAt || !(trialsAt.all fun o => c.marked b o))

/-- The bank to boot: the highest BANK_SEQ. -/
def Chip.bootBank (c : Chip) : Option Bool :=
  match c.bootable false, c.bootable true with
  | true, true => some (decide (c.hdr false 8 8 < c.hdr true 8 8))
  | true, false => some false
  | false, true => some true
  | false, false => none

/-- A mark is set: its unit takes bytes that are not all ones, free otherwise (log entry 4). -/
def Chip.setMark (c : Chip) (a : Nat) : Chip :=
  let (v, c) := c.fresh 255
  let (l, c) := c.freshBytes 63
  c.flashWrite a (BitVec.ofNat 8 v :: l)

/-! ## The stages (R796, R798–R800) -/

/-- STAGE1_START: the boot ROM measures the header and stage 1, and starts it. -/
def stage1StartOp (c : Chip) : Chip :=
  if c.sec.boot ≠ .rom then c
  else match c.bootBank with
    | none => c
    | some b =>
      let confirmed := c.marked b confirmAt
      let header := c.hdrBytes b 0 0x1000
      let s1 := c.hdrBytes b 0x60 32
      let version := c.hdr b 6 2
      let c := if confirmed then c else match trialsAt.find? fun o => !c.marked b o with
        | some o => c.setMark (bankBase b + o)
        | none => c
      let c := (c.extend 0 (sm3 header)).extend 1 s1
      { c with
        sec := { c.sec with boot := .stage1, bank := b, trial := !confirmed, fwVersion := version }
        pwr := { c.pwr with clkLocked := 63 - (c.pwr.clkBad.foldl (fun m x => if x.2 then m else m ||| 2 ^ x.1) 0) } }

/-- The stock programs: PROG_ID, slot, and the proven counts of their entries (R262). -/
def stockList : List (Nat × Nat × List Nat) :=
  [(0x10001, 0, [61952, 52480, 63488, 58880]), (0x10002, 1, [64512, 40960, 64000]), (0x10003, 2, [53760]), (0x10004, 3, [12288])]

/-- A stock image on engine `e` (R262, R862): its LM windows, code and entry points are the manufacturer's (log entry 32). -/
def Chip.stockImage (c : Chip) (e id : Nat) (wcets : List Nat) : Image :=
  let lm := (Config.stockLm id).map fun n => (⟨0, 0, 3, 64 * n, true⟩ : WinReq)
  let rest := if e < 16 then [⟨1, 0, 3, 0, true⟩, ⟨2, b2n (id == 0x10004), 3, 0, true⟩, ⟨3, 0, 3, 0, true⟩] else []
  { progId := id
    version := Config.stockVersion id + 1
    keySlot := 0
    channels := if e < 16 then 3 else 0
    entries := (List.range wcets.length).map fun k => (Config.stockPc id k, wcets.getD k 0)
    windows := (placeWins e 8192 15360 (lmRange (if e < 16 then 0 else 1)) (lm ++ rest) (c.lmUsed e)).getD []
    codeWords := Config.stockCodeWords id + 1 }

/-- A stock image is installed where its VERSION is at least the floor of key slot 0 (R862). -/
def Chip.installStock (c : Chip) (e slot id : Nat) (wcets : List Nat) : Chip :=
  if c.keyFloor 0 ≤ Config.stockVersion id + 1 then c.install e slot (c.stockImage e id wcets) else c

/-- Every stock program is installed (R262, R863). -/
def Chip.installAll (c : Chip) : Chip :=
  let c := stockList.foldl (fun c p => (List.range 16).foldl (fun c e => c.installStock e p.2.1 p.1 p.2.2) c) c
  (List.range 4).foldl (fun c p => c.installStock (16 + p) 0 0x10010 [2048]) c

/-- Regions 0–5 as stage 1 sets them (R768, R786): WP on those of the boot bank, and LOCK on all. -/
def Chip.setRegions (c : Chip) (boot : Bool) : Chip :=
  [false, true].foldl (fun c b =>
    [(0, 0x1, 15), (1, 0x10, 240), (2, 0x100, 128)].foldl (fun c r =>
      let x : XoRegion := { base := b2n b * 512 + r.2.1, size := r.2.2, en := true, wp := b == boot, lock := true }
      { c with cfl := { c.cfl with xo := tput c.cfl.xo {} (3 * b2n b + r.1) x } }) c) c

/-- The FAULT event of a chip reset by reaction (R721). -/
def Chip.afterReset (c : Chip) : Chip := if c.aon.kind = 2 then c.faultEvent c.aon.record c.aon.cause 4 true c.nextPlace else c

/-- STAGE2_START (R798, R800, R832): stage 2 and the stock area match their digests; the firmware starts, and the host ports are ready. -/
def stage2StartOp (c : Chip) : Chip :=
  let b := c.sec.bank
  let s2 := c.hdrBytes b 0x80 32
  let stock := c.hdrBytes b 0xA0 32
  if c.sec.boot ≠ .stage1 ∨ sm3 (c.flashBytes (bankBase b + 0x100000) (c.hdr b 0x54 4)) ≠ s2 ∨
      sm3 (c.flashBytes (bankBase b + 0x1000000) (c.hdr b 0x58 4)) ≠ stock then c
  else
    let c := c.extend 2 s2
    let c := (List.range 5).foldl (fun c k => c.extend 3 (Config.stockDigest stock k)) c
    let m := c.meas 0 ++ c.meas 1 ++ c.meas 2
    let ak := Config.deviceKey 1 c.sec.secret m
    let end0 := Config.sign 0 c.sec.secret (ascii "VZ-AK" ++ ak ++ m) c.free
    let c := { c with
      sec := { c.sec with boot := .stage2, akPub := ak, akEndorse := end0, dikSigning := false }
      free := c.free + 1
      age := { c.age with cleanStop := false } }
    let c := ((c.extendFree 4).setRegions b).installAll
    let c := { c with pwr := { c.pwr with state := .running, hostReady := true } }
    (c.milestone 1).afterReset

/-! ## Confirm, floors and extends (R791–R793, R797, R799) -/

/-- FW_CONFIRM: the confirm mark of the running bank. -/
def fwConfirmOp (c : Chip) : Chip :=
  if c.sec.boot ≠ .stage2 ∨ c.marked c.sec.bank confirmAt then c
  else
    let c := c.setMark (bankBase c.sec.bank + confirmAt)
    { c with sec := { c.sec with trial := false } }

/-- SEC_FLOOR_WRITE (R792): the next row of the target, or the first reason why not. -/
def secFloorWriteOp (value : W32) (c : Chip) : Chip :=
  let v := bits value.toNat 0 16
  let t := bits value.toNat 16 3
  if 4 < t then c
  else
    let floor := if t = 0 then c.fwFloor else c.keyFloor (t - 1)
    let used := if t = 0 then c.sec.fwRows.length else (tget c.sec.keyRows [] (t - 1)).length
    let said (n : Nat) (c : Chip) : Chip := { c with sec := { c.sec with floorResult := n } }
    if v ≤ floor then said 2 c
    else if (if t = 0 then 32 else 16) ≤ used then said 3 c
    else if t = 0 ∧ c.sec.fwVersion < v then said 4 c
    else
      let s := if t = 0 then { c.sec with fwRows := c.sec.fwRows ++ [v] }
        else { c.sec with keyRows := tput c.sec.keyRows [] (t - 1) (tget c.sec.keyRows [] (t - 1) ++ [v]) }
      (said 1 { c with sec := s }).extendFree 4

/-- The 32 bytes of SEC_EXTEND. -/
def Chip.extendBytes (c : Chip) : List Byte := (List.range 8).flatMap fun i => leBytes 4 (tget c.sec.extend 0 i)

/-- EXTEND6 and EXTEND7. -/
def extend6Op (c : Chip) : Chip := c.extend 6 c.extendBytes
def extend7Op (c : Chip) : Chip := c.extend 7 c.extendBytes

/-! ## Attestation (R801, R802) -/

/-- ATT_GO: the nonce and every measurement as they stand; a report under way is discarded. -/
def attGoOp (c : Chip) : Chip :=
  { c with sec := { c.sec with
    attBusy := true
    attDone := false
    attNonce := (List.range 8).flatMap fun i => leBytes 4 (tget c.sec.nonce 0 i)
    attMeas := (List.range 8).flatMap fun i => c.meas i
    attTime := c.nowLayout
    attSeq := c.nextPlace } }

/-- One slot of the report: PROG_ID, VERSION, KEY_SLOT. -/
def Chip.slotReport (c : Chip) (e k : Nat) : List Byte :=
  match (c.slot e k).cur with
  | some i => leBytes 4 i.progId ++ leBytes 2 i.version ++ leBytes 1 i.keySlot ++ [0]
  | none => List.replicate 8 0

/-- The report without its signature (R802). -/
def Chip.reportBody (c : Chip) : List Byte :=
  let s := c.sec
  let keyState := (List.range 4).foldl (fun m k => m + b2n (c.keyWritten k) * 2 ^ (2 * k) + b2n (c.keyRevoked k) * 2 ^ (2 * k + 1)) 0
  let owners := (List.range 3).flatMap fun k => (c.keyDigest (k + 1)).getD (List.replicate 32 0)
  let slots := ((List.range 8).flatMap fun k => c.slotReport 0 k) ++ (List.range 4).flatMap fun p => (List.range 2).flatMap fun k => c.slotReport (16 + p) k
  layout 0x300 [(0, leBytes 4 0x52415A56), (4, leBytes 2 1), (6, leBytes 1 (b2n c.par.unit)), (7, leBytes 1 c.par.role.code), (8, s.attNonce),
    (0x28, padTo 16 Config.serial), (0x38, leBytes 2 0x6048), (0x3A, leBytes 1 0xB0), (0x3B, leBytes 1 (b2n s.bank)), (0x40, leBytes 2 s.fwVersion),
    (0x42, leBytes 2 c.fwFloor), (0x44, (List.range 4).flatMap fun k => leBytes 2 (c.keyFloor k)), (0x4C, leBytes 1 keyState), (0x50, leBytes 8 s.attTime),
    (0x58, leBytes 8 s.attSeq), (0x60, s.attMeas), (0x160, owners), (0x1C0, slots), (0x240, padTo 64 s.akPub), (0x280, padTo 64 s.akEndorse)]

/-- ATTEST_DONE: the report is signed under the attestation key. -/
def attestDoneOp (c : Chip) : Chip :=
  if !c.sec.attBusy then c
  else
    let b := c.reportBody
    let sig := padTo 64 (Config.sign 1 c.sec.secret (ascii "VZ-ATTEST" ++ b) c.free)
    { c with sec := { c.sec with attBusy := false, attDone := true, report := b ++ sig }, free := c.free + 1 }

/-! ## Meanings -/

def execStage1Start (s : State) := onChip stage1StartOp s
def execStage2Start (s : State) := onChip stage2StartOp s
def execFwConfirm (w : Who) (s : State) := onWrite w fwConfirmOp s
def execSecFloorWrite (w : Who) (value : W32) (s : State) := onWrite w (secFloorWriteOp value) s
def execExtend6 (w : Who) (s : State) := onWrite w extend6Op s
def execExtend7 (w : Who) (s : State) := onWrite w extend7Op s
def execAttGo (w : Who) (s : State) := onWrite w attGoOp s
def execAttestDone (s : State) := onChip attestDoneOp s

end Sys2Proof.Machine
end

