-- ==== Sys2Proof/Machine/Power.lean ====
section
/-! DEFINITION. Clocks, power and start-up (18, 19): unit gating and running modes, Siding, the always-on comparators and wake pins, SerDes calibration, resets from
outside, and the start of host ports, member groups and the Coupler. -/

namespace Sys2Proof.Machine

/-! ## Running modes (R46–R48, R806–R808, R812–R814) -/

/-- Units that no configured object uses (R807): Coupler lanes without a partner, the context engine without a queue pair, the drive-side PHYs without a member. -/
def Chip.unusedUnits (c : Chip) : Nat :=
  (if c.partnerSeen then 0 else 2 ^ 25) + (if c.rma.qps.any fun q => q.2.isSome then 0 else 2 ^ 26) +
  (if c.members.any fun m => m.2.state != .absent then 0 else 2 ^ 27)

/-- Units that a running mode may gate (R807): 0 Express, 1 Freight, 2 Sleeper. -/
def Chip.gateable (c : Chip) (mode : Nat) : Nat := if mode = 0 then 0 else if mode = 1 then c.unusedUnits else 0xFFFFFFF

/-- Units that a running mode needs awake. -/
def Chip.needed (c : Chip) (mode : Nat) : Nat := 0xFFFFFFF - c.gateable mode

/-- MODE of the effective set. -/
def Chip.modeSet (c : Chip) : Nat := c.eff 88 0x100 0

/-- MODE_EFF takes a mode, and a POWER event with code 1 says so (R814). -/
def Chip.enterMode (c : Chip) (mode : Nat) : Chip :=
  let old := c.pwr.modeEff
  let c := { c with pwr := { c.pwr with modeEff := mode, switching := false } }
  if old = mode then c else c.powerEvent 1 mode 0

/-- The mode of the effective set is to take effect (R46, R812, R813): Sleeper at once, the others once every needed unit is awake. -/
def Chip.applyMode (c : Chip) : Chip :=
  let m := c.modeSet
  if m = c.pwr.modeEff ∨ m = 2 then c.enterMode m
  else { c with pwr := { c.pwr with switching := true } }.request (c.needed m)

/-- MODE_EFFECTIVE. -/
def modeEffectiveOp (c : Chip) : Chip :=
  if c.pwr.switching ∧ c.pwr.gated &&& c.needed c.modeSet = 0 then c.enterMode c.modeSet else c

/-- A Shuttle instance is idle when none of its channels has work. -/
def Chip.unitIdle (c : Chip) (u : Nat) : Bool :=
  if 16 ≤ u ∧ u < 24 then (List.range 8).all fun i => let h := c.chan (8 * (u - 16) + i); h.state == .idle || h.state == .halted else true

/-- UNIT_GATE (R807): IDLE_US is what the command says; the mode in effect must allow it, no request may hold the unit, and no mode change may need it. -/
def unitGateOp (u : Fin 28) (c : Chip) : Chip :=
  let may := bitAt (c.gateable c.pwr.modeEff) u && (!c.pwr.switching || bitAt (c.gateable c.modeSet) u)
  if c.pwr.state ≠ .running ∨ c.isGated u ∨ !may ∨ bitAt c.requested u ∨ !c.unitIdle u then c
  else { c with pwr := { c.pwr with gated := c.pwr.gated + 2 ^ u.val } }

/-- The units that WAKE instructions request. -/
def Chip.wakeMask (c : Chip) : Nat := c.ports.foldl (fun m p => p.2.wakes.foldl (fun m w => m ||| c.groupMask w.1) m) 0

/-- Line 0xEF pulses once every unit requested by a WAKE instruction is awake (R820). -/
def Chip.wakeDone (c : Chip) : Chip :=
  if c.pwr.wakePulse ∧ c.pwr.gated &&& c.wakeMask = 0 then { c with pwr := { c.pwr with wakePulse := false } }.pulse 0xEF else c

/-- UNIT_AWAKE (R808): a requested unit is awake. -/
def unitAwakeOp (u : Fin 28) (c : Chip) : Chip :=
  if !c.isGated u ∨ !(bitAt c.pwr.waking u || bitAt c.requested u) then c
  else
    let p := c.pwr
    { c with pwr := { p with gated := p.gated - 2 ^ u.val, waking := p.waking - b2n (bitAt p.waking u) * 2 ^ u.val } }.wakeDone

/-! ## Siding (R821–R826, R131–R134) -/

/-- The reason to refuse a Siding entry, the first in the order of R821. -/
def Chip.sidingRefusal (c : Chip) : Option Nat :=
  if c.par.role = .active then some 2
  else if (c.rma.qps.any fun q => q.2.isSome) || c.rma.wins.any fun w => w.2.state != .free && !w.2.volumeType then some 3
  else if c.timeMode = 0 ∧ (c.pwr.state = .starting ∨ c.tmb.state = .unset) then some 4
  else if c.pwr.state = .entry then some 5
  else none

/-- SIDING: the entry begins, and admission stops (R822), or the refusal is told (R821). -/
def sidingOp (c : Chip) : Chip :=
  match c.sidingRefusal with
  | some n => { c with pwr := { c.pwr with sidingResult := n } }.powerEvent 2 0 n
  | none => { c with pwr := { c.pwr with sidingResult := 1, state := .entry } }

/-- Admitted work has run to its end, and nothing of it moves any more. -/
def Chip.quiet (c : Chip) : Bool :=
  c.drained && (c.funcs.all fun f => f.2.queues.all fun g => g.2.error || g.2.work.isEmpty) &&
  (c.channels.all fun h => h.2.state != .running) && (!c.serving || c.bobbins.isEmpty)

/-- Bit of a wake source in PWR_WAKE_SRC. -/
def wakeBit : WakeSrc → Nat
  | .comparator n => 2 ^ n.val
  | .pin i => 2 ^ (8 + i.val)
  | .host => 2 ^ 12

/-- A wake source fires (R822, R825): in SIDING the exit begins; during an entry it waits for SIDING. -/
def Chip.wakeBy (c : Chip) (m : Nat) : Chip :=
  if m = 0 then c
  else
    let p := c.pwr
    match p.state with
    | .siding => { c with pwr := { p with wakeSrc := (if p.leaving then p.wakeSrc else 0) ||| m, leaving := true } }
    | .entry => { c with pwr := { p with wakePending := p.wakePending ||| m } }
    | _ => c

/-- The passes, scrub, reshape and format of the arrays that this unit serves stand at a checkpoint (R516). -/
def Chip.checkpointAll (c : Chip) : Chip :=
  if !c.serving then c
  else (c.liveArrays.filter fun a => let r := c.arr a; r.pass.isSome || r.scrub.isSome || r.reshape.isSome).foldl (fun c a => c.writeCheckpoint a) c

/-- A STANDBY unit tells its partner (R822): three heartbeats with ROLE FENCED on each path. R710 gives this change no reason: a free value (log entry 4). -/
def Chip.stepDown (c : Chip) : Chip :=
  if c.par.role ≠ .standby then c
  else
    let (n, c) := c.fresh 16
    let c := (c.modPar fun p => { p with role := .fenced, grantSent := none }).roleEvent .standby n 0
    (List.range 3).foldl (fun c _ => heartbeatSendOp .drawbar (heartbeatSendOp .coupler c)) c

/-- Protected-region bytes that a unit which does not serve mirrors for its partner are discarded: the partner goes on ALONE (R823). -/
def Chip.dropMirror (c : Chip) : Chip :=
  if c.serving then c
  else
    let c := c.giveBack 2 c.heldCount
    { c with hbm := c.hbm.filter fun x => decide (x.1 < 0x1000), cache := { c.cache with issued := [] } }

/-- A port enters SIDING: its program is held armed, and its link goes down (R131, R581, R826). -/
def Chip.sidePort (c : Chip) (p : Nat) : Chip :=
  let s := (c.port p).state
  let c := if s = .running ∨ s = .armed then (c.idlePort p).setTrd p .held else c
  if (c.port p).linkUp then c.linkDown p else c

/-- Every fast domain stops: HBM, packet buffer and stripe staging lose their contents (R824), the paths to the partner are silent, and the always-on copy has the
time. -/
def Chip.stopClocks (c : Chip) : Chip :=
  { c with
    aon := { c.aon with copy := c.tmb.now }
    hbm := []
    pkt := []
    stg := []
    held := []
    age := { c.age with savedEq := c.age.eq, cleanStop := true }
    par := { c.par with
      coupler := { c.par.coupler with lastValid := none, rxSeq := none }
      drawbar := { c.par.drawbar with lastValid := none, rxSeq := none }
      trained := false
      credits := 0
      queue := [] }
    pwr := { c.pwr with state := .siding, leaving := false, sidingAt := c.tmb.now } }

/-- SIDING_REACHED (R822): the entry ends once admitted work is done and every bobbin is destaged. -/
def sidingReachedOp (c : Chip) : Chip :=
  if c.pwr.state ≠ .entry ∨ !c.quiet then c
  else
    let c := (c.checkpointAll.stepDown.dropMirror).dumpWhole
    let c := ((List.range 4).foldl (fun c p => c.sidePort p) c).unsetTime
    let m := c.pwr.wakePending
    let c := c.stopClocks
    { c with pwr := { c.pwr with wakePending := 0 } }.wakeBy m

/-- A wake source is enabled (R825). -/
def Chip.wakeEnabled (c : Chip) : WakeSrc → Bool
  | .comparator n => (c.cmp n).wake
  | .pin i => bitAt c.aon.wakeInEn i
  | .host => true

/-- SIDING_WAKE. -/
def sidingWakeOp (src : WakeSrc) (c : Chip) : Chip := if c.wakeEnabled src then c.wakeBy (wakeBit src) else c

/-- What HBM holds again after SIDING: the region header and ring states of the CLEAN image. -/
def Chip.cleanRegion (c : Chip) : Mem :=
  match c.vault.current with
  | some s => match c.vault.slot s with
    | some i => if i.clean then i.region else []
    | none => []
  | none => []

/-- SIDING_EXIT_DONE (R825, R132, R134): `ns` is how long the unit was in SIDING. -/
def sidingExitDoneOp (ns : Nat) (c : Chip) : Chip :=
  if c.pwr.state ≠ .siding ∨ !c.pwr.leaving then c
  else
    let from0 := c.pwr.sidingAt
    let copy := max c.aon.copy (from0 + nsUp ns)
    let dur := (copy - from0) / 2 ^ 16
    let mode := c.pwr.modeEff
    let c := { c with
      hbm := c.cleanRegion
      aon := { c.aon with copy := copy }
      tmb := { c.tmb with
        now := copy
        up := c.tmb.up + (copy - c.aon.copy)
        wakeErr := min (2 ^ 32 - 1) (100 + dur * c.eff 76 0x148 0 / 100000000)
        wakePending := true
        sidingNs := dur
        freeAfterSiding := c.timeMode == 2 }
      age := { c.age with cleanStop := false }
      pwr := { c.pwr with state := .running, switching := false, gated := 0, waking := 0, wakePulse := false, leaving := false } }
    let c := (List.range 4).foldl (fun c p => if (c.port p).state = .held then c.setTrd p .armed else c) c
    let c := if mode = 2 then c else c.enterMode 2
    (c.powerEvent 3 0 c.pwr.wakeSrc).applyMode

/-! ## The always-on domain (R816–R820) -/

/-- A comparator with its control register written. Disarmed by the write, it withdraws its requests (R818). -/
def Comparator.control (x : Comparator) (v : Nat) : Comparator :=
  { x with arm := bitAt v 0, wake := bitAt v 1, groups := bits v 16 16, period := bits v 32 32, holding := x.holding && bitAt v 0 }

def Chip.setCmp (c : Chip) (n : Nat) (x : Comparator) : Chip := { c with aon := { c.aon with cmps := tput c.aon.cmps {} n x } }

/-- AON_CMP_ARM. -/
def aonCmpArmOp (n : Fin 8) (value : W64) (c : Chip) : Chip := if bitAt value.toNat 0 then c.setCmp n ((c.cmp n).control value.toNat) else c

/-- Time passes in SIDING until the always-on copy reaches `t` ns, where it lies ahead. -/
def Chip.passCopy (c : Chip) (t : Nat) : Chip :=
  let d := timeDiff t (c.aon.copy / 2 ^ 16 % 2 ^ 48)
  if 0 < d then
    let n := d.toNat * 2 ^ 16 - c.aon.copy % 2 ^ 16
    { c with aon := { c.aon with copy := c.aon.copy + n }, tmb := { c.tmb with up := c.tmb.up + n } }
  else c

/-- COMPARATOR_MATCH: the target is reached, by schedule time while VALID is set, or by the always-on copy in SIDING. -/
def comparatorMatchOp (n : Fin 8) (c : Chip) : Chip :=
  let x := c.cmp n
  let asleep := c.pwr.state == .siding
  if !x.arm ∨ !(asleep || (c.clocked && c.timeValid)) then c
  else
    let c := if asleep then c.passCopy x.target else c.passTo x.target
    let c := (c.setCmp n { x with
      holding := true
      arm := x.period != 0
      target := (x.target + 1000 * x.period) % 2 ^ 48 }).pulse (0xE0 + n)
    let c := if asleep then c else c.request (c.groupsMask x.groups)
    if x.wake then c.wakeBy (2 ^ n.val) else c

/-- WAKE_IN_EDGE: a pulse shorter than 1 µs is ignored. -/
def wakeInEdgeOp (i : Fin 4) (widthNs : Nat) (c : Chip) : Chip :=
  if c.pwr.state = .off ∨ widthNs < 1000 then c
  else
    let c := c.pulse (0xE8 + i)
    if bitAt c.aon.wakeInEn i then c.wakeBy (2 ^ (8 + i.val)) else c

/-- JUNCTION_TEMPERATURE_100C. -/
def junctionTemperature100COp (c : Chip) : Chip := c.pulse 0xEE

/-! ## SerDes calibration (R828, R829) -/

/-- CAL_STEP: inside a calibration gap while TEn is RUNNING, and otherwise 1 s after the latest step. -/
def calStepOp (p : Port) (c : Chip) : Chip :=
  let x := c.port p
  let gap := c.eff 87 (0x110 + 4 * p.val) 0
  if x.state = .running then
    match x.gapAt with
    | some g => if timeDiff (add48 c.nowNs 1000) (add48 g gap) ≤ 0 then c.modPort p fun x => { x with calStarved := false, calAt := some c.tmb.up } else c
    | none => c
  else
    let c := match x.calAt with | some t => c.passUp (t + nsUp 1000000000) | none => c
    c.modPort p fun x => { x with calStarved := false, calAt := some c.tmb.up }

/-- CAL_STARVED: 10 s without a step while the link is up. -/
def calStarvedOp (p : Port) (c : Chip) : Chip :=
  let x := c.port p
  if !x.linkUp then c
  else
    let c := match x.calAt with | some t => c.passUp (t + nsUp 10000000000) | none => c
    c.modPort p fun x => { x with calStarved := true }

/-! ## Resets and rails (R789, R830, R831, R805) -/

/-- POWER_ON_RESET. -/
def powerOnResetOp (unitId pref : Bool) (c : Chip) : Chip := c.powerOn unitId pref

/-- CHIP_RESET. -/
def chipResetOp (c : Chip) : Chip := c.chipReset 3 0 0 true

/-- JTAG_CHIP_RESET. The pins keep their function in SIDING (R849), where the CLEAN image already stands in the vault. -/
def jtagChipResetOp (c : Chip) : Chip :=
  if c.pwr.state = .off then c
  else if c.pwr.state = .siding then { c with tmb := { c.tmb with now := c.aon.copy } }.chipReset 5 0 0 false
  else c.chipReset 5 0 0 true

/-- RAILS_REMOVED: the unit is OFF, and keeps what a power-on reset keeps. An unpowered unit cannot drive ERR_OUT (R850). -/
def railsRemovedOp (c : Chip) : Chip :=
  if c.pwr.state = .off then c
  else
    let k := c.keepAlways
    { k with
      grd := { boot := false, errOutPin := false }
      vault := { k.vault with pwrFail := false }
      age := { savedEq := c.age.savedEq, cleanStop := c.age.cleanStop, eq := c.age.savedEq, daily := c.age.daily }
      pwr := { state := .off } }

/-- PERST_ASSERT: the link of host port HA (false) or HB is reset, and then each of its functions (R830). -/
def perstAssertOp (port : Bool) (c : Chip) : Chip :=
  if c.pwr.state = .off then c
  else
    let c := { c with pwr := { c.pwr with perst := c.pwr.perst ||| 2 ^ b2n port } }
    c.startFlr (64 * b2n port)

/-- PERST_DEASSERT: the link begins to train (R832). -/
def perstDeassertOp (port : Bool) (c : Chip) : Chip :=
  let p := c.pwr
  { c with pwr := { p with perst := p.perst - b2n (bitAt p.perst (b2n port)) * 2 ^ b2n port } }

/-! ## The first second (R832, R840) -/

/-- MEMBER_GROUP_TRAIN: 50 ms + 20 ms × g after the end of reset. -/
def memberGroupTrainOp (g : Fin 12) (c : Chip) : Chip :=
  if c.pwr.groupsTrained.contains g.val then c
  else
    let c := c.passUp (nsUp (50000000 + 20000000 * g.val))
    { c with pwr := { c.pwr with groupsTrained := c.pwr.groupsTrained ++ [g.val] } }

/-- VID_FRAME. -/
def vidFrameOp (c : Chip) : Chip :=
  let code := (c.age.setpoint - 650) / 5
  { (c.emit (.vid code)) with pwr := { c.pwr with vid := code } }

/-- COUPLER_TRAINED: the partner's advertised credits are the capacity of pool 3; units of an earlier training are given back. -/
def couplerTrainedOp (credits : W32) (c : Chip) : Chip :=
  (c.giveBack 3 (c.pool 3).held).modPar fun p => { p with trained := true, credits := credits.toNat, creditCap := credits.toNat, owed := 0 }

/-! ## Meanings -/

def execJtagChipReset (s : State) := onAon jtagChipResetOp s
def execSiding (w : Who) (s : State) := onWrite w sidingOp s
def execSidingReached (s : State) := onChip sidingReachedOp s
def execSidingWake (src : WakeSrc) (s : State) := onAon (sidingWakeOp src) s
def execSidingExitDone (sidingNs : Nat) (s : State) := onAon (sidingExitDoneOp sidingNs) s
def execAonCmpArm (w : Who) (n : Fin 8) (value : W64) (s : State) := onWrite w (aonCmpArmOp n value) s
def execComparatorMatch (n : Fin 8) (s : State) := onAon (comparatorMatchOp n) s
def execWakeInEdge (i : Fin 4) (widthNs : Nat) (s : State) := onAon (wakeInEdgeOp i widthNs) s
def execUnitAwake (u : Fin 28) (s : State) := onChip (unitAwakeOp u) s
def execUnitGate (u : Fin 28) (s : State) := onChip (unitGateOp u) s
def execModeEffective (s : State) := onChip modeEffectiveOp s
def execCalStep (p : Port) (s : State) := onChip (calStepOp p) s
def execCalStarved (p : Port) (s : State) := onChip (calStarvedOp p) s
def execPowerOnReset (unitId pref : Bool) (s : State) := onAon (powerOnResetOp unitId pref) s
def execChipReset (w : Who) (s : State) := onWrite w chipResetOp s
def execPerstAssert (port : Bool) (s : State) := onAon (perstAssertOp port) s
def execPerstDeassert (port : Bool) (s : State) := onAon (perstDeassertOp port) s
def execMemberGroupTrain (g : Fin 12) (s : State) := onChip (memberGroupTrainOp g) s
def execVidFrame (s : State) := onChip vidFrameOp s
def execJunctionTemperature100C (s : State) := onChip junctionTemperature100COp s
def execRailsRemoved (s : State) := onAon railsRemovedOp s
def execCouplerTrained (credits : W32) (s : State) := onChip (couplerTrainedOp credits) s

end Sys2Proof.Machine
end

