-- ==== Sys2Proof/Machine/Registers.lean ====
section
/-! DEFINITION. Register writes without a row of their own (R7), 64-bit registers written as two halves (R55), and the latched upper half of the time registers
(R135). -/

namespace Sys2Proof.Machine

/-! ## Words (R7, R52, R53) -/

/-- The bits of `old` that a write of ones clears. -/
def w1c (old ones : Nat) : Nat := old - (old &&& ones)

/-- A 32-bit write to a register of the common group: GO_DROPPED and the snapshot selectors. -/
def Chip.writeCommon (c : Chip) (r off v : Nat) : Chip :=
  if off = 0x04 then if bitAt v 4 then c.modBlk r fun b => { b with goDropped := false } else c
  else if 0x80 ≤ off ∧ off < 0xA0 then
    c.modBlk r fun b => { b with snap := { b.snap with sel := tput b.snap.sel 0 ((off - 0x80) / 4) (v &&& 0xBFFFBFFF) } }
  else c

/-- A 32-bit write to a register of a block beside the common group. CMD and ADDR of command port 0 take firmware's writes only (R769). -/
def Chip.writeOwn (c : Chip) (w : Who) (r off v : Nat) : Chip :=
  match kindOf r with
  | .drf =>
    if 0xF000 ≤ off ∧ off < 0xF010 then { c with group := { c.group with list := tput c.group.list 0xFFFFFFFF ((off - 0xF000) / 4) v } }
    else if off = 0xF014 ∧ bitAt v 2 then { c with group := { c.group with goDropped := false } }
    else c
  | .tmb =>
    if off = 0x104 then { c with tmb := { c.tmb with wakeExceeded := c.tmb.wakeExceeded && !bitAt v 5, ppsInSeen := c.tmb.ppsInSeen && !bitAt v 6 } } else c
  | .pwr => if off = 0x10C then { c with pwr := { c.pwr with wakeSrc := w1c c.pwr.wakeSrc (v % 2 ^ 13) } } else c
  | .aon => if off = 0x180 then { c with aon := { c.aon with wakeInEn := v % 16 } } else c
  | .sec =>
    if 0x140 ≤ off ∧ off < 0x160 then { c with sec := { c.sec with nonce := tput c.sec.nonce 0 ((off - 0x140) / 4) v } }
    else if 0x160 ≤ off ∧ off < 0x180 then { c with sec := { c.sec with extend := tput c.sec.extend 0 ((off - 0x160) / 4) v } }
    else c
  | .cfl =>
    let p := decide (0x1100 ≤ off)
    let o := off - (0x1000 + 0x100 * b2n p)
    if off < 0x1000 ∨ 0x1200 ≤ off then c
    else if o = 4 then c.atPort w p fun c => c.cmdWrite p (v % 256)
    else if o = 8 then c.atPort w p fun c => c.addrWrite p (v % 2 ^ 26)
    else c
  | _ => c

/-- A 32-bit write at block offset `off` to what has no row of its own. -/
def Chip.writeWord (c : Chip) (w : Who) (r off v : Nat) : Chip := if r ≠ 0 ∧ off < 0x100 then c.writeCommon r off v else c.writeOwn w r off v

/-! ## 64-bit registers (R55) -/

/-- A value whose lower half stays when the write does not give it. -/
def joinHalves (present : Nat) (lo : Option Nat) (hi : Nat) : Nat := lo.getD (present % 2 ^ 32) + hi * 2 ^ 32

/-- RWS fields of a 64-bit register: the shadow takes the value, and SHADOW_GEN counts one write (R70). -/
def Chip.writeWideSet (c : Chip) (r off : Nat) (lo : Option Nat) (hi : Nat) : Chip :=
  c.modBlk r fun b => match lo with
    | some l => b.writeShadow r off 8 (l + hi * 2 ^ 32)
    | none => b.writeShadow r (off + 4) 4 hi

/-- A 64-bit register takes a lower half, where one is given, and an upper half. A write of ones clears nothing in a half that is not given. -/
def Chip.writeWide (c : Chip) (r off : Nat) (lo : Option Nat) (hi : Nat) : Chip :=
  if off = 0x40 then if h : r < 93 then statusW1COp ⟨r, h⟩ (BitVec.ofNat 32 (lo.getD 0)) c else c
  else if off = 0x58 then c.modBlk r fun b => { b with late := w1c b.late (lo.getD 0 % 2 ^ 16) }
  else match kindOf r with
    | .evr => if off = 0x108 then { c with evr := { c.evr with mark := joinHalves c.evr.mark lo hi &&& 0xFFFFFFFF0000FFFF } } else c.writeWideSet r off lo hi
    | .aon =>
      if off < 0x100 ∨ 0x180 ≤ off then c.writeWideSet r off lo hi
      else
        let n := (off - 0x100) / 16
        let x := c.cmp n
        if off % 16 = 0 then c.setCmp n { x with target := joinHalves x.target lo hi % 2 ^ 48 } else c.setCmp n (x.control (joinHalves x.ctrl lo hi))
    | .cfl =>
      if off < 0x120 ∨ 0x160 ≤ off then c.writeWideSet r off lo hi
      else c.xoWrite ((off - 0x120) / 8) (joinHalves (c.xo ((off - 0x120) / 8)).value lo hi)
    | _ => c.writeWideSet r off lo hi
/-- A 64-bit register that a row of its own writes whole: STATUS, and the registers of RWS fields. -/
def ownRow (r off : Nat) : Bool := off == 0x40 || !(fieldsIn r (8 * off) (8 * off + 64)).isEmpty

/-- The holding latch of a block's register, and its load. -/
def Chip.latched (c : Chip) (r off : Nat) : Option Nat := tget (c.blk r).latch none off
def Chip.setLatch (c : Chip) (r off : Nat) (v : Option Nat) : Chip := c.modBlk r fun b => { b with latch := tput b.latch none off v }

/-! ## Function pages (06, "Registers") -/

/-- The writer reaches the page of function `f`: a virtual function reaches its own only. -/
def Who.mayPage (w : Who) (f : Fn) (c : Chip) : Bool := Who.mayWrite w c || decide (w = .fn f)

/-- WQ_ADMIN_BASE or WQ_ADMIN_SHADOW takes a value; ignored while ENABLE is set. -/
def Func.writeAddr (x : Func) (off : Nat) (lo : Option Nat) (hi : Nat) : Func :=
  if x.enable then x
  else if off = 0 then { x with adminBase := joinHalves x.adminBase lo hi }
  else if off = 8 then { x with adminShadow := joinHalves x.adminShadow lo hi }
  else x

/-- A 32-bit write to a page: SIZE_M1 and VECTOR of WQ_ADMIN_CFG, whose ENABLE has a row of its own, and EVENTS_LOST. -/
def Chip.writePage (c : Chip) (f : Fn) (off v : Nat) : Chip :=
  if off = 0x10 then adminQueueEnableOp f (BitVec.ofNat 32 (v % 2 ^ 31)) c
  else if off = 0x1204 ∧ bitAt v 18 then c.modFn f fun x => { x with eventsLost := false }
  else c

/-- Bytes of a function page. -/
def pageSize : Nat := 0x2000

/-! ## The commands -/

/-- A whole register write at a target, `word` for 32 bits at an offset and `wideAt` for a 64-bit register. -/
def splitWrite (isWide : Bool) (size off v : Nat) (word : Nat → Nat → Chip → Chip) (wideAt : Chip → Chip) (c : Chip) : Chip :=
  if size = 8 then if isWide then wideAt c else word (off + 4) (v / 2 ^ 32) (word off (v % 2 ^ 32) c) else word off (v % 2 ^ 32) c

/-- REGISTER_WRITE (R7, R52, R53, R56). A half of a 64-bit register has rows of its own. -/
def registerWriteOp (a : Access) (c : Chip) : Chip :=
  let v := a.value.toNat
  match a.tgt with
  | .block r off =>
    if !Who.mayWrite a.who c || !okWrite a.size a.full off (blockSize r) || (a.size == 4 && wide r (off / 8 * 8)) then c
    else splitWrite (wide r off) a.size off v (fun o x c => c.writeWord a.who r o x)
      (fun c => if ownRow r off then c else (c.writeWide r off (some (v % 2 ^ 32)) (v / 2 ^ 32)).setLatch r off none) c
  | .page f off =>
    if !Who.mayPage a.who f c || !okWrite a.size a.full off pageSize || (a.size == 4 && pageWide (off / 8 * 8)) then c
    else splitWrite (pageWide off) a.size off v (fun o x c => c.writePage f o x)
      (fun c => c.modFn f fun x => { x.writeAddr off (some (v % 2 ^ 32)) (v / 2 ^ 32) with latch := terase x.latch off }) c
  | .hole => c

/-- LOWER_HALF_WRITE: the latch of the register is loaded. -/
def lowerHalfWriteOp (a : Access) (c : Chip) : Chip :=
  let v := a.value.toNat % 2 ^ 32
  match a.tgt with
  | .block r off =>
    if Who.mayWrite a.who c && a.size == 4 && okWrite a.size a.full off (blockSize r) && wide r off then c.setLatch r off (some v) else c
  | .page f off =>
    if Who.mayPage a.who f c && a.size == 4 && okWrite a.size a.full off pageSize && pageWide off then
      c.modFn f fun x => { x with latch := tput x.latch none off (some v) }
    else c
  | .hole => c

/-- UPPER_HALF_WRITE: the register takes the latch and this half; without a lower-half write before it, the register keeps its present lower half. -/
def upperHalfWriteOp (a : Access) (c : Chip) : Chip :=
  let v := a.value.toNat % 2 ^ 32
  match a.tgt with
  | .block r o =>
    let off := o - 4
    if Who.mayWrite a.who c && a.size == 4 && okWrite a.size a.full o (blockSize r) && decide (4 ≤ o) && wide r off then
      (c.writeWide r off (c.latched r off) v).setLatch r off none
    else c
  | .page f o =>
    let off := o - 4
    if Who.mayPage a.who f c && a.size == 4 && okWrite a.size a.full o pageSize && decide (4 ≤ o) && pageWide off then
      c.modFn f fun x => { x.writeAddr off (tget x.latch none off) v with latch := terase x.latch off }
    else c
  | .hole => c

/-- Number of a requester (R135): a function, firmware, or JTAG. -/
def requester : Who → Nat
  | .fn f => f.val
  | .firmware => 128
  | .jtag => 129

/-- NOW_LOWER_READ: the upper half of TMB_NOW, or with `pps` of TMB_PPS_IN_TS, is latched for the requester. -/
def nowLowerReadOp (w : Who) (pps : Bool) (c : Chip) : Chip :=
  if pps then { c with tmb := { c.tmb with ppsUpper := tput c.tmb.ppsUpper 0 (requester w) (c.tmb.ppsInTs / 2 ^ 32) } }
  else { c with tmb := { c.tmb with nowUpper := tput c.tmb.nowUpper 0 (requester w) (c.nowLayout / 2 ^ 32) } }

/-! ## Meanings -/

def execRegisterWrite (a : Access) (s : State) := onChip (registerWriteOp a) s
def execLowerHalfWrite (a : Access) (s : State) := onChip (lowerHalfWriteOp a) s
def execUpperHalfWrite (a : Access) (s : State) := onChip (upperHalfWriteOp a) s
def execNowLowerRead (w : Who) (pps : Bool) (s : State) := onWrite w (nowLowerReadOp w pps) s

end Sys2Proof.Machine
end

