-- ==== Sys2Proof/Machine/Apply.lean ====
section
/-! DEFINITION. Sets that take effect at their boundaries (R83–R86, R96), and what follows when one does: the time source (R137, R856), the running mode (R46) and the
ingest windows (R605, R611). -/

namespace Sys2Proof.Machine

/-! ## What follows an applied set -/

/-- The source that a TMB_ set selects is another one than before: another mode, and in PTP mode another domain, or a slave port that no longer runs PTP. -/
def sourceChanged (old c : Chip) : Bool :=
  c.timeMode != old.timeMode ||
  (c.timeMode == 0 && (c.eff 76 0x10C 8 != old.eff 76 0x10C 8 || c.tmb.slave.any fun p => !bitAt (c.eff 76 0x108 4) p.val))

/-- A TMB_ set has taken effect (R137, R856, R105). -/
def Chip.afterTmb (old c : Chip) : Chip :=
  let changed := sourceChanged old c
  let label := c.timeMode == 1 && (old.timeMode != 1 || c.todNs != old.todNs)
  let t := c.tmb
  let c := { c with tmb := { t with
    measured := t.measured && !changed
    slave := if changed then none else t.slave
    todPending := t.todPending || label } }
  let c := if !c.timeValid then c
    else if c.timeMode = 2 then
      let c := c.setFollowing false
      let c := { c with tmb := { c.tmb with rate := toSigned 32 (c.eff 76 0x128 0) } }
      if c.tmb.state = .locked then c else c.enterTime .locked
    else if !c.tmb.measured ∧ !c.tmb.following ∧ c.tmb.state ≠ .holdover then c.enterTime .holdover
    else c
  c.checkMargin

/-- The windows that are valid in the effective set, ascending. -/
def Chip.validNow (c : Chip) : List Nat :=
  ((c.blk 81).effective.filter fun x => decide (8 * 0xB000 ≤ x.1) && decide (x.1 < 8 * 0xF000) && x.1 % 512 == 0 && x.2 == 1).map fun x => (x.1 / 8 - 0xB000) / 64

/-- The fields whose change restarts a window (R611): STREAM, VOLUME, SHAPE, FIRST_BYTE, REGION, PAYLOAD and GROUP. -/
def restartFields : List Nat := [2, 4, 5, 0x10, 0x18, 0x20, 0x24]

/-- A window starts at CURSOR_SET, and its next opening is reserved (R605, R611). -/
def Chip.restartWin (c : Chip) (x : Nat) : Chip :=
  let cur := c.winF x 0x38 0
  let c := c.modWin x fun w => { w with live := true, start := cur, next := cur, mark := none, done := [], markInfo := {}, lap := w.lap + 1 }
  c.reserve x (c.nextStart (c.winF x 1 0)).1

/-- An STM_ set has taken effect. -/
def Chip.afterStm (old c : Chip) : Chip :=
  let valid := c.validNow
  let was := old.validNow
  let gone := (c.wins.filter fun w => w.2.live && !valid.contains w.1).map (·.1)
  let c := gone.foldl (fun c x => c.modWin x fun w => { w with live := false, reserved := [] }) c
  valid.foldl (fun c x =>
    if !was.contains x || restartFields.any fun o => old.winF x o 0 != c.winF x o 0 then c.restartWin x else c) c

/-- What follows when the set of a block takes effect; `old` is the machine before. -/
def Chip.afterSet (old c : Chip) (r : Nat) : Chip :=
  match kindOf r with
  | .tmb => old.afterTmb c
  | .stm => old.afterStm c
  | .pwr => c.applyMode
  | .age => c.checkMargin
  | _ => c

/-! ## Boundaries (R85) -/

/-- Time passes to the next whole microsecond of schedule time. -/
def Chip.toMicrosecond (c : Chip) : Chip :=
  let n := (65536000 - c.tmb.now % 65536000) % 65536000
  { c with tmb := { c.tmb with now := c.tmb.now + n, up := c.tmb.up + n } }

/-- The block stands at its boundary. -/
def Chip.atBoundary (c : Chip) (r : Nat) : Bool :=
  match kindOf r with
  | .vlt => !c.vault.dumping && c.vault.erasing.isNone
  | .cfl => (c.cport false).seq == .locked && !(c.cport false).reading && (c.cport true).seq == .locked && !(c.cport true).reading
  | .ary => (c.eng (instOf r)).run.isNone
  | _ => true

/-- The set of one block takes effect where it is staged. -/
def Chip.applyOne (c : Chip) (r : Nat) : Chip :=
  if !(c.blk r).staged then c else c.afterSet (c.takeSet r) r

/-- A staged TRD_ set takes effect at its cycle start, unless an earlier cycle start of the running program comes first. -/
def Chip.applyTrd (c : Chip) (p : Nat) : Chip :=
  let (t, _) := c.nextStart p
  let (b, k) := c.boundary p
  if (c.port p).state = .running ∧ 0 < timeDiff b t then c else (c.passTo b).boundaryStart p b k

/-- SET_APPLY (R84, R85). A set held by a group commit waits for it. -/
def setApplyOp (r : Rec) (c : Chip) : Chip :=
  if r = 0 ∨ !(c.blk r).staged ∨ (c.blk r).groupHeld ∨ !c.atBoundary r then c
  else match kindOf r with
    | .trd => c.applyTrd (instOf r)
    | .tmb => c.toMicrosecond.applyOne r
    | _ => c.applyOne r

/-- The blocks that a group commit holds. -/
def Chip.heldBlocks (c : Chip) : List Nat := (c.blocks.filter fun b => b.2.groupHeld).map (·.1)

/-- GROUP_COMMIT_APPLY (R96): every held set takes effect at one instant. -/
def groupCommitApplyOp (c : Chip) : Chip :=
  if !c.group.busy then c
  else
    let rs := c.heldBlocks
    let c := if rs.contains 76 then c.toMicrosecond else c
    let old := c
    let c := rs.foldl (fun c r => if (c.blk r).staged then c.takeSet r else c) c
    let c := rs.foldl (fun c r => old.afterSet c r) c
    { c with group := { c.group with busy := false } }

/-! ## Meanings -/

def execSetApply (r : Rec) (s : State) := onChip (setApplyOp r) s
def execGroupCommitApply (s : State) := onChip groupCommitApplyOp s

end Sys2Proof.Machine
end

