-- ==== Sys2Proof/Machine/Dispatch.lean ====
section
/-! DEFINITION. One arm per command: the call of its meaning, or its rejection by name. -/

namespace Sys2Proof.Machine

/-- The effect of a command on everything but the queue of the commands that wait. -/
def exec (i : Instr) (s : State) : Host.Outcome State Fault Refusal :=
  match i with
  | .registerWrite a => Sys2Proof.Machine.execRegisterWrite a s
  | .rwsWrite a => Sys2Proof.Machine.execRwsWrite a s
  | .lowerHalfWrite a => Sys2Proof.Machine.execLowerHalfWrite a s
  | .upperHalfWrite a => Sys2Proof.Machine.execUpperHalfWrite a s
  | .nowLowerRead w pps => Sys2Proof.Machine.execNowLowerRead w pps s
  | .go w r useKey key => Sys2Proof.Machine.execGo w r useKey key s
  | .discard w r => Sys2Proof.Machine.execDiscard w r s
  | .commitChecksDone r => Sys2Proof.Machine.execCommitChecksDone r s
  | .setApply r => Sys2Proof.Machine.execSetApply r s
  | .groupCommitGo w => Sys2Proof.Machine.execGroupCommitGo w s
  | .groupCommitApply => Sys2Proof.Machine.execGroupCommitApply s
  | .clampLogClear w r => Sys2Proof.Machine.execClampLogClear w r s
  | .syncReceive p offset => Sys2Proof.Machine.execSyncReceive p offset s
  | .ppsInEdge => Sys2Proof.Machine.execPpsInEdge s
  | .freeMeasurement => Sys2Proof.Machine.execFreeMeasurement s
  | .sourceLost => Sys2Proof.Machine.execSourceLost s
  | .timeReepoch w => Sys2Proof.Machine.execTimeReepoch w s
  | .ppsOutRise => Sys2Proof.Machine.execPpsOutRise s
  | .ppsOutFall => Sys2Proof.Machine.execPpsOutFall s
  | .ptpMessageSend p => Sys2Proof.Machine.execPtpMessageSend p s
  | .wholeSecond => Sys2Proof.Machine.execWholeSecond s
  | .add e d a b => Sys2Proof.Machine.execAdd e d a b s
  | .sub e d a b => Sys2Proof.Machine.execSub e d a b s
  | .and e d a b => Sys2Proof.Machine.execAnd e d a b s
  | .or e d a b => Sys2Proof.Machine.execOr e d a b s
  | .xor e d a b => Sys2Proof.Machine.execXor e d a b s
  | .shl e d a b => Sys2Proof.Machine.execShl e d a b s
  | .shr e d a b => Sys2Proof.Machine.execShr e d a b s
  | .sar e d a b => Sys2Proof.Machine.execSar e d a b s
  | .mul e d a b => Sys2Proof.Machine.execMul e d a b s
  | .mulhu e d a b => Sys2Proof.Machine.execMulhu e d a b s
  | .minu e d a b => Sys2Proof.Machine.execMinu e d a b s
  | .maxu e d a b => Sys2Proof.Machine.execMaxu e d a b s
  | .divu e d a b => Sys2Proof.Machine.execDivu e d a b s
  | .remu e d a b => Sys2Proof.Machine.execRemu e d a b s
  | .sel e d a b p => Sys2Proof.Machine.execSel e d a b p s
  | .eq e d a b => Sys2Proof.Machine.execEq e d a b s
  | .ne e d a b => Sys2Proof.Machine.execNe e d a b s
  | .ltu e d a b => Sys2Proof.Machine.execLtu e d a b s
  | .lt e d a b => Sys2Proof.Machine.execLt e d a b s
  | .geu e d a b => Sys2Proof.Machine.execGeu e d a b s
  | .ge e d a b => Sys2Proof.Machine.execGe e d a b s
  | .tlt e d a b => Sys2Proof.Machine.execTlt e d a b s
  | .pand e d a b => Sys2Proof.Machine.execPand e d a b s
  | .por e d a b => Sys2Proof.Machine.execPor e d a b s
  | .pnot e d a b => Sys2Proof.Machine.execPnot e d a b s
  | .addi e d a imm => Sys2Proof.Machine.execAddi e d a imm s
  | .andi e d a imm => Sys2Proof.Machine.execAndi e d a imm s
  | .ori e d a imm => Sys2Proof.Machine.execOri e d a imm s
  | .xori e d a imm => Sys2Proof.Machine.execXori e d a imm s
  | .shli e d a imm => Sys2Proof.Machine.execShli e d a imm s
  | .shri e d a imm => Sys2Proof.Machine.execShri e d a imm s
  | .sari e d a imm => Sys2Proof.Machine.execSari e d a imm s
  | .movi e d a imm => Sys2Proof.Machine.execMovi e d a imm s
  | .movk e d a imm => Sys2Proof.Machine.execMovk e d a imm s
  | .ld e d a sz off => Sys2Proof.Machine.execLd e d a sz off s
  | .st e d a sz off => Sys2Proof.Machine.execSt e d a sz off s
  | .sload e d a sp off => Sys2Proof.Machine.execSload e d a sp off s
  | .sstore e d a sp off => Sys2Proof.Machine.execSstore e d a sp off s
  | .brp e sense p off => Sys2Proof.Machine.execBrp e sense p off s
  | .loop e c bound len => Sys2Proof.Machine.execLoop e c bound len s
  | .pxor e vd va vb g => Sys2Proof.Machine.execPxor e vd va vb g s
  | .vzero e vd va vb g => Sys2Proof.Machine.execVzero e vd va vb g s
  | .vmov e vd va vb g => Sys2Proof.Machine.execVmov e vd va vb g s
  | .gfmul e vd va vb g => Sys2Proof.Machine.execGfmul e vd va vb g s
  | .gfmac e vd va vb g => Sys2Proof.Machine.execGfmac e vd va vb g s
  | .synd e vd va vb g => Sys2Proof.Machine.execSynd e vd va vb g s
  | .vext e vd va vb g => Sys2Proof.Machine.execVext e vd va vb g s
  | .vins e vd va vb g => Sys2Proof.Machine.execVins e vd va vb g s
  | .vbcast e vd va vb g => Sys2Proof.Machine.execVbcast e vd va vb g s
  | .gfmuls e d a b => Sys2Proof.Machine.execGfmuls e d a b s
  | .gfinv e d a b => Sys2Proof.Machine.execGfinv e d a b s
  | .gfexp e d a b => Sys2Proof.Machine.execGfexp e d a b s
  | .gflog e d a b => Sys2Proof.Machine.execGflog e d a b s
  | .syndb e d a b c mode ssp dsp => Sys2Proof.Machine.execSyndb e d a b c mode ssp dsp s
  | .shut e d a b => Sys2Proof.Machine.execShut e d a b s
  | .take e d a b => Sys2Proof.Machine.execTake e d a b s
  | .jrnl e d a b => Sys2Proof.Machine.execJrnl e d a b s
  | .mirr e d a b => Sys2Proof.Machine.execMirr e d a b s
  | .land e d a lim => Sys2Proof.Machine.execLand e d a lim s
  | .landLimit e => Sys2Proof.Machine.execLandLimit e s
  | .cmpl e d a b => Sys2Proof.Machine.execCmpl e d a b s
  | .waite e d line lim => Sys2Proof.Machine.execWaite e d line lim s
  | .waiteLimit e => Sys2Proof.Machine.execWaiteLimit e s
  | .waitt e d a lim => Sys2Proof.Machine.execWaitt e d a lim s
  | .waittOnTime e => Sys2Proof.Machine.execWaittOnTime e s
  | .waittLimit e => Sys2Proof.Machine.execWaittLimit e s
  | .sig e imm => Sys2Proof.Machine.execSig e imm s
  | .snapt e imm => Sys2Proof.Machine.execSnapt e imm s
  | .gate e imm => Sys2Proof.Machine.execGate e imm s
  | .hold e imm => Sys2Proof.Machine.execHold e imm s
  | .wake e imm => Sys2Proof.Machine.execWake e imm s
  | .pend e d line => Sys2Proof.Machine.execPend e d line s
  | .clre e d line => Sys2Proof.Machine.execClre e d line s
  | .rdt e d a b => Sys2Proof.Machine.execRdt e d a b s
  | .csrr e d a b => Sys2Proof.Machine.execCsrr e d a b s
  | .endP e imm => Sys2Proof.Machine.execEndP e imm s
  | .faultP e imm => Sys2Proof.Machine.execFaultP e imm s
  | .nop e imm => Sys2Proof.Machine.execNop e imm s
  | .anchoredAction e devNs => Sys2Proof.Machine.execAnchoredAction e devNs s
  | .eventPulseArrive => Sys2Proof.Machine.execEventPulseArrive s
  | .itemDispatch e => Sys2Proof.Machine.execItemDispatch e s
  | .wcetExceeded e => Sys2Proof.Machine.execWcetExceeded e s
  | .ticketLocalComplete e t => Sys2Proof.Machine.execTicketLocalComplete e t s
  | .progLoad f ix => Sys2Proof.Machine.execProgLoad f ix s
  | .progUnload f ix => Sys2Proof.Machine.execProgUnload f ix s
  | .ownerKeySet f ix => Sys2Proof.Machine.execOwnerKeySet f ix s
  | .ownerKeyRevoke f ix => Sys2Proof.Machine.execOwnerKeyRevoke f ix s
  | .oldImageRetire e k => Sys2Proof.Machine.execOldImageRetire e k s
  | .configRequest port => Sys2Proof.Machine.execConfigRequest port s
  | .wqTail f g value => Sys2Proof.Machine.execWqTail f g value s
  | .wqInval f g value => Sys2Proof.Machine.execWqInval f g value s
  | .entryFetch f g r => Sys2Proof.Machine.execEntryFetch f g r s
  | .entryAdmit f g => Sys2Proof.Machine.execEntryAdmit f g s
  | .entryComplete f g => Sys2Proof.Machine.execEntryComplete f g s
  | .shadowWrite f g => Sys2Proof.Machine.execShadowWrite f g s
  | .msixMessage f vector => Sys2Proof.Machine.execMsixMessage f vector s
  | .createIoq f ix => Sys2Proof.Machine.execCreateIoq f ix s
  | .deleteIoq f ix => Sys2Proof.Machine.execDeleteIoq f ix s
  | .setEventRing f ix => Sys2Proof.Machine.execSetEventRing f ix s
  | .adminQueueEnable f value => Sys2Proof.Machine.execAdminQueueEnable f value s
  | .eventPost => Sys2Proof.Machine.execEventPost s
  | .wqEvtHead f value => Sys2Proof.Machine.execWqEvtHead f value s
  | .functionLevelReset f => Sys2Proof.Machine.execFunctionLevelReset f s
  | .flrComplete f => Sys2Proof.Machine.execFlrComplete f s
  | .abort f ix => Sys2Proof.Machine.execAbort f ix s
  | .identify f ix => Sys2Proof.Machine.execIdentify f ix s
  | .getLog f ix => Sys2Proof.Machine.execGetLog f ix s
  | .hostDataFetch f g ix r => Sys2Proof.Machine.execHostDataFetch f g ix r s
  | .descriptorComplete c hostData => Sys2Proof.Machine.execDescriptorComplete c hostData s
  | .pause w c => Sys2Proof.Machine.execPause w c s
  | .resume w c => Sys2Proof.Machine.execResume w c s
  | .stop w c => Sys2Proof.Machine.execStop w c s
  | .cut w c => Sys2Proof.Machine.execCut w c s
  | .clear w c => Sys2Proof.Machine.execClear w c s
  | .shuttleReadError c cause addr => Sys2Proof.Machine.execShuttleReadError c cause addr s
  | .hostReadTimeout c addr => Sys2Proof.Machine.execHostReadTimeout c addr s
  | .read f g ix => Sys2Proof.Machine.execRead f g ix s
  | .write f g ix => Sys2Proof.Machine.execWrite f g ix s
  | .stripe2Write e l => Sys2Proof.Machine.execStripe2Write e l s
  | .stripe2Read e => Sys2Proof.Machine.execStripe2Read e s
  | .stripe2Destage e l => Sys2Proof.Machine.execStripe2Destage e l s
  | .stripe2Reconstruct e l => Sys2Proof.Machine.execStripe2Reconstruct e l s
  | .memberCommandComplete m e c r => Sys2Proof.Machine.execMemberCommandComplete m e c r s
  | .memberCommandTimeout m => Sys2Proof.Machine.execMemberCommandTimeout m s
  | .memberFatalStatus m => Sys2Proof.Machine.execMemberFatalStatus m s
  | .memberLinkUp m rate width => Sys2Proof.Machine.execMemberLinkUp m rate width s
  | .memberLinkDown m => Sys2Proof.Machine.execMemberLinkDown m s
  | .memberAttach m info => Sys2Proof.Machine.execMemberAttach m info s
  | .smartPoll m pctUsed critWarn log => Sys2Proof.Machine.execSmartPoll m pctUsed critWarn log s
  | .memberSanitizeDone m => Sys2Proof.Machine.execMemberSanitizeDone m s
  | .reservationPreemptDone m => Sys2Proof.Machine.execReservationPreemptDone m s
  | .retirementCopyDone a pos => Sys2Proof.Machine.execRetirementCopyDone a pos s
  | .createArray f ix => Sys2Proof.Machine.execCreateArray f ix s
  | .deleteArray f ix => Sys2Proof.Machine.execDeleteArray f ix s
  | .createVolume f ix => Sys2Proof.Machine.execCreateVolume f ix s
  | .deleteVolume f ix => Sys2Proof.Machine.execDeleteVolume f ix s
  | .volumeGrant f ix => Sys2Proof.Machine.execVolumeGrant f ix s
  | .memberTrust f ix => Sys2Proof.Machine.execMemberTrust f ix s
  | .retireMember f ix => Sys2Proof.Machine.execRetireMember f ix s
  | .detachMember f ix => Sys2Proof.Machine.execDetachMember f ix s
  | .formatVolume f ix => Sys2Proof.Machine.execFormatVolume f ix s
  | .sanitize f ix => Sys2Proof.Machine.execSanitize f ix s
  | .replaceMember f ix => Sys2Proof.Machine.execReplaceMember f ix s
  | .scrubNow f ix => Sys2Proof.Machine.execScrubNow f ix s
  | .reshape f ix => Sys2Proof.Machine.execReshape f ix s
  | .destageIssue b => Sys2Proof.Machine.execDestageIssue b s
  | .planChange => Sys2Proof.Machine.execPlanChange s
  | .pwrFailAssert => Sys2Proof.Machine.execPwrFailAssert s
  | .vaultDumpEnd => Sys2Proof.Machine.execVaultDumpEnd s
  | .pwrFailDeassert => Sys2Proof.Machine.execPwrFailDeassert s
  | .vaultEraseDone => Sys2Proof.Machine.execVaultEraseDone s
  | .startRecovery a facts => Sys2Proof.Machine.execStartRecovery a facts s
  | .spillCopy a => Sys2Proof.Machine.execSpillCopy a s
  | .repairAdmit a => Sys2Proof.Machine.execRepairAdmit a s
  | .repairStarved a => Sys2Proof.Machine.execRepairStarved a s
  | .rebuild e l => Sys2Proof.Machine.execRebuild e l s
  | .scrub e l => Sys2Proof.Machine.execScrub e l s
  | .scrubPassStart a => Sys2Proof.Machine.execScrubPassStart a s
  | .reshapeStep a => Sys2Proof.Machine.execReshapeStep a s
  | .repairReshape e l => Sys2Proof.Machine.execRepairReshape e l s
  | .landFrame e l => Sys2Proof.Machine.execLandFrame e l s
  | .triggered e => Sys2Proof.Machine.execTriggered e s
  | .tgclCycle p => Sys2Proof.Machine.execTgclCycle p s
  | .cycleStart p => Sys2Proof.Machine.execCycleStart p s
  | .portLinkUp p => Sys2Proof.Machine.execPortLinkUp p s
  | .portLinkDown p => Sys2Proof.Machine.execPortLinkDown p s
  | .mmVerifyResult p ok => Sys2Proof.Machine.execMmVerifyResult p ok s
  | .frameReceive fr => Sys2Proof.Machine.execFrameReceive fr s
  | .frerHoldExpire => Sys2Proof.Machine.execFrerHoldExpire s
  | .frerResetTimeout h => Sys2Proof.Machine.execFrerResetTimeout h s
  | .windowClose x => Sys2Proof.Machine.execWindowClose x s
  | .frameTransmitStart p => Sys2Proof.Machine.execFrameTransmitStart p s
  | .rmaPacketReceive pk => Sys2Proof.Machine.execRmaPacketReceive pk s
  | .contextFetchDone qpn => Sys2Proof.Machine.execContextFetchDone qpn s
  | .messageAnswer qpn => Sys2Proof.Machine.execMessageAnswer qpn s
  | .rmaResponseReceive qpn r => Sys2Proof.Machine.execRmaResponseReceive qpn r s
  | .rcRetryTimeout qpn => Sys2Proof.Machine.execRcRetryTimeout qpn s
  | .qpCreate f ix => Sys2Proof.Machine.execQpCreate f ix s
  | .qpConnect f ix => Sys2Proof.Machine.execQpConnect f ix s
  | .qpDestroy f ix => Sys2Proof.Machine.execQpDestroy f ix s
  | .qpQuery f ix => Sys2Proof.Machine.execQpQuery f ix s
  | .keyInstall f ix => Sys2Proof.Machine.execKeyInstall f ix s
  | .winRegister f ix => Sys2Proof.Machine.execWinRegister f ix s
  | .winRevoke f ix => Sys2Proof.Machine.execWinRevoke f ix s
  | .winRevokeDrain index => Sys2Proof.Machine.execWinRevokeDrain index s
  | .ctxHostArea f ix => Sys2Proof.Machine.execCtxHostArea f ix s
  | .twrPost f ix => Sys2Proof.Machine.execTwrPost f ix s
  | .twrCancel f ix => Sys2Proof.Machine.execTwrCancel f ix s
  | .heartbeatSend path => Sys2Proof.Machine.execHeartbeatSend path s
  | .heartbeat path hb => Sys2Proof.Machine.execHeartbeat path hb s
  | .pathDown path => Sys2Proof.Machine.execPathDown path s
  | .pathDegradedClear path => Sys2Proof.Machine.execPathDegradedClear path s
  | .leaseExpire => Sys2Proof.Machine.execLeaseExpire s
  | .takeover => Sys2Proof.Machine.execTakeover s
  | .reclaim silent lossOfSignal => Sys2Proof.Machine.execReclaim silent lossOfSignal s
  | .announceSend => Sys2Proof.Machine.execAnnounceSend s
  | .couplerSend => Sys2Proof.Machine.execCouplerSend s
  | .confirm e t => Sys2Proof.Machine.execConfirm e t s
  | .handover next => Sys2Proof.Machine.execHandover next s
  | .timeSend => Sys2Proof.Machine.execTimeSend s
  | .time t1 t2 t4 => Sys2Proof.Machine.execTime t1 t2 t4 s
  | .mirror off bytes e t => Sys2Proof.Machine.execMirror off bytes e t s
  | .journal off bytes e t => Sys2Proof.Machine.execJournal off bytes e t s
  | .state m => Sys2Proof.Machine.execState m s
  | .copy off bytes => Sys2Proof.Machine.execCopy off bytes s
  | .credit n => Sys2Proof.Machine.execCredit n s
  | .copyComplete => Sys2Proof.Machine.execCopyComplete s
  | .proofCycle failStep => Sys2Proof.Machine.execProofCycle failStep s
  | .plannedHandover w => Sys2Proof.Machine.execPlannedHandover w s
  | .handoverDrainDone => Sys2Proof.Machine.execHandoverDrainDone s
  | .handoverInstant => Sys2Proof.Machine.execHandoverInstant s
  | .electWaitExpire => Sys2Proof.Machine.execElectWaitExpire s
  | .forceAlone w => Sys2Proof.Machine.execForceAlone w s
  | .statusW1C w r value => Sys2Proof.Machine.execStatusW1C w r value s
  | .handleTimeout r => Sys2Proof.Machine.execHandleTimeout r s
  | .errOutTest w => Sys2Proof.Machine.execErrOutTest w s
  | .errOutHoldEnd => Sys2Proof.Machine.execErrOutHoldEnd s
  | .configScrub upset => Sys2Proof.Machine.execConfigScrub upset s
  | .audit => Sys2Proof.Machine.execAudit s
  | .aloneSelfProof failStep => Sys2Proof.Machine.execAloneSelfProof failStep s
  | .blockResetDone r => Sys2Proof.Machine.execBlockResetDone r s
  | .supplyExcursion => Sys2Proof.Machine.execSupplyExcursion s
  | .clockFault c t => Sys2Proof.Machine.execClockFault c t s
  | .overTemperature => Sys2Proof.Machine.execOverTemperature s
  | .slackSample slackPs => Sys2Proof.Machine.execSlackSample slackPs s
  | .thermalIntegrate tjC => Sys2Proof.Machine.execThermalIntegrate tjC s
  | .lifeSave => Sys2Proof.Machine.execLifeSave s
  | .xtalReset w => Sys2Proof.Machine.execXtalReset w s
  | .hupNow w => Sys2Proof.Machine.execHupNow w s
  | .hupTestStart v0 => Sys2Proof.Machine.execHupTestStart v0 s
  | .hupTestEnd v1 => Sys2Proof.Machine.execHupTestEnd v1 s
  | .snapIn => Sys2Proof.Machine.execSnapIn s
  | .fire w => Sys2Proof.Machine.execFire w s
  | .snapPeriod => Sys2Proof.Machine.execSnapPeriod s
  | .snapTrigger => Sys2Proof.Machine.execSnapTrigger s
  | .snapOutEnd => Sys2Proof.Machine.execSnapOutEnd s
  | .freeze w => Sys2Proof.Machine.execFreeze w s
  | .unfreeze w => Sys2Proof.Machine.execUnfreeze w s
  | .evrClear w => Sys2Proof.Machine.execEvrClear w s
  | .mark w => Sys2Proof.Machine.execMark w s
  | .cflKey w port value => Sys2Proof.Machine.execCflKey w port value s
  | .cflRead w port addr bitErrors => Sys2Proof.Machine.execCflRead w port addr bitErrors s
  | .program w port d15 => Sys2Proof.Machine.execProgram w port d15 s
  | .erase w port addr => Sys2Proof.Machine.execErase w port addr s
  | .eraseSuspend w port => Sys2Proof.Machine.execEraseSuspend w port s
  | .eraseResume w port => Sys2Proof.Machine.execEraseResume w port s
  | .cflData w port idx value => Sys2Proof.Machine.execCflData w port idx value s
  | .sequenceTimeout port => Sys2Proof.Machine.execSequenceTimeout port s
  | .programComplete bank => Sys2Proof.Machine.execProgramComplete bank s
  | .eraseComplete bank => Sys2Proof.Machine.execEraseComplete bank s
  | .suspendReached bank => Sys2Proof.Machine.execSuspendReached bank s
  | .xoLock w r => Sys2Proof.Machine.execXoLock w r s
  | .stage1Start => Sys2Proof.Machine.execStage1Start s
  | .stage2Start => Sys2Proof.Machine.execStage2Start s
  | .fwConfirm w => Sys2Proof.Machine.execFwConfirm w s
  | .attGo w => Sys2Proof.Machine.execAttGo w s
  | .attestDone => Sys2Proof.Machine.execAttestDone s
  | .extend6 w => Sys2Proof.Machine.execExtend6 w s
  | .extend7 w => Sys2Proof.Machine.execExtend7 w s
  | .secFloorWrite w value => Sys2Proof.Machine.execSecFloorWrite w value s
  | .jtagChipReset => Sys2Proof.Machine.execJtagChipReset s
  | .siding w => Sys2Proof.Machine.execSiding w s
  | .sidingReached => Sys2Proof.Machine.execSidingReached s
  | .sidingWake src => Sys2Proof.Machine.execSidingWake src s
  | .sidingExitDone sidingNs => Sys2Proof.Machine.execSidingExitDone sidingNs s
  | .aonCmpArm w n value => Sys2Proof.Machine.execAonCmpArm w n value s
  | .comparatorMatch n => Sys2Proof.Machine.execComparatorMatch n s
  | .wakeInEdge pin widthNs => Sys2Proof.Machine.execWakeInEdge pin widthNs s
  | .unitAwake u => Sys2Proof.Machine.execUnitAwake u s
  | .unitGate u => Sys2Proof.Machine.execUnitGate u s
  | .modeEffective => Sys2Proof.Machine.execModeEffective s
  | .calStep p => Sys2Proof.Machine.execCalStep p s
  | .calStarved p => Sys2Proof.Machine.execCalStarved p s
  | .powerOnReset unitId pref => Sys2Proof.Machine.execPowerOnReset unitId pref s
  | .chipReset w => Sys2Proof.Machine.execChipReset w s
  | .perstAssert port => Sys2Proof.Machine.execPerstAssert port s
  | .memberGroupTrain g => Sys2Proof.Machine.execMemberGroupTrain g s
  | .vidFrame => Sys2Proof.Machine.execVidFrame s
  | .junctionTemperature100C => Sys2Proof.Machine.execJunctionTemperature100C s
  | .railsRemoved => Sys2Proof.Machine.execRailsRemoved s
  | .perstDeassert port => Sys2Proof.Machine.execPerstDeassert port s
  | .couplerTrained credits => Sys2Proof.Machine.execCouplerTrained credits s
  | .guardSelfTest => Sys2Proof.Machine.execGuardSelfTest s
  | .eccUncorr r => Sys2Proof.Machine.execEccUncorr r s
  | .checkerMismatch r => Sys2Proof.Machine.execCheckerMismatch r s

end Sys2Proof.Machine
end

