-- ==== Sys2Proof/Machine/Step.lean ====
section
/-! DEFINITION. One step: the command at the front of the queue runs on the machine with the queue's rest; with no command waiting, time passes. -/

namespace Sys2Proof.Machine

/-- One step. On an empty queue the block idles for one tick of the 800 MHz system clock (log entry 2). -/
def step (s : State) : Host.Outcome State Fault Refusal :=
  match s.pending with
  | [] => .next { s with chip := tickOp s.chip }
  | i :: r => exec i { s with pending := r }

/-- The command that a word spells goes to the front of the queue. No row of the table gives bits, so no word spells one. -/
def State.withFetchWord (s : State) (nbits w : Nat) : State :=
  match decodeTableWord nbits w with
  | some i => { s with pending := i :: s.pending }
  | none => s

end Sys2Proof.Machine
end

