-- ==== Sys2Proof/Safety.lean ====
section
/-! DEFINITION. The words that statements about the machine use: when an instruction runs without a fault of its own, what its retirement leaves, and the
canonical form of every memory. -/

namespace Sys2Proof.Machine

/-- The machine with its chip replaced and the waiting commands as they were. -/
def State.put (s : State) (c : Chip) : State := { s with chip := c }

/-- Instruction `i` stands at the PC of engine `e`, which runs program `r` and executes; no fault is pending, the PC is inside the code and the word decodes
(R153, R154, R164, R356). -/
abbrev Chip.ready (c : Chip) (e : Eng) (r : Run) (i : Instr) : Prop :=
  (c.eng e).run = some r ∧ c.executes e = true ∧ (c.eng e).haltPending = false ∧ (c.eng e).pc < r.image.codeWords ∧
    r.holds (c.eng e).pc i = true ∧ i.wf = true

/-- Engine `e` takes its registers from `f`, has no anchored run open, and goes on to its next word; everything else stays. -/
def State.retire (s : State) (e : Eng) (f : Engine → Engine) : State :=
  s.put (s.chip.setEng e (f { s.chip.eng e with anchor := none }).advance)

/-- An instruction of engine `e` that writes gd, and nothing else. -/
def State.wroteG (s : State) (e : Eng) (d : BitVec 5) (v : W64) : State := s.retire e fun x => x.setG d.toNat v

/-- An instruction of engine `e` that writes predicate `d`, and nothing else. -/
def State.wroteP (s : State) (e : Eng) (d : BitVec 5) (v : Bool) : State := s.retire e fun x => x.setP (d.toNat % 8) v

/-- An instruction of engine `e` that writes wd, and nothing else. -/
def State.wroteW (s : State) (e : Eng) (d : BitVec 4) (v : Vec) : State := s.retire e fun x => x.setW d.toNat v

/-- The machine with the anchored run of engine `e` closed. -/
def Chip.closed (c : Chip) (e : Eng) : Chip := c.setEng e { c.eng e with anchor := none }

/-- The machine once the word at the PC of engine `e` has retired, with an anchored run left open. -/
def Chip.advanced (c : Chip) (e : Eng) : Chip := c.setEng e (c.eng e).advance

/-- Engine `e` faults at instruction `i` with a fault code and a soft code (R227). -/
def State.faults (s : State) (e : Eng) (i : Instr) (code soft : Nat) : State :=
  s.put (s.chip.engineFault e code soft (match encodeLx i with | some w => w.toNat | none => 0))

/-- Engine `e` begins to wait; its anchored run is closed. -/
def State.waits (s : State) (e : Eng) (w : Wait) : State :=
  s.put (s.chip.setEng e { s.chip.eng e with anchor := none, wait := some w })

/-- One byte of LM of an engine. -/
def Engine.lmByte (x : Engine) (a : Nat) : Byte := mget zeros x.lm a

/-- Every memory of the machine is in canonical form. -/
def Chip.memWf (c : Chip) : Bool :=
  Memory.wf zeros c.stg && Memory.wf hbmInit c.hbm && Memory.wf zeros c.pkt && Memory.wf flashInit c.cfl.flash &&
    c.engines.all (fun e => Memory.wf zeros e.2.lm) && c.members.all fun m => Memory.wf zeros m.2.media

/-- Every command that waits is one that the table's fields allow (R153, R154). -/
def State.queueWf (s : State) : Bool := s.pending.all Instr.wf

/-- Admitted entry `a` stands in ring slot `ix` of queue `g` of function `f`, holds opcode `op`, and neither runs nor has ended (R295). -/
abbrev Chip.entryAt (c : Chip) (f : Fn) (g : Grp) (ix : BitVec 16) (op : Nat) (a : Adm) : Prop :=
  c.adm f g ix.toNat = some a ∧ a.status = none ∧ a.begun = false ∧ eOpcode a.entry = op

/-- The machine with the entry at place `a` of the admin queue of function `f` ended with ST_OK. -/
def Chip.done (c : Chip) (f : Fn) (a : Adm) : Chip := c.finish f 0 a.pos stOk 0

end Sys2Proof.Machine
end

