-- ==== Sys2Proof/Certificates/Slice0/Obligations.lean ====
section
/-! DEFINITION. The statements for the provers. A clause about a command names, in its hypotheses, the machine and the operands on which the command has its
own effect, and says what that effect is and what it leaves alone. -/

open Sys2Proof Sys2Proof.Machine

/-! ## The block: its queue, its step, its reset -/

/-- Step takes the command at the front of the queue and runs it on the machine with the queue's rest. -/
def Obligations.StepRunsTheFrontCommand : Prop :=
  ∀ (s : State) (i : Instr), step { s with pending := i :: s.pending } = exec i s

/-- With no command waiting, a step lets one tick pass (log entry 2, the model's choice): 1.25 ns of elapsed time while the fast clocks run, one cycle of the
32.768 kHz clock in SIDING, and nothing in OFF. Nothing but the time base and the always-on copy of schedule time changes. -/
def Obligations.StepIdles : Prop :=
  ∀ s : State, s.pending = [] →
    ((s.chip.pwr.state = .off → step s = .next s) ∧
     (s.chip.pwr.state = .siding → step s = .next (s.put { s.chip with
        aon := { s.chip.aon with copy := s.chip.aon.copy + 2000000000 }
        tmb := { s.chip.tmb with up := s.chip.tmb.up + 2000000000 } })) ∧
     (s.chip.clocked = true → ∃ t : Tmb, step s = .next (s.put { s.chip with tmb := t }) ∧ t.up = s.chip.tmb.up + 81920 ∧
        (s.chip.tmb.rate = 0 → t.now = s.chip.tmb.now + 81920)))

/-- Every command of the table, on every state and whatever its operands, ends in a next state, and leaves the waiting commands as they are. -/
def Obligations.EveryCommandCompletes : Prop :=
  ∀ (i : Instr) (s : State), ∃ t : State, exec i s = .next t ∧ t.pending = s.pending

/-- The queue holds decodable commands only, and every step keeps that. -/
def Obligations.QueueStaysWellFormed : Prop :=
  ∀ s t : State, s.queueWf = true → step s = .next t → t.queueWf = true

/-- Right after reset the queue is empty and well-formed, every memory is in canonical form, and no engine runs a program. -/
def Obligations.ResetIsCanonical : Prop :=
  State.reset.pending = [] ∧ State.reset.queueWf = true ∧ State.reset.chip.memWf = true ∧
    ∀ e : Eng, (State.reset.chip.eng e).run = none

/-! ## Lanibex -/

/-- Decoding gives back every Lanibex instruction that was encoded: no field of its word is lost (04, "Encoding formats"). -/
def Obligations.LanibexDecodeOfEncode : Prop :=
  ∀ (i : Instr) (w : W32), encodeLx i = some w → i.wf = true → ∃ e : Eng, decodeLx e w = some i

/-- R157: the ALU group. gd takes the table's result, the engine goes on to its next word, and nothing else of the machine changes. R159: the immediate
instructions, and the field values they forbid. What an instruction that writes gd leaves: g0 still reads 0, gd reads the value unless it is g0, and every
other register, the machine outside the engine, and the waiting commands are as they were. -/
def Obligations.IntegerArithmetic : Prop :=
  (
  ∀ (s : State) (e : Eng) (r : Run) (d a b : BitVec 5) (p : BitVec 3),
    let A := (s.chip.eng e).getG a.toNat
    let B := (s.chip.eng e).getG b.toNat
    let sh := B.toNat % 64
    (s.chip.ready e r (.add e d a b) → exec (.add e d a b) s = .next (s.wroteG e d (A + B))) ∧
    (s.chip.ready e r (.sub e d a b) → exec (.sub e d a b) s = .next (s.wroteG e d (A - B))) ∧
    (s.chip.ready e r (.and e d a b) → exec (.and e d a b) s = .next (s.wroteG e d (A &&& B))) ∧
    (s.chip.ready e r (.or e d a b) → exec (.or e d a b) s = .next (s.wroteG e d (A ||| B))) ∧
    (s.chip.ready e r (.xor e d a b) → exec (.xor e d a b) s = .next (s.wroteG e d (A ^^^ B))) ∧
    (s.chip.ready e r (.shl e d a b) → exec (.shl e d a b) s = .next (s.wroteG e d (BitVec.ofNat 64 (A.toNat * 2 ^ sh)))) ∧
    (s.chip.ready e r (.shr e d a b) → exec (.shr e d a b) s = .next (s.wroteG e d (BitVec.ofNat 64 (A.toNat / 2 ^ sh)))) ∧
    (s.chip.ready e r (.sar e d a b) → exec (.sar e d a b) s = .next (s.wroteG e d (BitVec.ofInt 64 (A.toInt / 2 ^ sh)))) ∧
    (s.chip.ready e r (.mul e d a b) → exec (.mul e d a b) s = .next (s.wroteG e d (BitVec.ofNat 64 (A.toNat * B.toNat)))) ∧
    (s.chip.ready e r (.mulhu e d a b) → exec (.mulhu e d a b) s = .next (s.wroteG e d (BitVec.ofNat 64 (A.toNat * B.toNat / 2 ^ 64)))) ∧
    (s.chip.ready e r (.minu e d a b) → exec (.minu e d a b) s = .next (s.wroteG e d (BitVec.ofNat 64 (min A.toNat B.toNat)))) ∧
    (s.chip.ready e r (.maxu e d a b) → exec (.maxu e d a b) s = .next (s.wroteG e d (BitVec.ofNat 64 (max A.toNat B.toNat)))) ∧
    (s.chip.ready e r (.divu e d a b) → exec (.divu e d a b) s =
      .next (s.wroteG e d (if B = 0 then 0xFFFFFFFFFFFFFFFF else BitVec.ofNat 64 (A.toNat / B.toNat)))) ∧
    (s.chip.ready e r (.remu e d a b) → exec (.remu e d a b) s = .next (s.wroteG e d (BitVec.ofNat 64 (A.toNat % B.toNat)))) ∧
    (s.chip.ready e r (.sel e d a b p) → exec (.sel e d a b p) s =
      .next (s.wroteG e d (if (s.chip.eng e).getP p.toNat then A else B)))) ∧
  (
  ∀ (s : State) (e : Eng) (r : Run) (d a : BitVec 5) (imm : BitVec 16),
    let A := (s.chip.eng e).getG a.toNat
    let old := (s.chip.eng e).getG d.toNat
    (s.chip.ready e r (.addi e d a imm) → exec (.addi e d a imm) s = .next (s.wroteG e d (A + imm.signExtend 64))) ∧
    (s.chip.ready e r (.andi e d a imm) → exec (.andi e d a imm) s = .next (s.wroteG e d (A &&& imm.zeroExtend 64))) ∧
    (s.chip.ready e r (.ori e d a imm) → exec (.ori e d a imm) s = .next (s.wroteG e d (A ||| imm.zeroExtend 64))) ∧
    (s.chip.ready e r (.xori e d a imm) → exec (.xori e d a imm) s = .next (s.wroteG e d (A ^^^ imm.zeroExtend 64))) ∧
    (s.chip.ready e r (.shli e d a imm) → exec (.shli e d a imm) s = .next (s.wroteG e d (BitVec.ofNat 64 (A.toNat * 2 ^ imm.toNat)))) ∧
    (s.chip.ready e r (.shri e d a imm) → exec (.shri e d a imm) s = .next (s.wroteG e d (BitVec.ofNat 64 (A.toNat / 2 ^ imm.toNat)))) ∧
    (s.chip.ready e r (.sari e d a imm) → exec (.sari e d a imm) s = .next (s.wroteG e d (BitVec.ofInt 64 (A.toInt / 2 ^ imm.toNat)))) ∧
    (s.chip.ready e r (.movi e d a imm) → exec (.movi e d a imm) s = .next (s.wroteG e d (imm.signExtend 64))) ∧
    (s.chip.ready e r (.movk e d a imm) → ∃ v : W64, exec (.movk e d a imm) s = .next (s.wroteG e d v) ∧
      ∀ i, i < 64 → v.getLsbD i = if i / 16 = a.toNat then imm.getLsbD (i % 16) else old.getLsbD i) ∧
    (64 ≤ imm.toNat → (Instr.shli e d a imm).wf = false ∧ (Instr.shri e d a imm).wf = false ∧ (Instr.sari e d a imm).wf = false) ∧
    (a ≠ 0 → (Instr.movi e d a imm).wf = false) ∧ (4 ≤ a.toNat → (Instr.movk e d a imm).wf = false)) ∧
  (
  ∀ (s : State) (e : Eng) (d : BitVec 5) (v : W64),
    let t := s.wroteG e d v
    (t.chip.eng e).getG 0 = 0 ∧ (d ≠ 0 → (t.chip.eng e).getG d.toNat = v) ∧
    (∀ k, k ≠ d.toNat → (t.chip.eng e).getG k = (s.chip.eng e).getG k) ∧
    (∀ k, (t.chip.eng e).getW k = (s.chip.eng e).getW k) ∧ (∀ k, (t.chip.eng e).getP k = (s.chip.eng e).getP k) ∧
    (∀ k, (t.chip.eng e).getPend k = (s.chip.eng e).getPend k) ∧ (t.chip.eng e).lm = (s.chip.eng e).lm ∧
    (t.chip.eng e).run = (s.chip.eng e).run ∧ (t.chip.eng e).issued = (s.chip.eng e).issued ∧ (t.chip.eng e).confirmed = (s.chip.eng e).confirmed ∧
    (∀ o : Nat, o ≠ e.val → t.chip.eng o = s.chip.eng o) ∧ t.chip = { s.chip with engines := t.chip.engines } ∧ t.pending = s.pending)

/-- R158: the CMP group. The predicate takes the table's result and nothing else changes but the PC; a word whose D names no predicate, or whose predicate
operands name none, is none of the group. What an instruction that writes a predicate leaves: p0 still reads 1, the named predicate reads the value unless
it is p0, and every other register is as it was. -/
def Obligations.Predicates : Prop :=
  (
  ∀ (s : State) (e : Eng) (r : Run) (d a b : BitVec 5),
    let A := (s.chip.eng e).getG a.toNat
    let B := (s.chip.eng e).getG b.toNat
    let P := (s.chip.eng e).getP a.toNat
    let Q := (s.chip.eng e).getP b.toNat
    (s.chip.ready e r (.eq e d a b) → exec (.eq e d a b) s = .next (s.wroteP e d (decide (A = B)))) ∧
    (s.chip.ready e r (.ne e d a b) → exec (.ne e d a b) s = .next (s.wroteP e d (decide (A ≠ B)))) ∧
    (s.chip.ready e r (.ltu e d a b) → exec (.ltu e d a b) s = .next (s.wroteP e d (decide (A.toNat < B.toNat)))) ∧
    (s.chip.ready e r (.lt e d a b) → exec (.lt e d a b) s = .next (s.wroteP e d (decide (A.toInt < B.toInt)))) ∧
    (s.chip.ready e r (.geu e d a b) → exec (.geu e d a b) s = .next (s.wroteP e d (decide (B.toNat ≤ A.toNat)))) ∧
    (s.chip.ready e r (.ge e d a b) → exec (.ge e d a b) s = .next (s.wroteP e d (decide (B.toInt ≤ A.toInt)))) ∧
    (s.chip.ready e r (.tlt e d a b) → exec (.tlt e d a b) s =
      .next (s.wroteP e d (decide (timeDiff (A.toNat / 2 ^ 16) (B.toNat / 2 ^ 16) < 0)))) ∧
    (s.chip.ready e r (.pand e d a b) → exec (.pand e d a b) s = .next (s.wroteP e d (P && Q))) ∧
    (s.chip.ready e r (.por e d a b) → exec (.por e d a b) s = .next (s.wroteP e d (P || Q))) ∧
    (s.chip.ready e r (.pnot e d a b) → exec (.pnot e d a b) s = .next (s.wroteP e d (!P))) ∧
    (8 ≤ d.toNat → ∀ i ∈ [Instr.eq e d a b, .ne e d a b, .ltu e d a b, .lt e d a b, .geu e d a b, .ge e d a b, .tlt e d a b, .pand e d a b,
      .por e d a b, .pnot e d a b], i.wf = false) ∧
    (8 ≤ a.toNat → (Instr.pand e d a b).wf = false ∧ (Instr.por e d a b).wf = false ∧ (Instr.pnot e d a b).wf = false) ∧
    (8 ≤ b.toNat → (Instr.pand e d a b).wf = false ∧ (Instr.por e d a b).wf = false) ∧ (b ≠ 0 → (Instr.pnot e d a b).wf = false)) ∧
  (
  ∀ (s : State) (e : Eng) (d : BitVec 5) (v : Bool), d.toNat < 8 →
    let t := s.wroteP e d v
    (t.chip.eng e).getP 0 = true ∧ (d ≠ 0 → (t.chip.eng e).getP d.toNat = v) ∧
    (∀ k, k ≠ d.toNat → (t.chip.eng e).getP k = (s.chip.eng e).getP k) ∧
    (∀ k, (t.chip.eng e).getG k = (s.chip.eng e).getG k) ∧ (∀ k, (t.chip.eng e).getW k = (s.chip.eng e).getW k) ∧
    (t.chip.eng e).lm = (s.chip.eng e).lm ∧
    (∀ o : Nat, o ≠ e.val → t.chip.eng o = s.chip.eng o) ∧ t.chip = { s.chip with engines := t.chip.engines } ∧ t.pending = s.pending)

/-- R172: LD and ST. The address is g[A] + OFF × size; LD zero-extends the bytes it reads into gd; ST writes the low bytes of gd, and every other byte of LM,
and every other memory, reads as before. R173, R174: SLOAD and SSTORE move 64 bytes between wd and a space, and D names one of w0 to w15; an SSTORE to the
packet buffer faults with WRITE_PROT and stores nothing. -/
def Obligations.LoadsAndStores : Prop :=
  (
  ∀ (s : State) (e : Eng) (r : Run) (d a : BitVec 5) (sz : BitVec 2) (off : BitVec 14),
    let n : Nat := 2 ^ sz.toNat
    let ad := ((s.chip.eng e).getG a.toNat + BitVec.ofInt 64 (off.toInt * n)).toNat
    (s.chip.ready e r (.ld e d a sz off) → ad % n = 0 → r.inside e 0 ad n false = true →
      exec (.ld e d a sz off) s = .next (s.wroteG e d (BitVec.ofNat 64 (ofLe ((List.range n).map fun i => (s.chip.eng e).lmByte (ad + i)))))) ∧
    (s.chip.ready e r (.st e d a sz off) → ad % n = 0 → r.inside e 0 ad n true = true →
      ∃ m : Mem, exec (.st e d a sz off) s = .next (s.retire e fun x => { x with lm := m }) ∧
        (∀ i, i < n → mget zeros m (ad + i) = BitVec.ofNat 8 (((s.chip.eng e).getG d.toNat).toNat / 256 ^ i)) ∧
        (∀ x, (x < ad ∨ ad + n ≤ x) → mget zeros m x = (s.chip.eng e).lmByte x) ∧
        (Memory.wf zeros (s.chip.eng e).lm = true → Memory.wf zeros m = true))) ∧
  (
  ∀ (s : State) (e : Eng) (r : Run) (d a : BitVec 5) (sp : BitVec 2) (off : BitVec 14),
    let ad := ((s.chip.eng e).getG a.toNat + BitVec.ofInt 64 (off.toInt * 64)).toNat
    (s.chip.ready e r (.sload e d a sp off) → ad % 64 = 0 → r.inside e sp.toNat ad 64 false = true →
      ∃ v : Vec, exec (.sload e d a sp off) s = .next (s.wroteW e (d.setWidth 4) v) ∧
        ∀ i, i < 64 → Vec.byte v i = (s.chip.spRead e sp.toNat (ad + i) 1).headD 0) ∧
    (s.chip.ready e r (.sstore e d a sp off) → ad % 64 = 0 → sp.toNat ≠ 3 → r.inside e sp.toNat ad 64 true = true →
      ∃ t : State, exec (.sstore e d a sp off) s = .next t ∧ t.pending = s.pending ∧
        (∀ i, i < 64 → (t.chip.spRead e sp.toNat (ad + i) 1).headD 0 = Vec.byte ((s.chip.eng e).getW d.toNat) i) ∧
        (∀ q x, q < 4 → (q ≠ sp.toNat ∨ x < ad ∨ ad + 64 ≤ x) → t.chip.spRead e q x 1 = s.chip.spRead e q x 1) ∧
        (∀ k, (t.chip.eng e).getG k = (s.chip.eng e).getG k) ∧ (∀ k, (t.chip.eng e).getW k = (s.chip.eng e).getW k) ∧
        t.chip = { s.chip with engines := t.chip.engines, stg := t.chip.stg, hbm := t.chip.hbm, pools := t.chip.pools }) ∧
    (s.chip.ready e r (.sstore e d a 3 off) → ad % 64 = 0 → exec (.sstore e d a 3 off) s = .next (s.faults e (.sstore e d a 3 off) 4 0)) ∧
    (16 ≤ d.toNat → (Instr.sload e d a sp off).wf = false ∧ (Instr.sstore e d a sp off).wf = false))

/-- R160, R163: BRP. A taken branch goes to PC + OFF and removes from the loop stack the levels whose bodies end before its target; one that is not taken goes
on as any word does. OFF is never 0. R161, R162: LOOP. The count is the smaller of g[C] and BOUND, fixed as LOOP executes; p7 reports a truncated count; a
count of 0 passes the body as if its last word had retired; a fifth level, or a body that does not nest, faults with LOOP. R161, the step from the last
word of a body: a level with iterations left repeats with its index raised, one without passes the step outward, and a word that ends no body goes on to
the next word. -/
def Obligations.ControlFlow : Prop :=
  (
  ∀ (s : State) (e : Eng) (r : Run) (sense : Bool) (p : BitVec 3) (off : BitVec 16),
    let x := s.chip.eng e
    (s.chip.ready e r (.brp e sense p off) → x.getP p.toNat = sense → exec (.brp e sense p off) s =
      .next (s.put (s.chip.setEng e { x with anchor := none, pc := x.pc + off.toNat
                                             loops := x.loops.dropWhile fun l => decide (l.stop < x.pc + off.toNat) }))) ∧
    (s.chip.ready e r (.brp e sense p off) → x.getP p.toNat ≠ sense → exec (.brp e sense p off) s = .next (s.retire e id)) ∧
    (Instr.brp e sense p 0).wf = false) ∧
  (
  ∀ (s : State) (e : Eng) (r : Run) (k : BitVec 5) (bound : BitVec 13) (len : BitVec 8),
    let x := s.chip.eng e
    let n := min (x.getG k.toNat).toNat bound.toNat
    let x7 := ({ x with anchor := none } : Engine).setP 7 (decide (bound.toNat < (x.getG k.toNat).toNat))
    (s.chip.ready e r (.loop e k bound len) → x.loops.length = 4 ∨ (x.loops.head?.any fun l => decide (l.stop < x.pc + len.toNat)) = true →
      exec (.loop e k bound len) s = .next (s.faults e (.loop e k bound len) 5 0)) ∧
    (s.chip.ready e r (.loop e k bound len) → x.loops.length ≠ 4 → (x.loops.head?.all fun l => decide (x.pc + len.toNat ≤ l.stop)) = true →
      (n ≠ 0 → exec (.loop e k bound len) s =
        .next (s.put (s.chip.setEng e { x7 with loops := ⟨x.pc + 1, x.pc + len.toNat, n, 0⟩ :: x.loops, pc := x.pc + 1 }))) ∧
      (n = 0 → exec (.loop e k bound len) s =
        .next (s.put (s.chip.setEng e { x7 with loops := (wordEnd x.loops (x.pc + len.toNat)).1, pc := (wordEnd x.loops (x.pc + len.toNat)).2 })))) ∧
    ((bound = 0 ∨ len = 0) → (Instr.loop e k bound len).wf = false)) ∧
  (
  (∀ n : Nat, wordEnd [] n = ([], n + 1)) ∧
  (∀ (l : Level) (r : List Level) (n : Nat), n ≠ l.stop → wordEnd (l :: r) n = (l :: r, n + 1)) ∧
  (∀ (l : Level) (r : List Level), 1 < l.left → wordEnd (l :: r) l.stop = ({ l with left := l.left - 1, index := l.index + 1 } :: r, l.start)) ∧
  (∀ (l : Level) (r : List Level), l.left ≤ 1 → wordEnd (l :: r) l.stop = wordEnd r l.stop) ∧
  (∀ (ls : List Level) (n : Nat), (∀ l ∈ ls, l.stop = n ∧ l.left ≤ 1) → wordEnd ls n = ([], n + 1)))

/-- R166: the vector group, byte by byte, and the field values it forbids. R168–R170: SYNDB. With n = 0 it only goes on; a count that is no multiple of 64, or
above 262,144, faults with RANGE; otherwise, in the modes that use them, every byte of P takes the source byte and every byte of Q its product with the
coefficient, and no other byte changes. Source, P and Q here lie apart. -/
def Obligations.VectorsAndSyndromes : Prop :=
  (
  ∀ (s : State) (e : Eng) (r : Run) (vd va vb : BitVec 4) (g : BitVec 5),
    let x := s.chip.eng e
    let c : Byte := (x.getG g.toNat).setWidth 8
    let A := x.getW va.toNat
    let B := x.getW vb.toNat
    let D := x.getW vd.toNat
    (s.chip.ready e r (.pxor e vd va vb g) → exec (.pxor e vd va vb g) s = .next (s.wroteW e vd (A ^^^ B))) ∧
    (s.chip.ready e r (.vzero e vd va vb g) → exec (.vzero e vd va vb g) s = .next (s.wroteW e vd 0)) ∧
    (s.chip.ready e r (.vmov e vd va vb g) → exec (.vmov e vd va vb g) s = .next (s.wroteW e vd A)) ∧
    (s.chip.ready e r (.gfmul e vd va vb g) → ∃ v, exec (.gfmul e vd va vb g) s = .next (s.wroteW e vd v) ∧
      ∀ i, i < 64 → Vec.byte v i = gfMul c (Vec.byte A i)) ∧
    (s.chip.ready e r (.gfmac e vd va vb g) → ∃ v, exec (.gfmac e vd va vb g) s = .next (s.wroteW e vd v) ∧
      ∀ i, i < 64 → Vec.byte v i = Vec.byte D i ^^^ gfMul c (Vec.byte A i)) ∧
    (s.chip.ready e r (.synd e vd va vb g) → ∃ v w, exec (.synd e vd va vb g) s =
        .next (s.retire e fun y => (y.setW vd.toNat v).setW vb.toNat w) ∧
      ∀ i, i < 64 → Vec.byte v i = Vec.byte D i ^^^ Vec.byte A i ∧ Vec.byte w i = Vec.byte B i ^^^ gfMul c (Vec.byte A i)) ∧
    (s.chip.ready e r (.vext e vd va vb g) → ∃ v : W64, exec (.vext e vd va vb g) s = .next (s.wroteG e g v) ∧
      ∀ i, i < 64 → v.getLsbD i = A.getLsbD (64 * vb.toNat + i)) ∧
    (s.chip.ready e r (.vins e vd va vb g) → ∃ v, exec (.vins e vd va vb g) s = .next (s.wroteW e vd v) ∧
      ∀ i, i < 512 → v.getLsbD i = if i / 64 = vb.toNat then (x.getG g.toNat).getLsbD (i % 64) else D.getLsbD i) ∧
    (s.chip.ready e r (.vbcast e vd va vb g) → ∃ v, exec (.vbcast e vd va vb g) s = .next (s.wroteW e vd v) ∧
      ∀ i, i < 64 → Vec.byte v i = c) ∧
    ((va ≠ 0 ∨ vb ≠ 0 ∨ g ≠ 0) → (Instr.vzero e vd va vb g).wf = false) ∧ (vd = vb → (Instr.synd e vd va vb g).wf = false) ∧
    (8 ≤ vb.toNat → (Instr.vext e vd va vb g).wf = false ∧ (Instr.vins e vd va vb g).wf = false)) ∧
  (
  ∀ (s : State) (e : Eng) (r : Run) (d a b k : BitVec 5) (mode : BitVec 2) (ssp dsp : Bool),
    let x := s.chip.eng e
    let p := (x.getG d.toNat).toNat
    let q := (x.getG (d.toNat + 1)).toNat
    let src := (x.getG a.toNat).toNat
    let n := (x.getG b.toNat).toNat
    let cf : Byte := (x.getG k.toNat).setWidth 8
    let m := mode.toNat
    let ss := if ssp then 2 else 1
    let ds := if dsp then 2 else 1
    let rd (c : Chip) (sp y : Nat) : Byte := (c.spRead e sp y 1).headD 0
    let i := Instr.syndb e d a b k mode ssp dsp
    s.chip.ready e r i → r.tooLong x.pc n = false →
    (n % 64 ≠ 0 ∨ 262144 < n → exec i s = .next (s.faults e i 3 0)) ∧
    (n = 0 → src % 64 = 0 → p % 64 = 0 → q % 64 = 0 → exec i s = .next (s.retire e id)) ∧
    (n % 64 = 0 → n ≤ 262144 → src % 64 = 0 → p % 64 = 0 → q % 64 = 0 →
      r.inside e ss src n false = true → r.inside e ds p n false = true → r.inside e ds p n true = true → r.inside e ds q n false = true →
      r.inside e ds q n true = true → (p + n ≤ q ∨ q + n ≤ p) → (ss ≠ ds ∨ ((p + n ≤ src ∨ src + n ≤ p) ∧ (q + n ≤ src ∨ src + n ≤ q))) →
      ∃ t : State, exec i s = .next t ∧ t.pending = s.pending ∧
        (∀ j, j < n → rd t.chip ds (p + j) = if m % 2 = 1 then rd s.chip ds (p + j) ^^^ rd s.chip ss (src + j) else rd s.chip ds (p + j)) ∧
        (∀ j, j < n → rd t.chip ds (q + j) =
          if m = 0 then gfMul cf (rd s.chip ss (src + j))
          else if 2 ≤ m then rd s.chip ds (q + j) ^^^ gfMul cf (rd s.chip ss (src + j)) else rd s.chip ds (q + j)) ∧
        (∀ sp y, (sp = 1 ∨ sp = 2) → (sp ≠ ds ∨ ((y < p ∨ p + n ≤ y) ∧ (y < q ∨ q + n ≤ y))) → rd t.chip sp y = rd s.chip sp y) ∧
        t.chip = { s.chip with engines := (s.retire e id).chip.engines, stg := t.chip.stg, hbm := t.chip.hbm, pools := t.chip.pools }))

/-- R167: the GF scalar group. R165, R165's examples, and the field laws of gf_mul: it is commutative, distributes over exclusive or, and has 1 as its unit; 2
generates the field. -/
def Obligations.GaloisField : Prop :=
  (
  ∀ (s : State) (e : Eng) (r : Run) (d a b : BitVec 5),
    let A := (s.chip.eng e).getG a.toNat
    let x : Byte := A.setWidth 8
    let y : Byte := ((s.chip.eng e).getG b.toNat).setWidth 8
    (s.chip.ready e r (.gfmuls e d a b) → exec (.gfmuls e d a b) s = .next (s.wroteG e d ((gfMul x y).zeroExtend 64))) ∧
    (s.chip.ready e r (.gfinv e d a b) → ∃ v : Byte, exec (.gfinv e d a b) s = .next (s.wroteG e d (v.zeroExtend 64)) ∧
      (x = 0 → v = 0) ∧ (x ≠ 0 → gfMul v x = 1)) ∧
    (s.chip.ready e r (.gfexp e d a b) → exec (.gfexp e d a b) s = .next (s.wroteG e d ((gfExp A.toNat).zeroExtend 64))) ∧
    (s.chip.ready e r (.gflog e d a b) → ∃ k : Nat, exec (.gflog e d a b) s = .next (s.wroteG e d (BitVec.ofNat 64 k)) ∧
      (x = 0 → k = 255) ∧ (x ≠ 0 → k < 255 ∧ gfExp k = x)) ∧
    (b ≠ 0 → (Instr.gfinv e d a b).wf = false ∧ (Instr.gfexp e d a b).wf = false ∧ (Instr.gflog e d a b).wf = false)) ∧
  (
  gfMul 0x80 2 = 0x1D ∧ gfExp 8 = 0x1D ∧ (∀ a b : Byte, gfMul a b = gfMul b a) ∧ (∀ a b c : Byte, gfMul a (b ^^^ c) = gfMul a b ^^^ gfMul a c) ∧
  (∀ a : Byte, gfMul 1 a = a) ∧ (∀ k : Nat, gfExp (k + 255) = gfExp k) ∧ ∀ a : Byte, a ≠ 0 → gfExp (gfLog a) = a)

/-- R182, R183: SHUT. On a busy channel it writes 1 and issues nothing; on an idle one it starts the chain that its descriptors spell and writes 0. -/
def Obligations.ShuttleIssue : Prop :=
  ∀ (s : State) (e : Eng) (r : Run) (d a b : BitVec 5) (ds : List Desc),
    let x := s.chip.eng e
    let n := (x.getG b.toNat).toNat
    let ad := (x.getG a.toNat).toNat
    s.chip.ready e r (.shut e d a b) → n < 64 → r.channelOk e n = true →
    ((s.chip.chan n).state ≠ .idle → exec (.shut e d a b) s = .next (s.wroteG e d 1)) ∧
    ((s.chip.chan n).state = .idle → s.chip.chainAt e 16 ad true = some ds → r.tooLong x.pc ds.length = false → ad % 32 = 0 →
      r.inside e 0 ad (32 * ds.length) false = true → (∀ q ∈ ds, q.fieldsOk = true ∧ q.inside r e = true ∧ q.hostOk r = true) →
      ((∃ q ∈ ds, q.overlaps = true) → exec (.shut e d a b) s = .next (s.wroteG e d 2)) ∧
      ((∀ q ∈ ds, q.overlaps = false) → ∃ t : State, exec (.shut e d a b) s = .next t ∧ t.pending = s.pending ∧
        t.chip = { s.chip with engines := (s.wroteG e d 0).chip.engines, channels := t.chip.channels, pools := t.chip.pools } ∧
        (t.chip.chan n).state = .running ∧ (t.chip.chan n).chain = ds ∧ (t.chip.chan n).desc = 0 ∧ (t.chip.chan n).issuer = e.val ∧
        (∀ m, m ≠ n → t.chip.chan m = s.chip.chan m) ∧ (t.chip.pool 4).held = (s.chip.pool 4).held + ds.length ∧
        ∀ p, p ≠ 4 → t.chip.pool p = s.chip.pool p))

/-- R177, R178: TAKE copies the next item that the program may take into LM and writes its handle; with no such item it writes 0 and copies nothing. R141,
R176, R179: an idle stripe engine starts its next item: the item is copied to the slot's dispatch area, g1 to g7 hold its area, handle, ADM_SEQ and the
slot parameters, every other g register, every w register, p1 to p7 and the loop stack are zero or empty, and the PC is that of the entry point. -/
def Obligations.ItemsReachPrograms : Prop :=
  (
  ∀ (s : State) (e : Eng) (r : Run) (d a b : BitVec 5),
    let x := s.chip.eng e
    let ad := (x.getG a.toNat).toNat
    s.chip.ready e r (.take e d a b) → ad % 32 = 0 → r.inside e 0 ad 96 true = true →
    ((∀ i, s.chip.nextItem e = some i → s.chip.takeable e r i = false) → exec (.take e d a b) s = .next (s.wroteG e d 0)) ∧
    (∀ i, s.chip.nextItem e = some i → s.chip.takeable e r i = true → ∃ t : State, exec (.take e d a b) s = .next t ∧ t.pending = s.pending ∧
      (d ≠ 0 → (t.chip.eng e).getG d.toNat = BitVec.ofNat 64 i.handle) ∧
      (∀ k, k < 96 → (t.chip.eng e).lmByte (ad + k) = i.bytes.getD k 0) ∧ (∀ k, (k < ad ∨ ad + 96 ≤ k) → (t.chip.eng e).lmByte k = x.lmByte k) ∧
      (∃ q, (t.chip.eng e).run = some q ∧ q.taken = r.taken ++ [i]) ∧
      (t.chip.eng e).queue = x.queue.filter (fun j => j.handle != i.handle) ∧
      (∀ o : Nat, o ≠ e.val → t.chip.eng o = s.chip.eng o) ∧ t.chip = { s.chip with engines := t.chip.engines, funcs := t.chip.funcs })) ∧
  (
  ∀ (s : State) (e : Se) (i : Item) (m : Image),
    let x := s.chip.eng e
    s.chip.clocked = true → s.chip.vault.stopped = false → x.run = none → x.faulted = false → s.chip.nextItem e = some i →
    s.chip.isGated e = false → s.chip.earlierEntry e i.seq = false → s.chip.imageOf e i.slot i.ep i.seq = some m →
    ∃ t : State, exec (.itemDispatch e) s = .next t ∧ t.pending = s.pending ∧
      t.chip = { s.chip with engines := t.chip.engines, funcs := t.chip.funcs } ∧ (∀ o : Nat, o ≠ e.val → t.chip.eng o = s.chip.eng o) ∧
      (let y := t.chip.eng e
       y.getG 1 = BitVec.ofNat 64 (0x40040 + 0x100 * i.slot) ∧ y.getG 2 = BitVec.ofNat 64 i.handle ∧ y.getG 3 = BitVec.ofNat 64 i.seq ∧
       (∀ k, k < 4 → y.getG (4 + k) = BitVec.ofNat 64 (m.params.getD k 0)) ∧ (∀ k, 7 < k → y.getG k = 0) ∧ (∀ k, y.getW k = 0) ∧
       (∀ k, 0 < k → y.getP k = false) ∧ y.loops = [] ∧ y.pc = (m.entries.getD i.ep (0, 0)).1 ∧
       (∀ k, k < 96 → y.lmByte (0x40040 + 0x100 * i.slot + k) = i.bytes.getD k 0) ∧
       y.queue = x.queue.filter (fun j => j.handle != i.handle) ∧ y.pend = x.pend ∧ y.issued = x.issued ∧ y.confirmed = x.confirmed ∧
       ∃ q, y.run = some q ∧ q.taken = [i] ∧ q.image = m ∧ q.slot = i.slot ∧ q.ep = i.ep))

/-- R192–R194: CMPL completes an item that the program has taken and not completed, with a status of one byte; any other handle, and a status beyond a byte,
faults with RANGE. R193, R382: a completed item of a host entry returns its staging and counts against its entry; the last one gives the entry its status:
ST_OK when every item completed so, otherwise that of the lowest part that did not. -/
def Obligations.ItemsComplete : Prop :=
  (
  ∀ (s : State) (e : Eng) (r : Run) (d a b : BitVec 5),
    let x := s.chip.eng e
    let h := (x.getG a.toNat).toNat
    let st := (x.getG b.toNat).toNat
    let c := (s.chip.closed e).modEng e fun y => (y.untake h).advance
    (d ≠ 0 → (Instr.cmpl e d a b).wf = false) ∧ (s.chip.ready e r (.cmpl e d a b) →
    (∀ i ∈ r.taken, i.handle = h → r.taken.find? (fun j => j.handle == h) = some i → st < 256 → reservedStatus st = false →
      exec (.cmpl e d a b) s = .next (s.put (c.completeItem e i st (s.chip.detailOf e st) (s.chip.landedNow e))) ∧
      ∃ q, (c.eng e).run = some q ∧ ∀ j ∈ q.taken, j.handle ≠ h) ∧
    ((∀ i ∈ r.taken, i.handle ≠ h) → exec (.cmpl e d a b) s = .next (s.faults e (.cmpl e d a b) 3 0)) ∧
    (256 ≤ st → exec (.cmpl e d a b) s = .next (s.faults e (.cmpl e d a b) 3 0)))) ∧
  (
  ∀ (c : Chip) (e : Nat) (i : Item) (code detail landed : Nat), i.source = 0 →
    let f := 64 * i.port + i.origin % 64
    let g := bits i.origin 6 8 + 1
    let t := c.completeItem e i code detail landed
    t = { c with funcs := t.funcs, pools := t.pools } ∧ (∀ o, o ≠ f → t.fn o = c.fn o) ∧
    ((t.fn f).queue g).work = ((c.fn f).queue g).work.map fun a =>
      if a.pos = i.pos then
        let w := worse a.worst i.part code detail
        { a with left := a.left - 1, worst := w, status := if a.left - 1 = 0 ∧ a.status = none then some (statusOf w) else a.status }
      else a)

/-- R184, R186, R187: JRNL. With room in the journal and a pair plan it takes the next ticket, writes it to gd, and appends the record: the ring's HEAD moves
by its bytes and its JSEQ by one. Without, it takes no ticket and writes 0. R184, R188: MIRR takes the next ticket, writes it to gd, and queues the mirror
of its range; an ACTIVE unit sends it in messages of which the last carries the ticket. Tickets run from 1 and skip 0 as they wrap. -/
def Obligations.TicketsAreTaken : Prop :=
  (
  ∀ (s : State) (e : Eng) (r : Run) (d a b : BitVec 5),
    let x := s.chip.eng e
    let ad := (x.getG a.toNat).toNat
    let n := (x.getG b.toNat).toNat
    let f (o : Nat) : Nat := (x.lmByte (ad + o)).toNat
    let arr := f 2
    s.chip.ready e r (.jrnl e d a b) → n % 32 = 0 → 32 ≤ n → n ≤ 256 → r.tooLong x.pc n = false → ad % 32 = 0 → r.inside e 0 ad n false = true →
    32 * f 1 = n → arr < 16 → (s.chip.arr arr).made = true → jrnlType (f 0) = true →
    ((s.chip.cache.pairQ = 0 ∨ s.chip.ringFree arr < n) → exec (.jrnl e d a b) s = .next (s.wroteG e d 0)) ∧
    (s.chip.cache.pairQ ≠ 0 → n ≤ s.chip.ringFree arr → ∃ t : State, exec (.jrnl e d a b) s = .next t ∧ t.pending = s.pending ∧
      (d ≠ 0 → (t.chip.eng e).getG d.toNat = BitVec.ofNat 64 x.nextTicket) ∧ (t.chip.eng e).issued = x.nextTicket ∧
      t.chip.ringHead arr = (s.chip.ringHead arr + n) % 0x1000000 ∧ t.chip.ringNext arr = (s.chip.ringNext arr + 1) % 2 ^ 64 ∧
      t.chip.ringTail arr = s.chip.ringTail arr ∧ (t.chip.eng e).lm = x.lm ∧ (∀ o : Nat, o ≠ e.val → t.chip.eng o = s.chip.eng o) ∧
      t.chip = { s.chip with engines := t.chip.engines, hbm := t.chip.hbm, pools := t.chip.pools, par := t.chip.par } ∧
      t.chip.par = { s.chip.par with queue := t.chip.par.queue })) ∧
  (
  (∀ (s : State) (e : Eng) (r : Run) (d a b : BitVec 5),
    let x := s.chip.eng e
    let ad := (x.getG a.toNat).toNat
    let n := (x.getG b.toNat).toNat
    s.chip.ready e r (.mirr e d a b) → n % 64 = 0 → 64 ≤ n → n ≤ 0x1000000 → ad % 64 = 0 → ad + n ≤ s.chip.cache.pairQ * 0x10000000 →
    ∃ t : State, exec (.mirr e d a b) s = .next t ∧ t.pending = s.pending ∧
      (d ≠ 0 → (t.chip.eng e).getG d.toNat = BitVec.ofNat 64 x.nextTicket) ∧ (t.chip.eng e).issued = x.nextTicket ∧
      (s.chip.par.role = .active → ∃ ms m, t.chip.par.queue = s.chip.par.queue ++ ms ++ [m] ∧ m.cls = 5 ∧ m.last = true ∧ m.ticket = x.nextTicket ∧
        ∀ k ∈ ms, k.last = false) ∧
      (∀ o : Nat, o ≠ e.val → t.chip.eng o = s.chip.eng o) ∧ t.chip = { s.chip with engines := t.chip.engines, par := t.chip.par } ∧
      t.chip.par = { s.chip.par with queue := t.chip.par.queue }) ∧
  ∀ x : Engine, x.nextTicket ≠ 0 ∧ (x.issued < 2 ^ 48 - 1 → x.nextTicket = x.issued + 1) ∧ (x.issued = 2 ^ 48 - 1 → x.nextTicket = 1))

/-- R189: LAND. A ticket that is 0 or later than ISSUED faults with RANGE; a confirmed one gives its landed time and whether the unit was ALONE; in FENCED and
STANDBY an unconfirmed one gives 3; a limit of 0 gives 2; otherwise the engine waits, and the limit gives 2. R185, R189, R191: the local write of a ticket
completes. Only the ticket's note changes, and in ALONE the ticket is thereby confirmed: CONFIRMED reaches it, its landed time is now, under the ALONE
clause, and line 0x50 + e pulses. -/
def Obligations.TicketsLand : Prop :=
  (
  ∀ (s : State) (e : Eng) (r : Run) (d a : BitVec 5) (lim : BitVec 13),
    let x := s.chip.eng e
    let t := (x.getG a.toNat).toNat
    (s.chip.ready e r (.land e d a lim) →
      (t = 0 ∨ 2 ^ 48 ≤ t ∨ timeDiff x.issued t < 0 → exec (.land e d a lim) s = .next (s.faults e (.land e d a lim) 3 0)) ∧
      (t ≠ 0 → t < 2 ^ 48 → 0 ≤ timeDiff x.issued t →
        (0 ≤ timeDiff x.confirmed t → exec (.land e d a lim) s =
          .next (s.wroteG e d (BitVec.ofNat 64 ((tget x.landed (0, false) t).1 * 2 ^ 16 + b2n (tget x.landed (0, false) t).2)))) ∧
        (timeDiff x.confirmed t < 0 → s.chip.par.role = .fenced ∨ s.chip.par.role = .standby → exec (.land e d a lim) s = .next (s.wroteG e d 3)) ∧
        (timeDiff x.confirmed t < 0 → s.chip.par.role = .active ∨ s.chip.par.role = .alone → lim = 0 →
          exec (.land e d a lim) s = .next (s.wroteG e d 2)) ∧
        (timeDiff x.confirmed t < 0 → s.chip.par.role = .active ∨ s.chip.par.role = .alone → lim ≠ 0 →
          exec (.land e d a lim) s = .next (s.waits e (.land d.toNat t))))) ∧
    (∀ (n : Se) (k u : Nat), s.chip.clocked = true → (s.chip.eng n).wait = some (.land k u) →
      exec (.landLimit n) s = .next (s.put (s.chip.setEng n { ((s.chip.eng n).setG k 2).advance with wait := none })))) ∧
  (
  ∀ (s : State) (e : Se) (t : BitVec 48), s.chip.clocked = true →
    (s.chip.par.role ≠ .alone → exec (.ticketLocalComplete e t) s = .next (s.put (s.chip.modEng e fun x =>
      { x with tickets := x.tickets.map fun k => if k.num = t.toNat then { k with localDone := true } else k }))) ∧
    (s.chip.par.role = .alone → (s.chip.eng e).tickets = [{ num := t.toNat }] → (s.chip.eng e).wait = none →
      exec (.ticketLocalComplete e t) s = .next (s.put ((s.chip.modEng e fun x =>
        { x with tickets := [], confirmed := t.toNat, landed := tinsert (terase x.landed t.toNat) t.toNat (s.chip.nowNs, true) }).pulse (0x50 + e.val)))))

/-- R196, R197, R203: WAITE takes a pending pulse and gives EVENT, gives LIMIT when it may not wait, and otherwise waits; its limit gives LIMIT. PEND reads the
count; CLRE reads and clears it. R198, R199, R202: WAITT gives INVALID without valid time, LATE behind its target, ON_TIME at it, LIMIT on a stripe engine
that may not wait, and otherwise waits. The target reached gives ON_TIME and opens an anchored run; the limit gives LIMIT on a stripe engine. R196,
R220–R223: the oldest pulse reaches every engine. One that waits on its line goes on with EVENT; every other counts it, unless its count is saturated. -/
def Obligations.EngineWaits : Prop :=
  (
  ∀ (s : State) (e : Eng) (r : Run) (d : BitVec 5) (line : BitVec 8) (lim : BitVec 13),
    let x := s.chip.eng e
    let n := x.getPend line.toNat
    (s.chip.ready e r (.waite e d line lim) → 0 < n → exec (.waite e d line lim) s =
      .next (s.retire e fun y => (y.setPend line.toNat (n - 1)).setG d.toNat 0)) ∧
    (s.chip.ready e r (.waite e d line lim) → n = 0 → lim = 0 → exec (.waite e d line lim) s = .next (s.wroteG e d 1)) ∧
    (s.chip.ready e r (.waite e d line lim) → n = 0 → lim ≠ 0 → exec (.waite e d line lim) s = .next (s.waits e (.waite d.toNat line.toNat))) ∧
    (∀ k l, s.chip.clocked = true → x.wait = some (.waite k l) →
      exec (.waiteLimit e) s = .next (s.put (s.chip.setEng e { (x.setG k 1).advance with wait := none }))) ∧
    (s.chip.ready e r (.pend e d line) → exec (.pend e d line) s = .next (s.wroteG e d (BitVec.ofNat 64 n))) ∧
    (s.chip.ready e r (.clre e d line) → exec (.clre e d line) s =
      .next (s.retire e fun y => (y.setG d.toNat (BitVec.ofNat 64 n)).setPend line.toNat 0))) ∧
  (
  ∀ (s : State) (e : Eng) (r : Run) (d a : BitVec 5) (lim : BitVec 13),
    let x := s.chip.eng e
    let t := (x.getG a.toNat).toNat / 2 ^ 16
    let df := timeDiff t s.chip.nowNs
    let i := Instr.waitt e d a lim
    (s.chip.ready e r i → s.chip.timeValid = false → exec i s = .next (s.wroteG e d 4)) ∧
    (s.chip.ready e r i → s.chip.timeValid = true → df < 0 → exec i s = .next (s.wroteG e d 1)) ∧
    (s.chip.ready e r i → s.chip.timeValid = true → df = 0 →
      exec i s = .next (s.put (s.chip.setEng e { (x.setG d.toNat 0).advance with anchor := some (t, 0) }))) ∧
    (s.chip.ready e r i → s.chip.timeValid = true → 0 < df → e.val < 16 → lim = 0 → exec i s = .next (s.wroteG e d 3)) ∧
    (s.chip.ready e r i → s.chip.timeValid = true → 0 < df → (16 ≤ e.val ∨ lim ≠ 0) → exec i s = .next (s.waits e (.waitt d.toNat t))) ∧
    (∀ k u, s.chip.clocked = true → x.wait = some (.waitt k u) → exec (.waittOnTime e) s =
      .next (s.put ((s.chip.passTo u).setEng e { (x.setG k 0).advance with wait := none, anchor := some (u, 0) }))) ∧
    (∀ k u, s.chip.clocked = true → x.wait = some (.waitt k u) → e.val < 16 → exec (.waittLimit e) s =
      .next (s.put (s.chip.setEng e { (x.setG k 3).advance with wait := none })))) ∧
  (
  ∀ (s : State) (l : Nat) (rest : List Nat), s.chip.clocked = true → s.chip.pulses = l :: rest →
    (∀ e : Eng, (s.chip.eng e).getPend l < 65535) →
    ∃ t : State, exec .eventPulseArrive s = .next t ∧ t.pending = s.pending ∧
      t.chip = { s.chip with pulses := rest, engines := t.chip.engines } ∧
      ∀ e : Eng,
        (∀ d, (s.chip.eng e).wait = some (.waite d l) →
          t.chip.eng e = { ((s.chip.eng e).setG d 0).advance with wait := none }) ∧
        ((∀ d, (s.chip.eng e).wait ≠ some (.waite d l)) → t.chip.eng e = (s.chip.eng e).setPend l ((s.chip.eng e).getPend l + 1)))

/-- R205: RDT writes NOW, CSRR the value that its selector names. R215–R217, R224: END leaves a stripe engine idle, and faults with OPEN_ENTRY while a taken
item is not completed; on a Treadle engine it waits for the next cycle start. FAULT faults with SOFT and its code. NOP only goes on. -/
def Obligations.EngineStatusAndEnd : Prop :=
  (
  ∀ (s : State) (e : Eng) (r : Run) (d : BitVec 5),
    let x := s.chip.eng e
    let rd (sel : BitVec 5) (v : Nat) : Prop :=
      s.chip.ready e r (.csrr e d sel 0) → exec (.csrr e d sel 0) s = .next (s.wroteG e d (BitVec.ofNat 64 v))
    let lidx (k : Nat) : Nat := match x.loops[k]? with | some l => l.index | none => 0
    (s.chip.ready e r (.rdt e d 0 0) → exec (.rdt e d 0 0) s = .next (s.wroteG e d (BitVec.ofNat 64 s.chip.nowLayout))) ∧
    rd 0 (if e.val < 16 then e.val else 0x100 + (e.val - 16)) ∧
    rd 1 (match s.chip.par.role with | .active => 0 | .standby => 1 | .alone => 2 | .fenced => 3) ∧
    rd 2 s.chip.pwr.modeEff ∧ rd 3 (lidx 0) ∧ rd 4 (lidx 1) ∧ rd 5 (lidx 2) ∧ rd 6 (lidx 3) ∧ rd 7 s.chip.tmb.epoch ∧
    rd 8 (b2n s.chip.timeValid + 2 * b2n (s.chip.tmb.state == .locked)) ∧
    rd 9 (if e.val < 16 then x.issued else 0) ∧ rd 10 (if e.val < 16 then x.confirmed else 0) ∧ rd 11 (if e.val < 16 then 0 else x.cycleNo) ∧
    ∀ a b : BitVec 5, (12 ≤ a.toNat ∨ b ≠ 0) → (Instr.csrr e d a b).wf = false) ∧
  (
  ∀ (s : State) (e : Eng) (r : Run) (imm : BitVec 16),
    let x := s.chip.eng e
    (s.chip.ready e r (.endP e imm) → e.val < 16 → r.taken = [] →
      exec (.endP e imm) s = .next (s.put (s.chip.setEng e { x with anchor := none, run := none, loops := [] }))) ∧
    (s.chip.ready e r (.endP e imm) → e.val < 16 → r.taken ≠ [] → exec (.endP e imm) s = .next (s.faults e (.endP e imm) 9 0)) ∧
    (s.chip.ready e r (.endP e imm) → 16 ≤ e.val → exec (.endP e imm) s = .next (s.waits e .cycle)) ∧
    (s.chip.ready e r (.faultP e imm) → exec (.faultP e imm) s = .next (s.faults e (.faultP e imm) 10 imm.toNat)) ∧
    (s.chip.ready e r (.nop e imm) → exec (.nop e imm) s = .next (s.retire e id)))

/-- R206–R210: the actions of an instruction that is not anchored, or is the ninth of its run: GATE, HOLD and WAKE on the engine's port, SIG on its event
lines, SNAPT on the common trigger. R212–R214: an instruction of an open anchored run, up to eight of them, takes effect at the run's target: its action
waits at the engine. R212, R585: the oldest anchored action of an engine takes effect at its target. On a Treadle engine its deviation enters the port's
maximum, and beyond 50 ns it is counted. -/
def Obligations.EngineActions : Prop :=
  (
  ∀ (s : State) (e : Eng) (r : Run) (imm : BitVec 16),
    let x := s.chip.eng e
    let c := s.chip.advanced e
    let p := e.val - 16
    let n := imm.toNat
    ((x.anchor.all fun a => decide (8 ≤ a.2)) = true) →
    (s.chip.ready e r (.gate e imm) → ∃ h, exec (.gate e imm) s = .next (s.put (c.setPort p { s.chip.port p with heddles := h })) ∧
      ∀ tc, tc < 8 → bitAt h tc = if bitAt n tc then bitAt n (8 + tc) else bitAt (s.chip.port p).heddles tc) ∧
    (s.chip.ready e r (.hold e imm) → ∃ b, exec (.hold e imm) s =
      .next (s.put (c.setPort p { s.chip.port p with hold := decide (n = 1), preempted := b }))) ∧
    (s.chip.ready e r (.wake e imm) → 256 ≤ n → exec (.wake e imm) s =
      .next (s.put (c.setPort p { s.chip.port p with wakes := terase (s.chip.port p).wakes (n % 16) }))) ∧
    (s.chip.ready e r (.wake e imm) → n < 256 → s.chip.pwr.waking = 0 → s.chip.pwr.gated = 0 → exec (.wake e imm) s =
      .next (s.put ((c.setPort p { s.chip.port p with wakes := tinsert (terase (s.chip.port p).wakes n) n s.chip.nowNs }).pulse 0xEF))) ∧
    (s.chip.ready e r (.sig e imm) → e.val < 16 → exec (.sig e imm) s = .next (s.put (c.pulse (0x80 + 4 * e.val + n)))) ∧
    (s.chip.ready e r (.sig e imm) → 16 ≤ e.val → n ≠ 7 → exec (.sig e imm) s = .next (s.put (c.pulse (0xC0 + 8 * p + n)))) ∧
    (s.chip.ready e r (.sig e imm) → 16 ≤ e.val → n = 7 → exec (.sig e imm) s =
      .next (s.put ((c.pulse (0xC0 + 8 * p + 7)).setPort p { s.chip.port p with gapAt := some s.chip.nowNs }))) ∧
    (s.chip.ready e r (.snapt e imm) → exec (.snapt e imm) s =
      .next (s.put { c with snp := { s.chip.snp with requests := s.chip.snp.requests ++ [(1, snaptArg e n)] } }))) ∧
  (
  ∀ (s : State) (e : Eng) (r : Run) (imm : BitVec 16) (t k : Nat),
    let x := s.chip.eng e
    x.anchor = some (t, k) → k < 8 →
    (∀ q ∈ [(Instr.sig e imm, Action.sig imm.toNat), (.snapt e imm, .snapt imm.toNat), (.gate e imm, .gate imm.toNat),
            (.hold e imm, .hold (imm.toNat % 2 == 1)), (.wake e imm, .wake (imm.toNat % 16) (bitAt imm.toNat 8))],
      s.chip.ready e r q.1 → exec q.1 s =
        .next (s.put (s.chip.setEng e ({ x with actions := x.actions ++ [(t, q.2)], anchor := some (t, k + 1) } : Engine).advance))) ∧
    (s.chip.ready e r (.nop e 0) → ∃ u : State, exec (.nop e 0) s = .next u ∧ (u.chip.eng e).anchor = none)) ∧
  (
  ∀ (s : State) (e : Eng) (dev t : Nat) (a : Action) (rest : List (Nat × Action)), s.chip.clocked = true → (s.chip.eng e).actions = (t, a) :: rest →
    let c := ((s.chip.passTo t).modEng e fun x => { x with actions := rest }).actOn e a
    let p := e.val - 16
    (e.val < 16 → exec (.anchoredAction e dev) s = .next (s.put c)) ∧
    (16 ≤ e.val → dev ≤ 50 → exec (.anchoredAction e dev) s =
      .next (s.put { c with grd := { c.grd with devMax := tput c.grd.devMax 0 p (max (tget c.grd.devMax 0 p) dev) } })) ∧
    (16 ≤ e.val → 50 < dev → exec (.anchoredAction e dev) s =
      .next (s.put (({ c with grd := { c.grd with devMax := tput c.grd.devMax 0 p (max (tget c.grd.devMax 0 p) (min 65535 dev)) } } : Chip).deviation p))))

/-- R224, R225, R227, R861: what a fault leaves. The engine stops, its fault registers hold the code, the PC, the word, the slot and the soft code, its loop
stack is empty, and ENGINE_FAULT stands in its block's STATUS. Nothing else changes where the cause is not enabled and the program had taken no item; a
Treadle engine's port is idled as well (R582). R153, R154, R164, R861: what an instruction meets before its own checks, in this order: an ECC fault that
waits for the boundary, a PC beyond the code, and a word that does not decode. Each faults the engine. R224, R229: a program that exceeds its proven count
faults with WCET, and the fault registers hold the word at its PC; the word of a stock program is a free value (log entry 32). -/
def Obligations.EngineFaults : Prop :=
  (
  ∀ (c : Chip) (e : Eng) (code soft word : Nat) (r : Run), (c.eng e).run = some r → bitAt (c.enable (recEng e)) 3 = false → r.taken = [] →
    let t := c.engineFault e code soft word
    let y := t.eng e
    e.val < 16 →
      y.faulted = true ∧ y.faultCode = code ∧ y.softCode = soft ∧ y.faultWord = word ∧ y.faultPc = (c.eng e).pc ∧ y.faultSlot = r.slot ∧
      y.run = none ∧ y.wait = none ∧ y.loops = [] ∧ y.g = (c.eng e).g ∧ y.w = (c.eng e).w ∧ y.p = (c.eng e).p ∧ y.lm = (c.eng e).lm ∧
      y.queue = (c.eng e).queue ∧ y.tickets = (c.eng e).tickets ∧ y.confirmed = (c.eng e).confirmed ∧
      bitAt (t.blk (recEng e)).cause 3 = true ∧ (∀ b, b ≠ 3 → bitAt (t.blk (recEng e)).cause b = bitAt (c.blk (recEng e)).cause b) ∧
      (∀ o : Nat, o ≠ e.val → t.eng o = c.eng o) ∧ (∀ o, o ≠ recEng e → t.blk o = c.blk o) ∧
      t = { c with engines := t.engines, blocks := t.blocks }) ∧
  (
  ∀ (s : State) (e : Eng) (r : Run) (d a b : BitVec 5),
    let x := s.chip.eng e
    let i := Instr.eq e d a b
    x.run = some r → s.chip.executes e = true →
    (x.haltPending = true → exec i s = .next (s.faults e i 7 0)) ∧
    (x.haltPending = false → r.image.codeWords ≤ x.pc → exec i s = .next (s.put (s.chip.engineFault e 6 0 0))) ∧
    (x.haltPending = false → x.pc < r.image.codeWords → r.holds x.pc i = true → 8 ≤ d.toNat → exec i s = .next (s.faults e i 1 0)) ∧
    (x.haltPending = false → x.pc < r.image.codeWords → r.holds x.pc i = false → exec i s = .next s)) ∧
  (
  ∀ (s : State) (e : Eng) (r : Run), s.chip.clocked = true → (s.chip.eng e).run = some r → (s.chip.eng e).wait ≠ some .cycle →
    (∀ w, r.image.code[(s.chip.eng e).pc]? = some w → exec (.wcetExceeded e) s = .next (s.put (s.chip.engineFault e 8 0 w.toNat))) ∧
    (r.image.code = [] → exec (.wcetExceeded e) s =
      .next (s.put (({ s.chip with free := s.chip.free + 1 } : Chip).engineFault e 8 0 (Config.freeValue s.chip.free % 2 ^ 32)))))

/-! ## The time base -/

/-- R101, R105, R106, R857: the first measurement in UNSET steps the counter by minus the offset (PTP), or to TOD_SET (PPS with TOD_PENDING, FREE): a new epoch
begins, the time base is LOCKING, or LOCKED in FREE, and a TIME_STATE event is raised. R105, R108, R110: a measurement within LOCK_THRESH while LOCKED
keeps the state, the epoch and the counter; the rate becomes what the servo chooses, at most 500 ppm (a free value, log entry 4). An edge on the PPS input
while PTP is the source only leaves its timestamp (R130). R105, R107, R716: when the source is lost, a locking or locked time base enters HOLDOVER, keeps
its rate, its epoch and its counter, and SOURCE_LOST stands in TMB_'s STATUS. -/
def Obligations.TimeBaseMoves : Prop :=
  (
  ∀ (s : State) (p : Port) (off : Int),
    let m := s.chip.tmb
    let fr (t : State) : Prop := t.pending = s.pending ∧ t.chip.tmb.epoch = (m.epoch + 1) % 2 ^ 16 ∧ t.chip.tmb.lockedEpoch = decide (t.chip.tmb.state = .locked) ∧
      t.chip.raised.length = s.chip.raised.length + 1 ∧ (∀ o, o ≠ 76 → t.chip.blk o = s.chip.blk o)
    s.chip.clocked = true → m.state = .unset → m.following = false → m.wakePending = false →
    (s.chip.timeMode = 0 → bitAt (s.chip.eff 76 0x108 4) p.val = true → off * 65536 ≤ m.now → ∃ t : State, exec (.syncReceive p off) s = .next t ∧ fr t ∧
      t.chip.tmb.state = .locking ∧ t.chip.tmb.slave = some p ∧ (t.chip.tmb.now : Int) = m.now - off * 65536 ∧ t.chip.tmb.rate = m.rate ∧
      t.chip = { s.chip with tmb := t.chip.tmb, evr := t.chip.evr, admNext := t.chip.admNext, par := t.chip.par, raised := t.chip.raised, pools := t.chip.pools
                             blocks := t.chip.blocks }) ∧
    (s.chip.timeMode = 1 → m.todPending = true → ∃ t : State, exec .ppsInEdge s = .next t ∧ fr t ∧ t.chip.tmb.state = .locking ∧ t.chip.tmb.todPending = false ∧
      t.chip.tmb.now = s.chip.eff 76 0x130 0 * 1000000000 * 65536 ∧ t.chip.tmb.ppsInTs = s.chip.nowLayout) ∧
    (s.chip.timeMode = 2 → m.freeAfterSiding = false → ∃ t : State, exec .freeMeasurement s = .next t ∧ t.pending = s.pending ∧ t.chip.tmb.state = .locked ∧
      t.chip.tmb.epoch = (m.epoch + 1) % 2 ^ 16 ∧ t.chip.tmb.now = s.chip.eff 76 0x130 0 * 1000000000 * 65536 ∧
      t.chip.tmb.rate = toSigned 32 (s.chip.eff 76 0x128 0) ∧ t.chip.pulses = s.chip.pulses ++ [0xF1] ∧ t.chip.rma.ready = true)) ∧
  (
  ∀ (s : State) (p : Port) (off : Int),
    let m := s.chip.tmb
    (s.chip.clocked = true → m.state = .locked → m.following = false → m.offsetLarge = false → s.chip.timeMode = 0 →
      bitAt (s.chip.eff 76 0x108 4) p.val = true → off.natAbs ≤ s.chip.eff 76 0x110 0 → off.natAbs ≤ 1000 * s.chip.eff 76 0x110 16 →
      ∃ v : Int, exec (.syncReceive p off) s = .next (s.put { s.chip with
          tmb := { m with slave := some p, offset := satInt (2 ^ 31 - 1) off, measured := true, run := 0, rate := v }
          free := s.chip.free + 1 }) ∧ -32768000 ≤ v ∧ v ≤ 32768000) ∧
    (s.chip.clocked = true → s.chip.timeMode ≠ 1 → exec .ppsInEdge s =
      .next (s.put { s.chip with tmb := { m with ppsInTs := s.chip.nowLayout, ppsInSeen := true } }))) ∧
  (
  ∀ s : State,
    let m := s.chip.tmb
    s.chip.clocked = true → s.chip.timeMode ≠ 2 → m.following = false → (m.state = .locking ∨ m.state = .locked) → bitAt (s.chip.enable 76) 3 = false →
    ∃ t : State, exec .sourceLost s = .next t ∧ t.pending = s.pending ∧ t.chip.tmb.state = .holdover ∧ t.chip.tmb.rate = m.rate ∧ t.chip.tmb.epoch = m.epoch ∧
      t.chip.tmb.now = m.now ∧ t.chip.tmb.slave = none ∧ bitAt (t.chip.blk 76).cause 3 = true ∧ bitAt (t.chip.blk 76).level 3 = true ∧
      (∀ o, o ≠ 76 → t.chip.blk o = s.chip.blk o) ∧ t.chip.raised.length = s.chip.raised.length + 1 ∧
      t.chip = { s.chip with tmb := t.chip.tmb, evr := t.chip.evr, admNext := t.chip.admNext, par := t.chip.par, raised := t.chip.raised, pools := t.chip.pools
                             blocks := t.chip.blocks })

/-- R113–R115, R201, R581: TIME_REEPOCH from a writer that reaches the register space. Line 0xF2 pulses, the time base is UNSET at its nominal rate, every
Treadle engine is stopped with its port idled, and a stripe engine that waits in WAITT goes on with REEPOCH. A writer that does not reach it changes
nothing. R127–R129: PPS_OUT rises at the next whole second plus OFFSET, not before half a second after its latest rise, and falls once its WIDTH has
passed. R219: a whole second while VALID is set pulses line 0xF0. R122: a PTP message leaves a port that runs PTP, and its timestamp is NOW. -/
def Obligations.TimeOutputsAndReepoch : Prop :=
  (
  ∀ (s : State) (w : Who), s.chip.clocked = true →
    (Who.mayWrite w s.chip = true → ∃ t : State, exec (.timeReepoch w) s = .next t ∧ t.pending = s.pending ∧ t.chip.tmb.state = .unset ∧
      t.chip.tmb.rate = 0 ∧ t.chip.tmb.now = s.chip.tmb.now ∧ t.chip.tmb.epoch = s.chip.tmb.epoch ∧ t.chip.pulses = s.chip.pulses ++ [0xF2] ∧
      (∀ p : Port, (s.chip.port p).state ≠ .faulted → (t.chip.port p).state = .stopped) ∧
      (∀ p : Port, (t.chip.eng (16 + p.val)).run = none ∧ (t.chip.port p).hold = false ∧ (t.chip.port p).heddles = s.chip.eff (recTrd p) 0x124 0) ∧
      (∀ (e : Se) (d u : Nat), (s.chip.eng e).wait = some (.waitt d u) → t.chip.eng e = { ((s.chip.eng e).setG d 2).advance with wait := none }) ∧
      (∀ e : Se, (∀ d u, (s.chip.eng e).wait ≠ some (.waitt d u)) → t.chip.eng e = s.chip.eng e)) ∧
    (Who.mayWrite w s.chip = false → exec (.timeReepoch w) s = .next s)) ∧
  (
  ∀ (s : State) (p : Port), s.chip.clocked = true →
    let m := s.chip.tmb
    (m.ppsOut = false → s.chip.timeValid = true → s.chip.eff 76 0x138 0 ≠ 0 → m.lastPpsRise = none → m.now ≤ s.chip.nextPps * 65536 →
      exec .ppsOutRise s = .next (s.put { s.chip with
        tmb := { m with now := s.chip.nextPps * 65536, up := m.up + (s.chip.nextPps * 65536 - m.now), ppsOut := true
                        lastPpsRise := some (m.up + (s.chip.nextPps * 65536 - m.now)) }
        out := s.chip.out ++ [.pps true] })) ∧
    (∀ u, m.ppsOut = true → m.lastPpsRise = some u → m.up ≤ u + s.chip.eff 76 0x138 8 * 65536000 → ∃ k, exec .ppsOutFall s = .next (s.put { s.chip with
        tmb := { m with now := m.now + k, up := u + s.chip.eff 76 0x138 8 * 65536000, ppsOut := false }
        out := s.chip.out ++ [.pps false] })) ∧
    (s.chip.timeValid = true → ∃ n, exec .wholeSecond s = .next (s.put { s.chip with
        tmb := { m with now := m.now + n, up := m.up + n }, pulses := s.chip.pulses ++ [0xF0] }) ∧ (m.now + n) % 65536000000000 = 0 ∧ n < 65536000000000) ∧
    ((s.chip.port p).linkUp = true → bitAt (s.chip.eff 76 0x108 4) p.val = true → ∃ b, exec (.ptpMessageSend p) s = .next (s.put { s.chip with
        ports := (s.chip.setPort p { s.chip.port p with ptpTx := s.chip.nowLayout }).ports, out := s.chip.out ++ [.frame p.val .ptp b] })))

/-! ## Places, events, causes, the recorder -/

/-- R30, R32, R320, R687: an event that happens is admitted at one place of the admission order, carries it, and is raised once, to exactly the functions that
it reaches; the next admission takes the place after it. A FENCED or STANDBY unit takes places from its granted block while that lasts. R758–R764: a
happening of an enabled kind is stored at the ring's next record with the next RSEQ, unless the recorder is frozen, or full and told to stop: then it is
counted as dropped. A happening of a kind that is not enabled leaves no trace. -/
def Obligations.EventsAndTheRecorder : Prop :=
  (
  ∀ (c : Chip) (type info data : Nat),
    let t := c.happen type info data
    let ev : Ev := { type := type, info := info, data := data % 2 ^ 32, seq := c.nextPlace }
    t.raised = c.raised ++ [{ ev := ev, targets := (List.range 128).filter fun f => c.reaches type f }] ∧
    (c.par.role = .active ∨ c.par.role = .alone ∨ c.par.blockLeft = 0 → c.nextPlace = c.admNext ∧ t.admNext = (c.admNext + 1) % 2 ^ 48 ∧
      t.par = { c.par with lastTaken := c.admNext }) ∧
    ((c.par.role = .standby ∨ c.par.role = .fenced) → 0 < c.par.blockLeft → c.nextPlace = c.par.blockNext ∧ t.admNext = c.admNext ∧
      t.par = { c.par with blockNext := (c.par.blockNext + 1) % 2 ^ 48, blockLeft := c.par.blockLeft - 1, lastTaken := c.par.blockNext }) ∧
    t = { c with raised := t.raised, admNext := t.admNext, par := t.par, pools := t.pools } ∧ ∀ p, p ≠ 5 → t.pool p = c.pool p) ∧
  (
  ∀ (c : Chip) (kind rec code a0 a1 : Nat),
    let t := c.record kind rec code a0 a1
    let stop := c.eff 92 0x100 9 = 1 ∧ c.evr.wrapped = true
    t = { c with evr := t.evr } ∧
    (bitAt (c.eff 92 0x100 1) (kind - 1) = false → t = c) ∧
    (bitAt (c.eff 92 0x100 1) (kind - 1) = true → (c.evr.frozen = true ∨ stop) → t.evr = { c.evr with dropped := min (c.evr.dropped + 1) (2 ^ 32 - 1) }) ∧
    (bitAt (c.eff 92 0x100 1) (kind - 1) = true → c.evr.frozen = false → ¬ stop →
      tget t.evr.ring {} c.evr.next = { time := c.nowLayout, rseq := c.evr.rseq, kind := kind, record := rec, code := code, seq := c.admNext
                                        arg0 := a0 % 2 ^ 32, arg1 := a1 % 2 ^ 32 } ∧
      (∀ k, k ≠ c.evr.next → tget t.evr.ring {} k = tget c.evr.ring {} k) ∧ t.evr.next = (c.evr.next + 1) % 65536 ∧ t.evr.rseq = (c.evr.rseq + 1) % 2 ^ 32))

/-- R725–R728: a cause that is set stands in STATUS whatever ENABLE says. Without its ENABLE bit, or when it stood already, nothing else happens. Enabled,
newly set and in a block that handles nothing, with no reaction and no ERR_OUT chosen, it starts the handling with FIRST and its record; in a block that
handles, it merges. R730: the end of a level cause's condition leaves its bit in STATUS. R729, R730, R232: STATUS_W1C clears the event causes it names, and
level causes whose condition has ended; at CAUSE 0 the block stops handling. Stated of a block whose named causes are not among those that no command sees
end, without the engines' bit 3. R716, R804, R839: what the monitors report sets its level cause, and the report of an ECC or a checker its own. -/
def Obligations.Causes : Prop :=
  (
  ∀ (c : Chip) (r bit : Nat), bit < 16 →
    let t := c.setCause r bit
    let b := c.blk r
    let old := b.cause
    (bitAt (c.enable r) bit = false ∨ bitAt old bit = true → t = c.setBlk r { b with cause := old ||| 2 ^ bit }) ∧
    (bitAt (c.enable r) bit = true → bitAt old bit = false → b.handling = false → c.react r bit = 0 →
      t.blk r = { b with cause := old ||| 2 ^ bit, handling := true, place := c.nextPlace, first := bit, reacted := 0, errOut := false } ∧
      (∀ o, o ≠ r → t.blk o = c.blk o) ∧ t = { c with blocks := t.blocks, evr := t.evr }) ∧
    (bitAt (c.enable r) bit = true → bitAt old bit = false → b.handling = true →
      t.blk r = { b with cause := old ||| 2 ^ bit, late := b.late ||| 2 ^ bit, merged := min (b.merged + 1) (2 ^ 32 - 1)
                         watch := if b.watch.contains bit then b.watch else b.watch ++ [bit] } ∧
      (∀ o, o ≠ r → t.blk o = c.blk o) ∧ t = { c with blocks := t.blocks, evr := t.evr }) ∧
    (bitAt b.level bit = true → c.setLevel r bit false = c.setBlk r { b with level := b.level - 2 ^ bit })) ∧
  (
  ∀ (s : State) (w : Who) (r : Rec) (v : W32), s.chip.clocked = true → r ≠ 0 →
    let c := s.chip
    let b := c.blk r
    (Who.mayWrite w c = true → (∀ k < 16, bitAt v.toNat k = true → unseenLevel r k = false ∧ ¬ (r = 90 ∧ k = 4)) → bitAt v.toNat 3 = false →
      let gone := (b.cause &&& (v.toNat % 2 ^ 16)) - ((b.cause &&& (v.toNat % 2 ^ 16)) &&& b.level)
      let left := b.cause - gone
      exec (.statusW1C w r v) s = .next (s.put (Chip.releaseErr (c.setBlk r { b with
        cause := left, handling := b.handling && left != 0, watch := b.watch.filter fun k => bitAt left k && left != 0 })))) ∧
    exec (.eccUncorr r) s = .next (s.put (c.setCause r 0)) ∧ exec (.checkerMismatch r) s = .next (s.put (c.setCause r 1)) ∧
    exec (.configScrub (some r)) s = .next (s.put (c.setLevel r 2 true)) ∧ exec (.configScrub none) s = .next s ∧
    exec .supplyExcursion s = .next (s.put (Chip.setLevel { c with pwr := { c.pwr with supplyBad := true } } 88 3 true)) ∧
    exec .overTemperature s = .next (s.put (Chip.setLevel { c with pwr := { c.pwr with hot := true } } 88 4 true)) ∧
    (∀ k : Fin 6, (k.val, false) ∉ c.pwr.clkBad → bitAt c.pwr.clkLocked k = true → exec (.clockFault k .loss) s = .next (s.put (Chip.setLevel { c with
      pwr := { c.pwr with clkLocked := c.pwr.clkLocked - 2 ^ k.val, clkBad := c.pwr.clkBad ++ [(k.val, false)] } } 87 3 true))) ∧
    (∀ k : Fin 6, (k.val, true) ∉ c.pwr.clkBad → exec (.clockFault k .freq) s =
      .next (s.put (Chip.setLevel { c with pwr := { c.pwr with clkBad := c.pwr.clkBad ++ [(k.val, true)] } } 87 4 true))))

/-! ## Shuttles -/

/-- R339, R346, R351–R353, R859: a descriptor is carried out whole. After the last of its chain the channel is IDLE, the chain's slots return and line n
pulses; after another, a STOP that waits ends the chain without a pulse, a PAUSE that waits pauses it, and otherwise the next descriptor runs. R360: a MOVE
without guard, checksum or transform within stripe staging, its source and destination apart, copies its bytes, and changes no other byte of any memory.
R346: the end of a chain leaves the channel IDLE with its cause, and gives the chain's slots back to their pool. -/
def Obligations.ChainsRun : Prop :=
  (
  ∀ (s : State) (n : Chan) (hd : List Byte) (d : Desc),
    let h := s.chip.chan n
    let c := s.chip.runDesc n d hd
    s.chip.clocked = true → h.state = .running → h.chain[h.desc]? = some d →
    (d.last = true → exec (.descriptorComplete n hd) s = .next (s.put ((c.endChain n 0).pulse n))) ∧
    (d.last = false → h.stopPend = true → exec (.descriptorComplete n hd) s = .next (s.put (c.endChain n 1))) ∧
    (d.last = false → h.stopPend = false → h.pausePend = true → exec (.descriptorComplete n hd) s =
      .next (s.put (c.setChan n { c.chan n with state := .paused, pausePend := false }))) ∧
    (d.last = false → h.stopPend = false → h.pausePend = false → exec (.descriptorComplete n hd) s =
      .next (s.put (c.setChan n { c.chan n with desc := h.desc + 1, tries := 0, retryAddr := none })))) ∧
  (
  ∀ (c : Chip) (n : Chan) (d : Desc) (hd : List Byte), d.op = 1 → d.guard = 0 → d.crc = 0 → d.srcSpace = 1 → d.dstSpace = 1 →
    (d.src + d.len ≤ d.dst ∨ d.dst + d.len ≤ d.src) →
    let t := c.runDesc n d hd
    (∀ k, k < d.len → mget zeros t.stg (d.dst + k) = mget zeros c.stg (d.src + k)) ∧
    (∀ y, (y < d.dst ∨ d.dst + d.len ≤ y) → mget zeros t.stg y = mget zeros c.stg y) ∧
    t = { c with stg := t.stg, channels := t.channels } ∧ (∀ m, m ≠ n.val → t.chan m = c.chan m) ∧
    (t.chan n).written = (c.chan n).written + d.len ∧ (t.chan n).state = (c.chan n).state) ∧
  (
  ∀ (c : Chip) (n by0 : Nat),
    let t := c.endChain n by0
    let k := (c.chan n).chain.length
    t.chan n = { c.chan n with state := .idle, endBy := by0, pausePend := false, stopPend := false } ∧ (∀ m, m ≠ n → t.chan m = c.chan m) ∧
    (k ≤ (c.pool 4).held → t.pool 4 = { c.pool 4 with returned := (c.pool 4).returned + k, held := (c.pool 4).held - k }) ∧
    (∀ p, p ≠ 4 → t.pool p = c.pool p) ∧ t = { c with channels := t.channels, pools := t.pools })

/-- R346, R347: PAUSE, RESUME, STOP, CUT and CLEAR from firmware, each in the states in which it acts. R355, R356: a read error halts the channel; HALT_INFO
and HALT_ADDR hold the cause, the descriptor and the address, CH_HALT stands, and the engine that issued the chain faults at its next instruction boundary.
A read of host memory that times out is retried up to RETRIES times at its address, and then halts with cause 4. -/
def Obligations.ChannelsAreControlled : Prop :=
  (
  ∀ (s : State) (w : Who) (n : Chan), s.chip.clocked = true → Who.internal w s.chip = true →
    let h := s.chip.chan n
    (h.state = .running → exec (.pause w n) s = .next (s.put (s.chip.setChan n { h with pausePend := true }))) ∧
    (h.state = .paused → exec (.resume w n) s =
      .next (s.put (s.chip.setChan n { h with state := .running, desc := h.desc + 1, tries := 0, retryAddr := none }))) ∧
    (h.state = .running → exec (.stop w n) s = .next (s.put (s.chip.setChan n { h with stopPend := true }))) ∧
    (h.state = .paused → exec (.stop w n) s = .next (s.put (s.chip.endChain n 1))) ∧
    (h.state = .paused → exec (.cut w n) s = .next (s.put (s.chip.endChain n 2))) ∧
    (h.state = .running → h.desc < h.chain.length → ∃ t : State, exec (.cut w n) s = .next t ∧ t.pending = s.pending ∧ (t.chip.chan n).state = .idle ∧
      (t.chip.chan n).endBy = 2 ∧ (∀ m, m ≠ n.val → t.chip.chan m = s.chip.chan m)) ∧
    (h.state = .halted → (∀ i, i < 8 → 8 * (n.val / 8) + i ≠ n.val → (s.chip.chan (8 * (n.val / 8) + i)).state ≠ .halted) →
      ∃ l, exec (.clear w n) s = .next (s.put ((s.chip.setChan n { h with state := .idle }).modBlk (recSht (n.val / 8)) fun b => { b with level := l })) ∧
        bitAt l 3 = false)) ∧
  (
  ∀ (s : State) (n : Chan) (cause : BitVec 3) (addr : W64) (d : Desc),
    let h := s.chip.chan n
    let halted (t : State) (k : Nat) : Prop := t.pending = s.pending ∧ (t.chip.chan n).state = .halted ∧ (t.chip.chan n).endBy = 3 ∧ (t.chip.chan n).haltCause = k ∧
      (t.chip.chan n).haltDesc = h.desc ∧ (t.chip.chan n).haltAddr = addr.toNat ∧ bitAt (t.chip.blk (recSht (n.val / 8))).cause 3 = true ∧
      (t.chip.eng h.issuer).haltPending = true ∧ (t.chip.eng h.issuer).run = (s.chip.eng h.issuer).run
    s.chip.clocked = true → h.state = .running → h.chain[h.desc]? = some d → bitAt (s.chip.enable (recSht (n.val / 8))) 3 = false → h.issuer < 16 →
    (s.chip.eng h.issuer).run.isSome = true →
    (d.srcSpace = 4 → cause.toNat = 1 ∨ cause.toNat = 2 ∨ cause.toNat = 3 → ∃ t : State, exec (.shuttleReadError n cause addr) s = .next t ∧ halted t cause.toNat) ∧
    (d.srcSpace ≠ 4 → cause.toNat = 5 → ∃ t : State, exec (.shuttleReadError n cause addr) s = .next t ∧ halted t 5) ∧
    (d.srcSpace = 4 → h.retryAddr = some addr.toNat → h.tries < h.retries → exec (.hostReadTimeout n addr) s =
      .next (s.put (s.chip.setChan n { h with tries := h.tries + 1 }))) ∧
    (d.srcSpace = 4 → h.retryAddr = some addr.toNat → h.retries ≤ h.tries → ∃ t : State, exec (.hostReadTimeout n addr) s = .next t ∧ halted t 4 ∧
      (t.chip.chan n).haltTries = h.tries))

/-! ## Configuration -/

/-- R52, R53, R57, R70: a whole 32-bit or 64-bit write from a writer that reaches the register space changes the shadow values of the RWS fields it covers,
each clamped on its own, and counts once in SHADOW_GEN; the accepted and the effective set stay. Any other write changes nothing. R70, R855: a clamp keeps
a value in range and says nothing; it takes a value out of range to the near end of its span, or keeps the previous one where the value is no code of the
field. -/
def Obligations.ShadowWrites : Prop :=
  (
  ∀ (s : State) (a : Access) (r : Rec) (off : Nat), s.chip.clocked = true → a.tgt = .block r off →
    let b := s.chip.blk r
    let fs := fieldsIn r (8 * off) (8 * (off + a.size))
    (Who.mayWrite a.who s.chip = true → okWrite a.size a.full off (blockSize r) = true → (a.size = 4 → wide r (off / 8 * 8) = false) → fs ≠ [] →
      ∃ sh cl la, exec (.rwsWrite a) s = .next (s.put (s.chip.setBlk r { b with shadow := sh, clamp := cl, latch := la, gen := (b.gen + 1) % 2 ^ 16 })) ∧
        ∀ f, fs = [f] → 8 * off ≤ f.lsb → f.lsb + f.width ≤ 8 * (off + a.size) → tget b.shadow f.reset f.lsb < 2 ^ f.width →
          tget sh f.reset f.lsb = (clampField f (tget b.shadow f.reset f.lsb) (bits a.value.toNat (f.lsb - 8 * off) f.width)).1 ∧
          ∀ k, k ≠ f.lsb → ∀ d, tget sh d k = tget b.shadow d k) ∧
    (Who.mayWrite a.who s.chip = false ∨ a.full = false ∨ (a.size ≠ 4 ∧ a.size ≠ 8) ∨ off % a.size ≠ 0 → exec (.rwsWrite a) s = .next s)) ∧
  (
  ∀ (f : Fld) (old v : Nat),
    (f.clamp = .any → clampField f old v = (v, 0)) ∧
    (∀ lo hi, f.clamp = .span lo hi → lo ≤ hi →
      (lo ≤ v → v ≤ hi → clampField f old v = (v, 0)) ∧ (v < lo → clampField f old v = (lo, 2)) ∧ (hi < v → clampField f old v = (hi, 1))) ∧
    (∀ n, f.clamp = .codes n → clampField f old v = if v < n then (v, 0) else (old, 4)) ∧
    (∀ m, f.clamp = .ones m → (clampField f old v).1 = v ||| m ∧ ((clampField f old v).2 = 0 ↔ v ||| m = v)) ∧
    (f.clamp = .fixed → clampField f old v = if v = old then (v, 0) else (old, 4)))

/-- R73, R75, R72, R87: GO takes the shadow for its checks, and with USE_KEY notes whether the key is the SHADOW_GEN it met; a GO while the checks run is
dropped. DISCARD makes the shadow the accepted set and counts in SHADOW_GEN. CLAMP_LOG is cleared whole. R76–R80: the checks of a GO complete. A wrong key
refuses the commit with reason 2, a failing check with reason 1 and the check's number; a refused commit changes no accepted or effective value. Otherwise
the set is accepted and staged. -/
def Obligations.Commits : Prop :=
  (
  ∀ (s : State) (w : Who) (r : Rec) (useKey : Bool) (key : BitVec 16), s.chip.clocked = true → Who.mayWrite w s.chip = true → r ≠ 0 →
    let b := s.chip.blk r
    (b.taken = none → b.groupHeld = false → exec (.go w r useKey key) s =
      .next (s.put (s.chip.setBlk r { b with taken := some ⟨b.shadow, !useKey || decide (key.toNat = b.gen)⟩ }))) ∧
    (b.taken.isSome = true ∨ b.groupHeld = true → exec (.go w r useKey key) s = .next (s.put (s.chip.setBlk r { b with goDropped := true }))) ∧
    (b.taken = none → exec (.discard w r) s = .next (s.put (s.chip.setBlk r { b with shadow := b.accepted, gen := (b.gen + 1) % 2 ^ 16 }))) ∧
    exec (.clampLogClear w r) s = .next (s.put (s.chip.setBlk r { b with clamp := {} }))) ∧
  (
  ∀ (s : State) (r : Rec) (k : GoTaken), s.chip.clocked = true →
    let b := s.chip.blk r
    b.taken = some k →
    (k.keyOk = false → kindOf r ≠ .trd → exec (.commitChecksDone r) s =
      .next (s.put (s.chip.setBlk r { b with taken := none, lastRefused := true, err := { valid := true, reason := 2 } }))) ∧
    (∀ f, k.keyOk = true → kindOf r ≠ .trd → checks s.chip (s.chip.viewOne r k.set) r = some f → exec (.commitChecksDone r) s =
      .next (s.put (s.chip.setBlk r { b with taken := none, lastRefused := true, err := errOf r f }))) ∧
    (k.keyOk = true → kindOf r ≠ .trd → checks s.chip (s.chip.viewOne r k.set) r = none → exec (.commitChecksDone r) s =
      .next (s.put (s.chip.setBlk r { b with taken := none, accepted := k.set, staged := true, lastRefused := false, err := {} }))) ∧
    (k.keyOk = true → kindOf r = .trd → checks s.chip (s.chip.viewOne r k.set) r = none → ∃ t : State, exec (.commitChecksDone r) s = .next t ∧
      t.pending = s.pending ∧ t.chip.blk r = { b with taken := none, accepted := k.set, staged := true, lastRefused := false, err := {} } ∧
      (t.chip.port (instOf r)).acceptedAt = s.chip.nowNs ∧
      ((s.chip.port (instOf r)).state = .stopped → fieldOf r k.set 0x108 0 = 1 → (t.chip.port (instOf r)).state = .armed) ∧
      t.chip = { s.chip with blocks := t.chip.blocks, ports := t.chip.ports }))

/-- R84, R85: a staged set takes effect at its boundary: it is the effective set from then on, STAGED clears, and CFG_EPOCH counts. Stated of the blocks whose
set has no further consequence and raises no standing cause; a TMB_ set takes effect at the next whole microsecond. -/
def Obligations.SetTakesEffect : Prop :=
  ∀ (s : State) (r : Rec), s.chip.clocked = true → r ≠ 0 →
    let b := s.chip.blk r
    b.staged = true → b.groupHeld = false → s.chip.atBoundary r = true →
    (kindOf r ∉ [Kind.tmb, .trd, .stm, .pwr, .age, .mbr] → b.cause = 0 → ∃ t : State, exec (.setApply r) s = .next t ∧ t.pending = s.pending ∧
      (∃ l, t.chip.blk r = { b with effective := b.accepted, staged := false, epoch := (b.epoch + 1) % 2 ^ 32, level := l } ∧ bitAt l 2 = false) ∧
      (∀ o, o ≠ r.val → t.chip.blk o = s.chip.blk o) ∧ t.chip = { s.chip with blocks := t.chip.blocks, evr := t.chip.evr }) ∧
    (kindOf r = .mbr → b.cause = 0 → ∃ t : State, exec (.setApply r) s = .next t ∧ t.chip.eff r 0x100 16 = s.chip.eff r 0x100 16 ∧
      (t.chip.blk r).staged = false ∧ ∀ k, k ≠ 8 * 0x100 + 16 → ∀ d, tget (t.chip.blk r).effective d k = tget b.accepted d k) ∧
    (kindOf r = .tmb → exec (.setApply r) s = .next (s.put (s.chip.toMicrosecond.applyOne r)) ∧ s.chip.toMicrosecond.tmb.now % 65536000 = 0) ∧
    (kindOf r ∈ [Kind.stm, .pwr, .age] → exec (.setApply r) s = .next (s.put (s.chip.afterSet (s.chip.takeSet r) r)))

/-- R92–R96: GROUP_COMMIT_GO accepts the shadows of every listed block at once and holds them, or refuses the whole list and accepts none; a GO while one is
under way is dropped. R96: the held sets of a group take effect at one instant, and the group is no longer under way. Stated of the blocks whose set has no
further consequence. -/
def Obligations.GroupCommits : Prop :=
  (
  ∀ (s : State) (w : Who), s.chip.clocked = true → Who.mayWrite w s.chip = true →
    let g := s.chip.group
    let rs := g.listed.map (·.2)
    (g.busy = true → exec (.groupCommitGo w) s = .next (s.put { s.chip with group := { g with goDropped := true } })) ∧
    (g.busy = false → groupBad rs = true → exec (.groupCommitGo w) s =
      .next (s.put { s.chip with group := { g with lastRefused := true, reason := 4, failedSlot := 0 } })) ∧
    (g.busy = false → groupBad rs = false → (∃ r ∈ rs, (s.chip.blk r).taken.isSome = true ∨ (s.chip.blk r).staged = true) → exec (.groupCommitGo w) s =
      .next (s.put { s.chip with group := { g with lastRefused := true, reason := 5, failedSlot := 0 } })) ∧
    (g.busy = false → groupBad rs = false → (∀ r ∈ rs, (s.chip.blk r).taken = none ∧ (s.chip.blk r).staged = false) →
      groupFail s.chip (s.chip.viewGroup rs) g.listed = none → ∃ t : State, exec (.groupCommitGo w) s = .next t ∧ t.pending = s.pending ∧
        t.chip.group = { g with busy := true, lastRefused := false, reason := 0, failedSlot := 0 } ∧
        (∀ r ∈ rs, t.chip.blk r = { s.chip.blk r with accepted := (s.chip.blk r).shadow, staged := true, lastRefused := false, err := {}, groupHeld := true }) ∧
        (∀ r, r ∉ rs → t.chip.blk r = s.chip.blk r) ∧ t.chip = { s.chip with blocks := t.chip.blocks, group := t.chip.group })) ∧
  (
  ∀ s : State, s.chip.clocked = true → s.chip.group.busy = true →
    (∀ r ∈ s.chip.heldBlocks, kindOf r ∉ [Kind.tmb, .trd, .stm, .pwr, .age, .mbr] ∧ (s.chip.blk r).cause = 0 ∧ (s.chip.blk r).staged = true) →
    ∃ t : State, exec .groupCommitApply s = .next t ∧ t.pending = s.pending ∧ t.chip.group = { s.chip.group with busy := false } ∧
      (∀ r ∈ s.chip.heldBlocks, (t.chip.blk r).effective = (s.chip.blk r).accepted ∧ (t.chip.blk r).staged = false ∧ (t.chip.blk r).groupHeld = false ∧
        (t.chip.blk r).epoch = ((s.chip.blk r).epoch + 1) % 2 ^ 32) ∧
      (∀ r, r ∉ s.chip.heldBlocks → t.chip.blk r = s.chip.blk r) ∧ t.chip = { s.chip with blocks := t.chip.blocks, group := t.chip.group, evr := t.chip.evr })

/-- R7, R52, R53, R55–R57, R135: register writes without a row of their own. GO_DROPPED clears as it is written with 1; a slot pair of the group list takes the
word; a hole and a writer that does not reach the register space change nothing. The lower half of a 64-bit register waits in its latch until the upper
half is written, and both then take effect. A read of NOW's lower half holds the upper one for its requester. -/
def Obligations.RegisterWrites : Prop :=
  ∀ (s : State) (a : Access), s.chip.clocked = true →
    let v := a.value.toNat
    (∀ r : Rec, a.tgt = .block r 4 → r ≠ 0 → a.size = 4 → a.full = true → Who.mayWrite a.who s.chip = true → bitAt v 4 = true →
      exec (.registerWrite a) s = .next (s.put (s.chip.setBlk r { s.chip.blk r with goDropped := false }))) ∧
    (∀ k, a.tgt = .block 0 (0xF000 + 4 * k) → k < 4 → a.size = 4 → a.full = true → Who.mayWrite a.who s.chip = true →
      exec (.registerWrite a) s =
        .next (s.put { s.chip with group := { s.chip.group with list := tput s.chip.group.list 0xFFFFFFFF k (v % 2 ^ 32) } })) ∧
    (a.tgt = .hole → exec (.registerWrite a) s = .next s) ∧
    (∀ r off, a.tgt = .block r off → Who.mayWrite a.who s.chip = false → exec (.registerWrite a) s = .next s) ∧
    (∀ (r : Rec) (off : Nat), a.tgt = .block r off → wide r off = true → a.size = 4 → a.full = true → off + 8 ≤ blockSize r → Who.mayWrite a.who s.chip = true →
      exec (.lowerHalfWrite a) s = .next (s.put (s.chip.setBlk r { s.chip.blk r with latch := tput (s.chip.blk r).latch none off (some (v % 2 ^ 32)) }))) ∧
    (∀ n lo, n < 8 → a.tgt = .block 89 (0x100 + 16 * n + 4) → a.size = 4 → a.full = true → Who.mayWrite a.who s.chip = true →
      s.chip.latched 89 (0x100 + 16 * n) = some lo → lo < 2 ^ 32 → ∃ t : State, exec (.upperHalfWrite a) s = .next t ∧ t.pending = s.pending ∧
        (t.chip.cmp n).target = (lo + v % 2 ^ 32 * 2 ^ 32) % 2 ^ 48 ∧ t.chip.latched 89 (0x100 + 16 * n) = none ∧
        (∀ m, m ≠ n → t.chip.cmp m = s.chip.cmp m) ∧ t.chip = { s.chip with aon := t.chip.aon, blocks := t.chip.blocks }) ∧
    (Who.mayWrite a.who s.chip = true → exec (.nowLowerRead a.who false) s =
      .next (s.put { s.chip with tmb := { s.chip.tmb with nowUpper := tput s.chip.tmb.nowUpper 0 (requester a.who) (s.chip.nowLayout / 2 ^ 32) } }))

/-! ## The scheduled network -/

/-- R573–R575: a port whose SPEED is not off links, and verify runs where PREEMPT_EN is set; its result is kept; a link that goes down loses the frame in
progress. Each posts LINK_STATE. R142–R144, R580, R581: the next cycle start of an armed port in a locked epoch starts its program: the port is RUNNING, g1
holds the cycle start in NOW layout, g2 its number, g3 to g6 the slot parameters, every other g register and p1 to p7 are 0, the loop stack is empty, and
the engine stands at entry point 0. The machine's time reaches the cycle start. R582: an idled port has its heddles at TRD_IDLE.GATES, no hold request and
no wake request, and its engine runs nothing. R587: a run of TGCL sets heddles and the hold request at each listed entry's start, counted from the cycle
start, and then waits for the next cycle. -/
def Obligations.PortsAndCycles : Prop :=
  (
  ∀ (s : State) (p : Port) (ok : Bool), s.chip.clocked = true →
    let x := s.chip.port p
    let fr (t : State) : Prop := t.pending = s.pending ∧ (∀ q, q ≠ p.val → t.chip.port q = s.chip.port q) ∧ t.chip.raised.length = s.chip.raised.length + 1 ∧
      t.chip = { s.chip with ports := t.chip.ports, raised := t.chip.raised, pools := t.chip.pools, admNext := t.chip.admNext, par := t.chip.par }
    (x.linkUp = false → s.chip.eff (recTrd p) 0x100 0 ≠ 0 → ∃ t : State, exec (.portLinkUp p) s = .next t ∧ fr t ∧
      t.chip.port p = { x with linkUp := true, verified := false, verifying := decide (s.chip.eff (recTrd p) 0x100 5 = 1) }) ∧
    (x.linkUp = true → ∃ t : State, exec (.portLinkDown p) s = .next t ∧ fr t ∧
      t.chip.port p = { x with linkUp := false, verified := false, verifying := false, tx := none, preempted := false }) ∧
    (x.verifying = true → ∃ t : State, exec (.mmVerifyResult p ok) s = .next t ∧ fr t ∧ t.chip.port p = { x with verifying := false, verified := ok })) ∧
  (
  ∀ (s : State) (p : Port) (i : Image),
    let e := 16 + p.val
    let k := s.chip.nextStart p
    s.chip.clocked = true → s.chip.vault.stopped = false → (s.chip.blk (recTrd p)).staged = false → s.chip.tmb.lockedEpoch = true →
    (s.chip.slot e (s.chip.eff (recTrd p) 0x108 1)).cur = some i →
    ((s.chip.port p).state = .armed → ∃ t : State, exec (.cycleStart p) s = .next t ∧ t.pending = s.pending ∧ (t.chip.port p).state = .running ∧
      (t.chip.port p).cycleStart = some k.1 ∧ (t.chip.port p).prevStart = none ∧
      (let y := t.chip.eng e
       y.getG 1 = BitVec.ofNat 64 (k.1 * 2 ^ 16) ∧ y.getG 2 = BitVec.ofNat 64 k.2 ∧ (∀ j, j < 4 → y.getG (3 + j) = BitVec.ofNat 64 (i.params.getD j 0)) ∧
       (∀ j, 6 < j → y.getG j = 0) ∧ (∀ j, 0 < j → y.getP j = false) ∧ y.loops = [] ∧ y.wait = none ∧ y.cycleNo = k.2 ∧
       y.pc = (i.entries.getD 0 (0, 0)).1 ∧ y.lm = (s.chip.eng e).lm ∧ ∃ q, y.run = some q ∧ q.image = i) ∧
      (0 < timeDiff k.1 s.chip.nowNs → k.1 < 2 ^ 48 → t.chip.nowNs = k.1) ∧ (∀ o, o ≠ e → t.chip.eng o = s.chip.eng o) ∧
      (∀ q, q ≠ p.val → t.chip.port q = s.chip.port q)) ∧
    ((s.chip.port p).state = .running → (s.chip.eng e).wait = some .cycle → ∃ t : State, exec (.cycleStart p) s = .next t ∧ t.pending = s.pending ∧
      (let y := t.chip.eng e
       y.getG 1 = BitVec.ofNat 64 (k.1 * 2 ^ 16) ∧ y.getG 2 = BitVec.ofNat 64 k.2 ∧ (∀ j, 2 < j → y.getG j = (s.chip.eng e).getG j) ∧
       (∀ j, y.getP j = (s.chip.eng e).getP j) ∧ y.loops = [] ∧ y.wait = none ∧ y.cycleNo = k.2) ∧
      (t.chip.port p).missed = (s.chip.port p).missed ∧ (t.chip.port p).state = .running)) ∧
  (
  ∀ (c : Chip) (p : Port),
    let t := c.idlePort p
    (t.port p).heddles = c.eff (recTrd p) 0x124 0 ∧ (t.port p).hold = false ∧ (t.port p).wakes = [] ∧ (t.port p).cycleStart = none ∧
    (t.eng (16 + p.val)).run = none ∧ (t.eng (16 + p.val)).wait = none ∧ (t.eng (16 + p.val)).actions = [] ∧
    (∀ q, q ≠ p.val → t.port q = c.port q) ∧ (∀ o, o ≠ 16 + p.val → t.eng o = c.eng o) ∧ t = { c with ports := t.ports, engines := t.engines }) ∧
  (
  ∀ (s : State) (p : Port) (r : Run), s.chip.clocked = true → s.chip.stock (16 + p.val) 0x10010 0 = some r →
    ∃ acts, exec (.tgclCycle p) s = .next (s.put (s.chip.setEng (16 + p.val) { s.chip.eng (16 + p.val) with
        actions := (s.chip.eng (16 + p.val)).actions ++ acts, wait := some .cycle, anchor := none })) ∧
      (∀ e0 rest, r.image.params.flatMap (fun v => [bits v 0 32, bits v 32 32]) = e0 :: rest → bits e0 12 20 ≠ 0 → ∃ u, 
        acts = (add48 (((s.chip.eng (16 + p.val)).getG 1).toNat / 2 ^ 16) 0, .gate (bits e0 0 8 * 256 + 255)) ::
               (add48 (((s.chip.eng (16 + p.val)).getG 1).toNat / 2 ^ 16) 0, .hold (bitAt e0 8)) :: u))

/-- R588: a frame goes no further than its timestamps with a bad FCS; one that is too long is counted and dropped; one of a stream with RECOVER set is held;
one of no stream that is neither PTP nor remote memory is counted and dropped. R590: a stream's sequence recovery is reset by its timeout. R576–R578: a
port that serves starts the oldest frame of the highest class that is eligible: it leaves the port's queue and the unit. R614: a landed acknowledgement
counts and takes its body as it leaves. R605: as the opening of a window in the latest cycle closes, the engines of its next opening are reserved, from
that opening's start in the next cycle on. -/
def Obligations.Frames : Prop :=
  (
  ∀ (s : State) (f : Frame), s.chip.clocked = true →
    let c := s.chip.passTo f.last.toNat
    let c1 := c.setPort f.port { c.port f.port with rxFirst := f.first.toNat, rxLast := f.last.toNat }
    let dropped := c1.setPort f.port { c1.port f.port with rxDrop := min ((c1.port f.port).rxDrop + 1) (2 ^ 32 - 1) }
    ((s.chip.port f.port).linkUp = true → f.fcsOk = false → exec (.frameReceive f) s = .next (s.put c1)) ∧
    ((s.chip.port f.port).linkUp = true → f.fcsOk = true → s.chip.eff (recTrd f.port) 0x10C 0 < f.length → exec (.frameReceive f) s = .next (s.put dropped)) ∧
    ((s.chip.port f.port).linkUp = true → f.fcsOk = true → f.length ≤ s.chip.eff (recTrd f.port) 0x10C 0 → s.chip.identifyFrame f = none → f.etype ≠ 0x88F7 →
      f.ip = false → exec (.frameReceive f) s = .next (s.put dropped)) ∧
    (∀ h, (s.chip.port f.port).linkUp = true → f.fcsOk = true → f.length ≤ s.chip.eff (recTrd f.port) 0x10C 0 → s.chip.identifyFrame f = some h →
      s.chip.strF h 0x18 0 = 0 → s.chip.strF h 0x14 24 = 1 → exec (.frameReceive f) s = .next (s.put { c1 with held := s.chip.held ++ [⟨f, h⟩] })) ∧
    (∀ h : Fin 1024, (s.chip.stream h).recov.isSome = true → exec (.frerResetTimeout h) s = .next (s.put { s.chip with
      streams := tput s.chip.streams {} h { s.chip.stream h with recov := none, hist := [], resets := min ((s.chip.stream h).resets + 1) (2 ^ 32 - 1) } }))) ∧
  (
  ∀ (s : State) (p : Port) (f : TxFrame), s.chip.clocked = true → (s.chip.port p).linkUp = true → s.chip.netServes = true → (s.chip.accrue p).nextFrame p = some f →
    (f.kind.qpOf = none → (∀ x, f.kind ≠ .ack x) → ∃ t : State, exec (.frameTransmitStart p) s = .next t ∧ t.pending = s.pending ∧
      (t.chip.port p).queue = (s.chip.port p).queue.erase f ∧ (∃ l, t.chip.out = s.chip.out ++ [.frame p.val f.kind l]) ∧
      (∀ q, q ≠ p.val → t.chip.port q = s.chip.port q) ∧ t.chip = { s.chip with ports := t.chip.ports, out := t.chip.out }) ∧
    (∀ x, f.kind = .ack x → s.chip.winF x 7 4 = 0 → ∃ t : State, exec (.frameTransmitStart p) s = .next t ∧ t.pending = s.pending ∧
      (t.chip.port p).queue = (s.chip.port p).queue.erase f ∧ t.chip.out = s.chip.out ++ [.frame p.val f.kind (s.chip.ackBytes x)] ∧
      (t.chip.win x).acks = min ((s.chip.win x).acks + 1) (2 ^ 32 - 1) ∧ (t.chip.win x).ackQueued = false ∧
      (∀ q, q ≠ p.val → t.chip.port q = s.chip.port q) ∧ t.chip = { s.chip with ports := t.chip.ports, out := t.chip.out, wins := t.chip.wins })) ∧
  (
  ∀ (s : State) (x : Fin 256) (t : Nat), s.chip.clocked = true →
    let p := s.chip.winF x 1 0
    let c := s.chip.passTo (add48 t (s.chip.winF x 0xC 0))
    (s.chip.port p).state = .running → (s.chip.port p).cycleStart = some t → (s.chip.win x).live = true →
    ∃ u : State, exec (.windowClose x) s = .next u ∧ u.pending = s.pending ∧ (u.chip.win x).reserved = c.nextOwners x ∧
      (u.chip.win x).resFrom = add48 (add48 t (s.chip.eff (recTrd p) 0x120 0)) (s.chip.winF x 8 0) ∧ (u.chip.win x).next = (s.chip.win x).next ∧
      (∀ y, y ≠ x.val → u.chip.win y = s.chip.win y) ∧ u.chip = { s.chip with wins := u.chip.wins, tmb := u.chip.tmb })

/-- R590, the vector recovery algorithm: the first numbered frame passes; the same number again is a duplicate and does not pass; the next number passes in
order; a number a whole history or more away is rogue and does not pass; a frame without R-TAG passes only where TAKE_NONE is set. R590–R592: the held
frame with the earliest last bit leaves its hold, at the earliest 64 ns after that bit, and recovery decides on it. A frame whose sequence number was seen
is discarded: nothing else happens. -/
def Obligations.SequenceRecovery : Prop :=
  (
  ∀ (H s : Nat) (takeNone : Bool) (x : StreamState), 1 < H → H < 2 ^ 15 → s < 2 ^ 16 →
    (x.recov = none → recover H takeNone (some s) x = (true, { x with recov := some s, hist := [true] })) ∧
    (∀ l, x.recov = some s → x.hist = true :: l → recover H takeNone (some s) x = (false, { x with discarded := min (x.discarded + 1) (2 ^ 32 - 1) })) ∧
    (x.recov = some s → (recover H takeNone (some ((s + 1) % 2 ^ 16)) x).1 = true ∧
      (recover H takeNone (some ((s + 1) % 2 ^ 16)) x).2.recov = some ((s + 1) % 2 ^ 16) ∧
      (recover H takeNone (some ((s + 1) % 2 ^ 16)) x).2.outOfOrder = x.outOfOrder) ∧
    (x.recov = some s → recover H takeNone (some ((s + H) % 2 ^ 16)) x = (false, { x with rogue := min (x.rogue + 1) (2 ^ 32 - 1) })) ∧
    (recover H true none x = (true, x)) ∧ recover H false none x = (false, { x with tagless := min (x.tagless + 1) (2 ^ 32 - 1) })) ∧
  (
  ∀ (s : State) (x : HeldFrame), s.chip.clocked = true → firstHeld s.chip.held = some x →
    let c := ({ s.chip with held := s.chip.held.erase x } : Chip).passTo (add48 x.frame.last.toNat 64)
    let d := recover (s.chip.strF x.stream 0x1C 0) (s.chip.strF x.stream 0x14 25 == 1) (x.frame.rtag.map (·.toNat)) (s.chip.stream x.stream)
    let c2 : Chip := { c with streams := tput c.streams {} x.stream d.2 }
    (d.1 = false → exec .frerHoldExpire s = .next (s.put c2)) ∧ (d.1 = true → exec .frerHoldExpire s = .next (s.put (c2.meterAndSend x.stream x.frame))))

/-! ## Work queues -/

/-- R278–R280: a WQ_TAIL write that publishes up to place `p` (its index and phase), no earlier than the tail and no further than a whole ring past the oldest
entry not completed, moves the tail there, notes the write for the fences, and lifts a stop. R308: a doorbell of a queue that does not exist posts
DOORBELL_ERROR. R288, R289: WQ_INVAL drops the cached copy of an entry that is published and not admitted; of one that is admitted it only counts. R281,
R300: the read of the next published entry returns. An entry with OWN set is cached; one without stops the queue's fetching; a failed read puts the queue
in error and raises QUEUE_ERROR to its function. -/
def Obligations.QueueHandover : Prop :=
  (
  ∀ (s : State) (f : Fn) (g : Grp) (v : W32) (p : Nat), s.chip.clocked = true → (s.chip.fn f).flr = none →
    let x := s.chip.fn f
    let q := s.chip.queue f g
    (s.chip.live f g = true → v.toNat % 2 ^ 16 = p % q.size → v.toNat / 2 ^ 16 % 2 = p / q.size % 2 → q.done ≤ q.tail → q.tail ≤ p → p ≤ q.done + q.size → 0 < q.size →
      exec (.wqTail f g v) s = .next (s.put (s.chip.setFn f { x.setQueue g { q with
        tail := p, stopped := false, pubs := if p = q.tail then q.pubs else q.pubs ++ [(p, x.stamp + 1)] } with stamp := x.stamp + 1 }))) ∧
    (s.chip.live f g = false → ∃ e : Ev, exec (.wqTail f g v) s = .next (s.put (s.chip.raiseOne f e)) ∧ e.type = 2 ∧ e.info = g.val ∧ e.data = v.toNat) ∧
    (s.chip.live f g = true → v.toNat % 2 ^ 16 = p % q.size → q.nextPos ≤ p → q.done ≤ p → p < q.tail → p < q.done + q.size →
      exec (.wqInval f g v) s = .next (s.put (s.chip.setFn f (x.setQueue g { q with cache := terase q.cache p })))) ∧
    (s.chip.live f g = true → v.toNat % 2 ^ 16 = p % q.size → p < q.nextPos → q.done ≤ p → p < q.tail → p < q.done + q.size →
      exec (.wqInval f g v) s = .next (s.put (s.chip.setFn f (x.setQueue g { q with invalLate := satAdd 8 q.invalLate 1 }))))) ∧
  (
  ∀ (s : State) (f : Fn) (g : Grp) (e : BitVec 512) (x : HostErr) (p : Nat), s.chip.clocked = true →
    let q := s.chip.queue f g
    s.chip.live f g = true → q.error = false → q.stopped = false → (s.chip.fn f).flr = none → s.chip.vault.stopped = false → s.chip.outOfPlaces = false →
    q.nextFetch (s.chip.window q) q.nextPos = some p →
    (eOwn e = true → exec (.entryFetch f g (.ok e)) s = .next (s.put (s.chip.setFn f ((s.chip.fn f).setQueue g { q with cache := tinsert q.cache p e })))) ∧
    (eOwn e = false → exec (.entryFetch f g (.ok e)) s = .next (s.put (s.chip.setFn f ((s.chip.fn f).setQueue g { q with stopped := true })))) ∧
    ∃ v : Ev, exec (.entryFetch f g (.err x)) s = .next (s.put ((s.chip.setFn f ((s.chip.fn f).setQueue g { q with error := true })).raiseOne f v)) ∧
      v.type = 1 ∧ v.info = hostErrCode x ∧ v.data = p % q.size)

/-- R273, R291, R295, R296: an entry that is a group of its own, is behind no fence and is next to admit takes the next place of the admission order; with it
goes the status that its structure or its sender's rights have already decided. R282–R286, R324: the oldest entry of a queue that has its status completes:
ADM_SEQ and STATUS are written to its slot, then the byte with DETAIL and OWN clear. The shadow write makes the completions up to now seen and asks for the
message of a queue with an INTR entry among them; a message that is asked for goes out once. -/
def Obligations.EntriesRun : Prop :=
  (
  ∀ (s : State) (f : Fn) (g : Grp) (e : BitVec 512), s.chip.clocked = true →
    let q := s.chip.queue f g
    s.chip.live f g = true → (s.chip.fn f).flr = none → s.chip.vault.stopped = false → s.chip.par.handing = .none → s.chip.admits = true →
    q.cached q.nextPos = some e → eFirst e = true → eLast e = true → (s.chip.fn f).fenceBlocks g q.nextPos e = false →
    (g = 0 ∨ s.chip.calendarOk q 1 = true) →
    (∃ st, exec (.entryAdmit f g) s = .next (s.put (s.chip.takeSeq.2.setFn f ((s.chip.fn f).setQueue g { q with
      cache := terase q.cache q.nextPos, nextPos := q.nextPos + 1, work := q.work ++ [{ pos := q.nextPos, entry := e, seq := s.chip.takeSeq.1, status := st }] }))) ∧
      (g ≠ 0 → s.chip.par.role = .standby ∨ s.chip.par.role = .fenced → st = some (stFenced, s.chip.par.role.code)) ∧
      (g = 0 → cmdForm s.chip false e = none → st = some (stMalformed, 0)) ∧
      (g = 0 → structCheck s.chip false e = none → st = if deniedTo f false e then some (stDenied, 0) else none))) ∧
  (
  ∀ (s : State) (f : Fn) (g : Grp) (a : Adm) (l : List Adm) (code detail : Nat) (n : Fin 64), s.chip.clocked = true → (s.chip.fn f).flr = none →
    let x := s.chip.fn f
    let q := s.chip.queue f g
    let slot := q.base + 64 * (a.pos % q.size)
    (q.work = a :: l → a.status = some (code, detail) → a.pos = q.done → exec (.entryComplete f g) s =
      .next (s.put { s.chip.setFn f (x.setQueue g { q with work := l, done := q.done + 1, lastSeq := a.seq, intrDue := q.intrDue || eIntr a.entry }) with
        out := s.chip.out ++ [.hostWrite f (slot + 0x38) (leBytes 6 a.seq ++ [BitVec.ofNat 8 code]), .hostWrite f (slot + 0x3F) [BitVec.ofNat 8 (detail % 128)]] })) ∧
    (q.done ≠ q.head → ∃ t : State, exec (.shadowWrite f g) s = .next t ∧ t.pending = s.pending ∧ t.chip.out = s.chip.out ++ [.hostWrite f q.shadow q.shadowBytes] ∧
      t.chip.queue f g = { q with head := q.done, intrDue := false } ∧ (∀ k, k ≠ g.val → t.chip.queue f k = s.chip.queue f k) ∧
      (∀ k, k ∈ (t.chip.fn f).msix ↔ k ∈ x.msix ∨ (q.intrDue = true ∧ k = q.vector)) ∧ t.chip.fn f = { x with queues := (t.chip.fn f).queues, msix := (t.chip.fn f).msix } ∧
      (∀ k, k ≠ f.val → t.chip.fn k = s.chip.fn k) ∧ t.chip = { s.chip with funcs := t.chip.funcs, out := t.chip.out }) ∧
    (n.val ∈ x.msix → exec (.msixMessage f n) s = .next (s.put { s.chip.setFn f { x with msix := x.msix.filter (· != n.val) } with out := s.chip.out ++ [.msix f n] })))

/-- R304–R311 and the register WQ_ADMIN_CFG: CREATE_IOQ makes the queue of its entry, empty, and clears its shadow; DELETE_IOQ unmakes one with no entry
outstanding; SET_EVENT_RING sets or unsets the ring, with bits 1, 2 and 15 of the mask set and a virtual function's mask limited; ENABLE starts the admin
queue, or is refused with ADMIN_ERR. R317, R318, R320–R323, R761: the oldest raised event goes to a function it reaches as its bytes 0 to 14 and then its
phase byte; with the ring full it is counted and EVENTS_LOST will tell. Consuming entries through WQ_EVT_HEAD frees their places. R266: until the host
ports are ready, and not in reset, a configuration request is answered with Retry Status. R325–R329: a Function Level Reset takes one place of the
admission order and begins in the function, and in the virtual functions of a physical one; it is over once every entry admitted before has its status, and
the function is then as after reset. Stated where no host area of the context cache is lost. -/
def Obligations.QueueServices : Prop :=
  (
  ∀ (s : State) (f : Fn) (ix : BitVec 16) (a : Adm) (v : W32), s.chip.clocked = true →
    let e := a.entry
    let x := s.chip.fn f
    let q := s.chip.queue f (eField e 4 1 + 1)
    (s.chip.entryAt f 0 ix 0x01 a → x.flr = none → q.created = false → exec (.createIoq f ix) s = .next (s.put (Chip.done
      { s.chip.setFn f (x.setQueue (eField e 4 1 + 1) { created := true, size := eField e 8 4, base := eDptr e, shadow := eField e 0x10 8, vector := eField e 5 1, weight := eField e 6 1 })
        with out := s.chip.out ++ [.hostWrite f (eField e 0x10 8) (List.replicate 16 0)] } f a))) ∧
    (s.chip.entryAt f 0 ix 0x02 a → q.created = true → q.error = false → q.done = q.tail → exec (.deleteIoq f ix) s =
      .next (s.put ((s.chip.setFn f (x.setQueue (eField e 4 1 + 1) {})).done f a))) ∧
    (s.chip.entryAt f 0 ix 0x02 a → q.created = true → q.error = false → q.done < q.tail → exec (.deleteIoq f ix) s =
      .next (s.put (s.chip.finish f 0 a.pos stQueueBusy 0))) ∧
    (s.chip.entryAt f 0 ix 0x03 a → (x.evtSet = true → x.evtTail ≤ x.evtHead) → eField e 8 4 ≠ 0 → x.lostSince = 0 → exec (.setEventRing f ix) s = .next (s.put ((s.chip.setFn f { x with
      evtSet := true, evtBase := eDptr e, evtSize := eField e 8 4, evtMask := if isPf f then eField e 4 2 ||| 0x8006 else (eField e 4 2 ||| 0x8006) &&& 0x8086,
      evtVector := eField e 6 1, evtTail := 0, evtHead := 0 }).done f a))) ∧
    (s.chip.entryAt f 0 ix 0x03 a → (x.evtSet = true → x.evtTail ≤ x.evtHead) → eField e 8 4 = 0 → exec (.setEventRing f ix) s = .next (s.put ((s.chip.setFn f { x with
      evtSet := false, evtBase := 0, evtSize := 16, evtMask := 0, evtVector := 0, evtTail := 0, evtHead := 0 }).done f a))) ∧
    (x.enable = false → x.flr = none → v.getLsbD 31 = true → v.toNat % 2 ^ 16 ≠ 0 → x.adminBase % 64 = 0 → x.adminShadow % 16 = 0 → ∃ t : State,
      exec (.adminQueueEnable f v) s = .next t ∧ t.pending = s.pending ∧ (t.chip.fn f).enable = true ∧ (t.chip.fn f).adminErr = false ∧
      t.chip.queue f 0 = { created := true, size := v.toNat % 2 ^ 16 + 1, base := x.adminBase, shadow := x.adminShadow, vector := v.toNat / 2 ^ 16 % 64 } ∧
      (∀ k, k ≠ 0 → t.chip.queue f k = s.chip.queue f k) ∧ (∀ k, k ≠ f.val → t.chip.fn k = s.chip.fn k) ∧ t.chip = { s.chip with funcs := t.chip.funcs }) ∧
    (x.enable = false → x.flr = none → v.getLsbD 31 = true → v.toNat % 2 ^ 16 = 0 ∨ x.adminBase % 64 ≠ 0 → ∃ t : State, exec (.adminQueueEnable f v) s = .next t ∧
      (t.chip.fn f).enable = false ∧ (t.chip.fn f).adminErr = true) ∧
    (x.enable = true → exec (.adminQueueEnable f v) s = .next s)) ∧
  (
  ∀ (s : State) (f : Fn) (v : W32) (x : Raised) (l : List Raised) (n : Nat) (port : Bool), s.chip.clocked = true →
    let y := s.chip.fn f
    let at0 := y.evtBase + 16 * (y.evtTail % y.evtSize)
    (s.chip.raised = x :: l → x.live = none → x.targets = [f.val] → y.enable = true → y.flr = none → y.evtSet = true → bitAt y.evtMask x.ev.type = true → y.evtFull = false →
      ∃ t : State, exec .eventPost s = .next t ∧ t.pending = s.pending ∧ t.chip.raised = l ∧
        t.chip.out = s.chip.out ++ [.hostWrite f at0 x.ev.bytes, .hostWrite f (at0 + 15) (leBytes 1 (128 * ((y.evtTail / y.evtSize + 1) % 2)))] ∧
        (t.chip.fn f).ring = y.ring ++ [x.ev] ∧ (t.chip.fn f).evtTail = y.evtTail + 1 ∧ y.evtVector ∈ (t.chip.fn f).msix ∧
        (∀ k, k ≠ f.val → t.chip.fn k = s.chip.fn k) ∧
        t.chip = { s.chip with funcs := t.chip.funcs, out := t.chip.out, raised := t.chip.raised, pools := t.chip.pools, evr := t.chip.evr }) ∧
    (s.chip.raised = x :: l → x.live = none → x.targets = [f.val] → y.enable = true → y.flr = none → y.evtSet = true → bitAt y.evtMask x.ev.type = true → y.evtFull = true →
      ∃ t : State, exec .eventPost s = .next t ∧ t.chip.raised = l ∧ t.chip.out = s.chip.out ∧ t.chip.fn f = { y with
        ovf := tput y.ovf 0 x.ev.type (satAdd 32 (tget y.ovf 0 x.ev.type) 1), eventsLost := true, lostSince := satAdd 32 y.lostSince 1 }) ∧
    (y.flr = none → y.evtSet = true → 0 < y.evtSize → n ≤ y.evtTail - y.evtHead → n ≤ y.evtSize → y.lostSince = 0 → v.toNat % 2 ^ 16 = (y.evtHead + n) % y.evtSize →
      v.toNat / 2 ^ 16 % 2 = (y.evtHead + n) / y.evtSize % 2 →
      exec (.wqEvtHead f v) s = .next (s.put ((s.chip.giveBack 5 n).setFn f { y with evtHead := y.evtHead + n, ring := y.ring.drop n }))) ∧
    (bitAt s.chip.pwr.perst (b2n port) = false → exec (.configRequest port) s = .next (s.put (s.chip.emit (.configReply port (!s.chip.pwr.hostReady)))))) ∧
  (
  ∀ (s : State) (f : Fn) (k : Nat), s.chip.clocked = true →
    let x := s.chip.fn f
    (x.flr = none → s.chip.rma.hostArea = none → ∃ t : State, exec (.functionLevelReset f) s = .next t ∧ t.pending = s.pending ∧
      (∀ n, n ∈ flrSet f → t.chip.fn n = { s.chip.fn n with flr := some s.chip.takeSeq.1, msix := [] }) ∧
      (∀ n, n ∉ flrSet f → t.chip.fn n = s.chip.fn n) ∧ t.chip = { s.chip with funcs := t.chip.funcs, admNext := t.chip.admNext, par := t.chip.par }) ∧
    (x.flr = some k → (∀ gq ∈ x.queues, ∀ a ∈ gq.2.work, a.status.isSome = true) → exec (.flrComplete f) s =
      .next (s.put ((s.chip.giveBack 5 (x.evtTail - x.evtHead)).setFn f { flrSeq := some k }))))

/-! ## Storage: the loader, host commands, arrays, the cache, recovery -/

/-- R271, R299, R334: the data of an admitted command comes, is kept where it suits the entry, and a failed read ends the entry with ST_HOST_ACCESS. R526–R528,
R376: a READ or WRITE that its checks refuse ends with their status; a WRITE that passes has its data fetched, and a READ is divided into the items of its
parts, which go to their engines. R527, R335: so is a WRITE once its data has come. R406, R456, R528, R534, R538: the checks of a READ or WRITE in their
order: rights, volume, range, readiness, the array's state, and for a WRITE a region to land in. -/
def Obligations.HostReadsAndWrites : Prop :=
  (
  ∀ (s : State) (f : Fn) (g : Grp) (ix : BitVec 16) (a : Adm) (l : List Byte) (n : Option Nat), s.chip.clocked = true →
    let c := s.chip
    let e := a.entry
    let ps := c.ioParts e
    (∀ x, c.adm f g ix.toNat = some a → a.status = none → a.data = none → c.fetches (g != 0) a ≠ .nothing →
      exec (.hostDataFetch f g ix (.err x)) s = .next (s.put (c.finish f g a.pos stHostAccess (hostErrCode x)))) ∧
    (g = 0 → c.adm f g ix.toNat = some a → a.status = none → a.data = none → c.fetches false a = .data n → (eInd e = false → l.length = eDlen e) →
      (∀ m, n = some m → l.length = m) → exec (.hostDataFetch f g ix (.ok l)) s = .next (s.put (c.modAdm f g a.pos fun x => { x with data := some l }))) ∧
    (c.adm f g ix.toNat = some a → a.status = none → a.data = none → c.fetches (g != 0) a = .table none → l.length = 16 * eDlen e → fragsOk l = true →
      exec (.hostDataFetch f g ix (.ok l)) s = .next (s.put (c.modAdm f g a.pos fun x => { x with data := some l }))) ∧
    (c.adm f g ix.toNat = some a → a.status = none → a.data = none → c.fetches (g != 0) a = .table n → l.length = 16 * eDlen e → fragsOk l = false →
      exec (.hostDataFetch f g ix (.ok l)) s = .next (s.put (c.finish f g a.pos stMalformed 0x28))) ∧
    (∀ is d, g ≠ 0 → c.adm f g ix.toNat = some a → a.status = none → a.data = none → c.fetches true a = .data (some l.length) → (eInd e = false → l.length = eDlen e) →
      eField e 5 1 = 0 → c.hostItems f g a ps (some l) 0 ps = some (is, d) → exec (.hostDataFetch f g ix (.ok l)) s =
        .next (s.put (is.foldl (fun c i => c.submit i.1 i.2) (d.modAdm f g a.pos fun x => { x with begun := true, left := is.length, data := some [] })))) ∧
    (∀ is d, g ≠ 0 → c.entryAt f g ix 0x80 a → c.ioCheck f a false = none → eInd e = false → c.hostItems f g a ps none 0 ps = some (is, d) →
      exec (.read f g ix) s = .next (s.put (is.foldl (fun c i => c.submit i.1 i.2) (d.modAdm f g a.pos fun x => { x with begun := true, left := is.length })))) ∧
    (∀ code detail, g ≠ 0 → c.entryAt f g ix 0x80 a → c.ioCheck f a false = some (code, detail) → exec (.read f g ix) s = .next (s.put (c.finish f g a.pos code detail))) ∧
    (g ≠ 0 → c.entryAt f g ix 0x81 a → c.ioCheck f a true = none → exec (.write f g ix) s = .next (s.put (c.modAdm f g a.pos fun x => { x with begun := true }))) ∧
    (∀ code detail, g ≠ 0 → c.entryAt f g ix 0x81 a → c.ioCheck f a true = some (code, detail) → exec (.write f g ix) s = .next (s.put (c.finish f g a.pos code detail)))) ∧
  (
  ∀ (c : Chip) (f : Nat) (a : Adm) (w : Bool),
    let v := eField a.entry 4 1
    let x := c.vol v
    let may := if w then c.accessOf f v = 3 else c.accessOf f v ≠ 0
    let inRange := (eField a.entry 8 8 + eField a.entry 0x10 4) * x.blockSize ≤ c.volBytes v
    let up := x.serves a.seq = true ∧ (c.arr x.array).recovered = true
    (¬ may → c.ioCheck f a w = some (stDenied, 0)) ∧ (may → x.state = .none → c.ioCheck f a w = some (stRange, 4)) ∧
    (may → x.state ≠ .none → ¬ inRange → c.ioCheck f a w = some (stRange, 8)) ∧ (may → x.state ≠ .none → inRange → ¬ up → c.ioCheck f a w = some (stNotReady, 0)) ∧
    (may → x.state ≠ .none → inRange → up → (c.arr x.array).failed = true → c.ioCheck f a w = some (stState, 0)) ∧
    (may → x.state ≠ .none → inRange → up → (c.arr x.array).failed = false → (w = false ∨ c.noRegion = false) → c.ioCheck f a w = none) ∧
    (may → x.state ≠ .none → inRange → up → (c.arr x.array).failed = false → w = true → c.noRegion = true → c.ioCheck f a w = some (stNotReady, 0)) ∧
    (isPf f = true → c.accessOf f v = 3))

/-- R545–R549: ABORT ends an entry with its tag that is not committed with ST_ABORTED and answers DETAIL 1; it answers 0 where there is none. R550–R553:
IDENTIFY and GET_LOG write their data to the buffer of the entry, or end with their status. R251, R255, R257, R312, R313, R799: an image that a check
refuses ends PROG_LOAD with ST_LOAD_REJECTED and the reason. One that every check accepts takes its slot on every engine it targets, with its windows
placed and the parameters of the entry; a stripe engine keeps the replaced image for the older items, and MEAS5 is extended. R314: PROG_UNLOAD clears a
slot that nothing names. R257: the replaced image goes once no item and no run needs it. R249, R250, R315, R316: OWNER_KEY_SET writes the SM3 digest of a
public key into an empty slot, once; OWNER_KEY_REVOKE revokes a slot whose digest begins with the bytes of the entry. -/
def Obligations.AdminAndLoader : Prop :=
  (
  ∀ (s : State) (f : Fn) (ix : BitVec 16) (a t : Adm) (l : List Byte), s.chip.clocked = true →
    let c := s.chip
    let e := a.entry
    let g := eField e 4 1 + 1
    (c.entryAt f 0 ix 0x04 a → (c.queue f g).created = true → (c.queue f g).target (eField e 6 2) a.seq = none → exec (.abort f ix) s = .next (s.put (c.done f a))) ∧
    (c.entryAt f 0 ix 0x04 a → (c.queue f g).created = true → (c.queue f g).target (eField e 6 2) a.seq = some t → t.committed = true →
      exec (.abort f ix) s = .next (s.put (c.done f a))) ∧
    (c.entryAt f 0 ix 0x04 a → (c.queue f g).created = true → (c.queue f g).target (eField e 6 2) a.seq = some t → t.committed = false → exec (.abort f ix) s =
      .next (s.put (((c.withdraw f g t.pos).modAdm f g t.pos fun x => { x with status := some (stAborted, 0), caught := true }).finish f 0 a.pos stOk 1))) ∧
    (c.entryAt f 0 ix 0x04 a → (c.queue f g).created = false → exec (.abort f ix) s = .next (s.put (c.finish f 0 a.pos stRange 4))) ∧
    (c.entryAt f 0 ix 0x05 a → a.placed = true → c.identify f (eField e 4 1) (eField e 5 1) = .ok l → exec (.identify f ix) s =
      .next (s.put ((c.toBuffer f a.buffer 0 l).done f a))) ∧
    (c.entryAt f 0 ix 0x05 a → a.placed = true → eField e 4 1 = 1 → 48 ≤ eField e 5 1 → exec (.identify f ix) s = .next (s.put (c.finish f 0 a.pos stRange 5))) ∧
    (c.entryAt f 0 ix 0x06 a → eInd e = false → c.log (eField e 4 1) (eField e 5 1) = some l → exec (.getLog f ix) s =
      .next (s.put ((c.toBuffer f [(eDptr e, eDlen e)] 0 (padTo (eDlen e) (l.drop (eField e 8 8)))).done f a))) ∧
    (c.entryAt f 0 ix 0x06 a → a.placed = true → c.log (eField e 4 1) (eField e 5 1) = none → exec (.getLog f ix) s = .next (s.put (c.finish f 0 a.pos stRange 5)))) ∧
  (
  ∀ (s : State) (f : Fn) (ix : BitVec 16) (a : Adm) (l : List Byte) (e : Se) (k : Fin 8), s.chip.clocked = true →
    let c := s.chip
    let n := a.entry
    let slot := eField n 4 1
    let engine := eField n 5 1
    (∀ r, c.entryAt f 0 ix 0x30 a → a.data = some l → c.loadReason slot engine (eField n 0x34 2) (eField n 0x36 2) l = some r →
      exec (.progLoad f ix) s = .next (s.put (c.finish f 0 a.pos stLoadRejected r))) ∧
    (c.entryAt f 0 ix 0x30 a → a.data = some l → c.loadReason slot engine (eField n 0x34 2) (eField n 0x36 2) l = none →
      ∃ t : State, exec (.progLoad f ix) s = .next t ∧ t.pending = s.pending ∧
        (∀ x ∈ targets (imgKind l) engine, ∃ ws, placeWins x (eField n 0x34 2) (eField n 0x36 2) (lmRange (imgKind l)) (winReqs l) (c.lmUsed x) = some ws ∧
          t.chip.slot x slot = { cur := some (imageOn l a.seq [eField n 8 8, eField n 0x10 8, eField n 0x18 8, eField n 0x20 8] ws),
                                 old := if x < 16 then (c.slot x slot).cur else none } ∧ ∀ j, j ≠ slot → t.chip.slot x j = c.slot x j) ∧
        (∀ x, x ∉ targets (imgKind l) engine → t.chip.eng x = c.eng x) ∧ t.chip.meas 5 = sm3 (c.meas 5 ++ sm3 l) ∧
        t.chip = { c with engines := t.chip.engines, sec := t.chip.sec, funcs := t.chip.funcs }) ∧
    (c.entryAt f 0 ix 0x31 a → (engine = 0xFF ∧ slot < 8 ∨ engine < 4 ∧ slot < 2) → c.slotNamed engine slot = false → ∃ t : State, exec (.progUnload f ix) s = .next t ∧
      t.pending = s.pending ∧ (∀ x ∈ targets (if engine = 0xFF then 0 else 1) engine, t.chip.slot x slot = {} ∧ ∀ j, j ≠ slot → t.chip.slot x j = c.slot x j) ∧
      (∀ x, x ∉ targets (if engine = 0xFF then 0 else 1) engine → t.chip.eng x = c.eng x) ∧
      t.chip = { c with engines := t.chip.engines, sec := t.chip.sec, funcs := t.chip.funcs, free := t.chip.free }) ∧
    (c.entryAt f 0 ix 0x31 a → (engine = 0xFF ∧ slot < 8 ∨ engine < 4 ∧ slot < 2) → c.slotNamed engine slot = true →
      exec (.progUnload f ix) s = .next (s.put (c.finish f 0 a.pos stQueueBusy 0))) ∧
    (∀ m o, (c.slot e k.val).cur = some m → (c.slot e k.val).old = some o → (∀ x ∈ (c.eng e).items, x.slot = k.val → timeDiff m.loadSeq x.seq ≤ 0) →
      (∀ r, (c.eng e).run = some r → r.slot = k.val → r.image = m) → exec (.oldImageRetire e k) s =
        .next (s.put (c.setEng e { c.eng e with slots := tput (c.eng e).slots {} k.val { cur := some m, old := none } })))) ∧
  (
  ∀ (s : State) (f : Fn) (ix : BitVec 16) (a : Adm) (l d : List Byte), s.chip.clocked = true →
    let c := s.chip
    let k := eField a.entry 4 1
    (c.entryAt f 0 ix 0x32 a → a.data = some l → 0 < k → k < 4 → c.keyDigest k = none → ∃ t : State, exec (.ownerKeySet f ix) s = .next t ∧ t.pending = s.pending ∧
      t.chip.keyDigest k = some (sm3 l) ∧ (∀ j, j ≠ k → t.chip.keyDigest j = c.keyDigest j) ∧ t.chip.sec.revoked = c.sec.revoked ∧
      t.chip = { c with sec := t.chip.sec, funcs := t.chip.funcs, free := t.chip.free }) ∧
    (c.entryAt f 0 ix 0x32 a → a.data = some l → 0 < k → k < 4 → c.keyDigest k = some d → exec (.ownerKeySet f ix) s = .next (s.put (c.finish f 0 a.pos stState 1))) ∧
    (c.entryAt f 0 ix 0x33 a → 0 < k → k < 4 → c.keyDigest k = some d → tget c.sec.revoked false k = false → d.take 4 = leBytes 4 (eField a.entry 8 4) → ∃ t : State,
      exec (.ownerKeyRevoke f ix) s = .next t ∧ t.pending = s.pending ∧ tget t.chip.sec.revoked false k = true ∧ t.chip.sec.keys = c.sec.keys ∧
      (∀ j, j ≠ k → tget t.chip.sec.revoked false j = tget c.sec.revoked false j) ∧ t.chip = { c with sec := t.chip.sec, funcs := t.chip.funcs, free := t.chip.free }) ∧
    (c.entryAt f 0 ix 0x33 a → 0 < k → k < 4 → c.keyDigest k = some d → tget c.sec.revoked false k = true → exec (.ownerKeyRevoke f ix) s =
      .next (s.put (c.finish f 0 a.pos stState 2))))

/-- R559: a change of member state takes a place of the admission order and posts MEMBER_STATE with it. R558, R559: how a failure, a link that comes up and one
that goes down change it; a member that is absent has no link to lose. R541, R562: the end of a sanitise empties the drive, and that of a preemption gives
the reservation. R555–R557, R563–R566: what an attach learns is kept, a member that fails its checks is REFUSED, and one that passes is registered, has its
SMART log read, and completes its attach. R566: a SMART poll keeps the log and its wear. R387–R389: a member command that completes pulses line 0x60 + e; a
media error of a write is counted. R569: the end of a retirement copy gives the position to the replacement. R529, R564, R568, R559: MEMBER_TRUST keeps the
digest of a root or clears a slot; RETIRE_MEMBER begins the copy to a READY member that is no smaller; DETACH_MEMBER releases a member that is in no array. -/
def Obligations.Members : Prop :=
  (
  ∀ (s : State) (m : Mbr) (rate : BitVec 4) (width : BitVec 3), s.chip.clocked = true →
    let c := s.chip
    let x := c.mbr m
    (∀ (next : MbrState) (reason : Nat), x.attached = false → next ≠ .failed → let t := c.memberState m next reason
      t.mbr m = { x with state := next } ∧ (∀ k, k ≠ m.val → t.mbr k = c.mbr k) ∧
      (∃ v, t.raised = c.raised ++ [v] ∧ v.ev = { type := 3, info := m + 2 ^ 8 * next.code, data := reason, seq := c.takeSeq.1 }) ∧
      t = { c with members := t.members, raised := t.raised, pools := t.pools, admNext := t.admNext, par := t.par, blocks := t.blocks }) ∧
    (x.state.mayFail = true → exec (.memberCommandTimeout m) s = .next (s.put (((c.emit (.memberReset m)).setMbr m { x with waits := false }).memberState m .failed 4)) ∧
      exec (.memberFatalStatus m) s = .next (s.put ((c.setMbr m { x with waits := false }).memberState m .failed 5))) ∧
    (x.state = .absent → c.noLane m = false → m.val / 4 ∈ c.pwr.groupsTrained → exec (.memberLinkUp m rate width) s =
      .next (s.put ((c.setMbr m { x with rate := rate.toNat, width := width.toNat }).memberState m .attaching 1))) ∧
    (x.state ≠ .absent → x.attached = false → ∃ t : State, exec (.memberLinkDown m) s = .next t ∧ t.pending = s.pending ∧ t.chip.mbr m =
      { x with state := .absent, rate := 0, width := 0, resv := false, preempting := false, auth := 0, alg := 0, position := none, waits := false } ∧
      ∀ k, k ≠ m.val → t.chip.mbr k = c.mbr k) ∧
    (x.state = .absent → exec (.memberLinkDown m) s = .next s) ∧
    (x.state = .sanitizing → ∃ t : State, exec (.memberSanitizeDone m) s = .next t ∧ t.pending = s.pending ∧ t.chip.mbr m = { x with state := .ready, media := [], bad := [] } ∧
      ∀ k, k ≠ m.val → t.chip.mbr k = c.mbr k) ∧
    (x.preempting = true → exec (.reservationPreemptDone m) s = .next (s.put (c.setMbr m { x with preempting := false, resv := true })))) ∧
  (
  ∀ (s : State) (m : Mbr) (i : AttachInfo) (log : List Byte) (pct crit : BitVec 8) (e : Se) (k : MemberCmd) (a : Arr) (y : Fin 48) (t : Retire), s.chip.clocked = true →
    let c := s.chip
    let x := c.mbr m
    let auth := c.authOf m i
    let ran : Bool := decide (auth = 1 ∨ auth = 2)
    let x1 : Member := { x with auth := auth, alg := if ran then i.alg.toNat else 0, nguid := i.nguid.toNat, capacity := i.capacity, lba := i.lba, serial := i.serial, model := i.model,
                                fwRev := i.fwRev, cert := if ran then i.certDigest.toNat else 0, fua := i.wcFixed }
    let c1 : Chip := { c with age := { c.age with wearSent := terase c.age.wearSent m } }
    (x.state = .attaching → x.waits = false → (i.checksOk = false) → exec (.memberAttach m i) s =
      .next (s.put (((c1.setMbr m x1).memberState m .refused 3).allAttached))) ∧
    (x.state = .attaching → x.waits = false → i.checksOk = true → c.eff (recMbr m) 0x100 0 = 2 → auth ≠ 1 → exec (.memberAttach m i) s =
      .next (s.put (((c1.setMbr m x1).memberState m .refused 9).allAttached))) ∧
    (x.state = .attaching → x.waits = false → i.checksOk = true → c.eff (recMbr m) 0x100 0 ≠ 2 → bitAt i.critWarn.toNat 2 = false → bitAt i.critWarn.toNat 3 = false →
      exec (.memberAttach m i) s = .next (s.put (((((((c1.setMbr m { x1 with registered := true, resv := c.par.role == .active || c.par.role == .alone }).wearRead m
        i.pctUsed.toNat i.critWarn.toNat).otherNamespace m).completeAttach m).trackSanitize m i.sanitizing).allAttached)))) ∧
    (x.state.polled = true → bitAt crit.toNat 2 = false → bitAt crit.toNat 3 = false → exec (.smartPoll m pct crit log) s =
      .next (s.put ((c.setMbr m { x with smart := log.take 512 }).wearRead m pct.toNat crit.toNat))) ∧
    (x.attached = true → exec (.memberCommandComplete m e k .ok) s = .next (s.put (c.pulse (0x60 + e)))) ∧
    (x.attached = true → k.isWrite = true → exec (.memberCommandComplete m e k .mediaError) s =
      .next (s.put ((c.pulse (0x60 + e)).setMbr m { x with mediaErr := satAdd 16 x.mediaErr 1 }))) ∧
    (x.attached = true → k.isWrite = true → k.proof = false → c.serving = false → exec (.memberCommandComplete m e k .reservationConflict) s =
      .next (s.put ((c.pulse (0x60 + e)).setCause 83 6))) ∧
    ((c.arr a).retire = some t → t.pos = y.val → (c.arr a).rows ≤ t.row → (c.mbr t.repl).attached = true → t.old ≠ t.repl → ∃ u : State,
      exec (.retirementCopyDone a y) s = .next u ∧ u.pending = s.pending ∧ (u.chip.arr a).retire = none ∧
      (u.chip.arr a).pos = (c.arr a).pos.modify y.val (fun p => { p with member := some t.repl, id := (c.mbr t.repl).nguid }) ∧
      (u.chip.mbr t.repl).position = some y.val ∧ (u.chip.mbr t.repl).array = a.val ∧ (u.chip.mbr t.old).state = .retired ∧ (u.chip.mbr t.old).position = none)) ∧
  (
  ∀ (s : State) (f : Fn) (ix : BitVec 16) (a : Adm) (l : List Byte) (old : Nat), s.chip.clocked = true →
    let c := s.chip
    let e := a.entry
    (let k := eField e 4 1
     c.entryAt f 0 ix 0x15 a → k < 8 → eInd e = false → eDlen e = 0 → exec (.memberTrust f ix) s = .next (s.put (Chip.done { c with trust := terase c.trust k } f a))) ∧
    (let k := eField e 4 1
     c.entryAt f 0 ix 0x15 a → k < 8 → eDlen e ≠ 0 → a.data = some l → exec (.memberTrust f ix) s =
      .next (s.put (Chip.done { c with trust := tput c.trust 0 k (ofLe l + 1) } f a))) ∧
    (let n := eField e 4 1
     let y := eField e 5 1
     let m := eField e 6 1
     let r := c.arr n
     c.entryAt f 0 ix 0x16 a → n < 16 → r.made = true → y < r.pos.length → m ≤ 47 → c.memberAt n y = some old → (r.pos[y]?.any fun p => p.state == .inService) = true →
      r.pass = none → r.reshape = none → r.retire = none → (c.mbr m).state = .ready → r.capacity ≤ (c.mbr m).capacity → exec (.retireMember f ix) s =
        .next (s.put (((((c.setArr n { r with retire := some { pos := y, old := old, repl := m } }).memberState old .retiring 15).modMbr m
          fun x => { x with array := n, position := none }).memberState m .bound 12).done f a))) ∧
    (let m := eField e 4 1
     c.entryAt f 0 ix 0x17 a → m ≤ 47 → (c.mbr m).state ≠ .absent → (c.mbr m).state ≠ .bound → (c.mbr m).state ≠ .retiring → exec (.detachMember f ix) s =
      .next (s.put ((c.dropMember m 10).done f a))) ∧
    (let m := eField e 4 1
     c.entryAt f 0 ix 0x17 a → m ≤ 47 → (c.mbr m).state = .bound → exec (.detachMember f ix) s = .next (s.put (c.finish f 0 a.pos stState 3))))

/-- R531, R858: CREATE_ARRAY refuses in the order of its object checks; an array whose entry and members pass comes to be. R532: DELETE_ARRAY waits for the
volumes to be gone. R481, R495, R501, R520: REPLACE_MEMBER, SCRUB_NOW and RESHAPE begin what they ask for. R530, R533–R542: CREATE_VOLUME takes a free
range of stripes of an array; DELETE_VOLUME gives it back once nothing uses the volume; VOLUME_GRANT sets what a virtual function may do; FORMAT_VOLUME and
SANITIZE begin at their place. -/
def Obligations.ArraysAndVolumes : Prop :=
  (
  ∀ (s : State) (f : Fn) (ix : BitVec 16) (a : Adm) (l : List Byte), s.chip.clocked = true →
    let c := s.chip
    let e := a.entry
    let n := eField e 4 1
    let r := c.arr n
    let ms := l.map BitVec.toNat
    (∀ code d, c.entryAt f 0 ix 0x10 a → createEarly e = some (code, d) → exec (.createArray f ix) s = .next (s.put (c.finish f 0 a.pos code d))) ∧
    (∀ code d, c.entryAt f 0 ix 0x10 a → createEarly e = none → a.data = some l → c.createLate e ms = some (code, d) →
      exec (.createArray f ix) s = .next (s.put (c.finish f 0 a.pos code d))) ∧
    (c.entryAt f 0 ix 0x10 a → createEarly e = none → a.data = some l → c.createLate e ms = none →
      exec (.createArray f ix) s = .next (s.put ((c.makeArray e (sortNat ms) a.seq).done f a))) ∧
    (c.entryAt f 0 ix 0x11 a → n < 16 → r.made = true → (c.volumes.any fun v => v.2.state != .none && v.2.array == n) = true →
      exec (.deleteArray f ix) s = .next (s.put (c.finish f 0 a.pos stQueueBusy 0))) ∧
    (c.entryAt f 0 ix 0x11 a → n < 16 → r.made = true → (∀ v ∈ c.volumes, v.2.state = .none ∨ v.2.array ≠ n) → (∀ m ∈ c.members, m.2.attached = true → m.2.array ≠ n) →
      (∀ b ∈ c.bobbins, c.bobArray b ≠ n) → ∃ t : State, exec (.deleteArray f ix) s = .next t ∧ t.pending = s.pending ∧ t.chip.arr n = {} ∧
        ∀ k, k ≠ n → t.chip.arr k = c.arr k) ∧
    (c.entryAt f 0 ix 0x21 a → n < 16 → r.made = true → r.pass = none → r.reshape = none → exec (.scrubNow f ix) s = .next (s.put ((c.scrubStart n).done f a))) ∧
    (c.entryAt f 0 ix 0x21 a → n < 16 → r.made = true → (r.pass.isSome = true ∨ r.reshape.isSome = true) → exec (.scrubNow f ix) s =
      .next (s.put (c.finish f 0 a.pos stState 1))) ∧
    (let y := eField e 5 1
     let m := eField e 6 1
     c.entryAt f 0 ix 0x20 a → n < 16 → r.made = true → y < r.pos.length → m ≤ 47 → (∀ p, r.pos[y]? = some p → p.state ≠ .inService) → r.reshape = none → c.mayJoin m r.capacity = true →
      c.memberAt n y = none → exec (.replaceMember f ix) s = .next (s.put (((((((c.setMbr m { c.mbr m with array := n, position := some y }).memberState m .bound 12).setPos n y a.seq
        fun p => { p with state := .rebuilding, toRepl := true, member := some m, id := (c.mbr m).nguid }).startPass n a.seq).seedMember n y m).done f a)))) ∧
    (let k := r.geom.n + eField e 7 1
     let g : Geom := ⟨k, eField e 5 1, eField e 6 1, stripesPerRow k (eField e 5 1) (eField e 6 1)⟩
     c.entryAt f 0 ix 0x22 a → 0 < eField e 7 1 → a.data = some l → c.reshapeRange e ms = none → c.reshapeState n g ms = none →
      exec (.reshape f ix) s = .next (s.put ((c.startReshape n g ms a.seq).done f a))) ∧
    (∀ o, c.entryAt f 0 ix 0x22 a → 0 < eField e 7 1 → a.data = some l → c.reshapeRange e ms = some o → exec (.reshape f ix) s = .next (s.put (c.finish f 0 a.pos stRange o)))) ∧
  (
  ∀ (s : State) (f : Fn) (ix : BitVec 16) (a : Adm), s.chip.clocked = true →
    let c := s.chip
    let e := a.entry
    let v := eField e 4 1
    let x := c.vol v
    let keeps (t : State) (v : Nat) : Prop := t.pending = s.pending ∧ (∀ k, k ≠ v → t.chip.vol k = c.vol k) ∧
      t.chip = { c with volumes := t.chip.volumes, members := t.chip.members, funcs := t.chip.funcs }
    (let n := eField e 5 1
     let first := eField e 8 8
     let count := eField e 0x10 8
     c.entryAt f 0 ix 0x12 a → n < 16 → (c.arr n).made = true → 0 < count → first + count ≤ (c.arr n).stripes → x.state = .none →
      (∀ w ∈ c.volumes, w.2.state = .none ∨ w.2.array ≠ n ∨ first + count ≤ w.2.first ∨ w.2.first + w.2.count ≤ first) →
      ∃ t : State, exec (.createVolume f ix) s = .next t ∧ keeps t v ∧ t.chip.vol v =
        { state := .unformatted, array := n, big := eField e 6 1 == 1, first := first, count := count, gen := x.gen + 1, seq := a.seq }) ∧
    (c.entryAt f 0 ix 0x12 a → eField e 5 1 < 16 → (c.arr (eField e 5 1)).made = true → (c.arr (eField e 5 1)).stripes ≤ eField e 8 8 →
      exec (.createVolume f ix) s = .next (s.put (c.finish f 0 a.pos stRange 8))) ∧
    (c.entryAt f 0 ix 0x13 a → x.state ≠ .none → c.volBusy v = false → c.volNamed v = false → ∃ t : State, exec (.deleteVolume f ix) s = .next t ∧ keeps t v ∧
      t.chip.vol v = { state := .none, array := x.array, gen := x.gen + 1, seq := a.seq }) ∧
    (c.entryAt f 0 ix 0x13 a → x.state ≠ .none → c.volBusy v = true → exec (.deleteVolume f ix) s = .next (s.put (c.finish f 0 a.pos stQueueBusy 0))) ∧
    (let g := eField e 5 1
     c.entryAt f 0 ix 0x14 a → x.state ≠ .none → g % 64 ≠ 0 → g < 128 → exec (.volumeGrant f ix) s =
      .next (s.put ((c.setVol v { x with grants := tput x.grants 0 g (eField e 6 1) }).done f a))) ∧
    (c.entryAt f 0 ix 0x18 a → x.state = .unformatted ∨ x.state = .ready → (c.arr x.array).failed = false → ∃ t : State, exec (.formatVolume f ix) s = .next t ∧ keeps t v ∧
      t.chip.vol v = { x with state := .formatting, wasReady := x.state == .ready, seq := a.seq, mark := 0, cursor := 0, issued := 0, gen := x.gen + 1 }) ∧
    (let u := eField e 5 1
     c.entryAt f 0 ix 0x19 a → eField e 4 1 = 0 → (c.vol u).state = .unformatted ∨ (c.vol u).state = .ready → (c.arr (c.vol u).array).failed = false →
      ∃ t : State, exec (.sanitize f ix) s = .next t ∧ keeps t u ∧ t.chip.vol u =
        { c.vol u with state := .sanitizing, wasReady := (c.vol u).state == .ready, seq := a.seq, mark := 0, cursor := 0, issued := 0, gen := (c.vol u).gen + 1 }) ∧
    (let u := eField e 5 1
     c.entryAt f 0 ix 0x19 a → eField e 4 1 ≠ 0 → u ≤ 47 → (c.mbr u).state = .ready ∨ (c.mbr u).state = .retired → exec (.sanitize f ix) s =
      .next (s.put (((c.memberState u .sanitizing 16).progressEvent u true 2 0 a.seq).done f a))))

/-- R414, R406, R393–R397, R189, R695: STRIPE2's WRITE takes the items of one command on one stripe. A check that fails ends them with its status; otherwise
the data goes through the bobbin and they end with ST_OK once it has landed: confirmed by the partner, or at once in ALONE. The program's code is the
manufacturer's (log entry 32). R388–R392, R406, R414: STRIPE2's READ ends its item with ST_STATE on a failed array and with ST_DATA_LOST on a lost strip;
otherwise the bytes that a member or the code gives go to the requester and the item ends with ST_OK. R414: its RECONSTRUCT of a column with more strips
gone than the code repairs ends with ST_DATA_LOST. -/
def Obligations.StripeReadsAndWrites : Prop :=
  (
  ∀ (s : State) (e : Se) (l : LandResult) (r : Run) (i : Item) (is : List Item), s.chip.clocked = true → s.chip.stock e 0x10001 0 = some r → r.taken = i :: is →
    let c := s.chip.gather e i.sameWrite 32
    let all := c.taken e
    let a := i.array
    let g := (c.arr a).geomOf i.stripe
    let ps := all.flatMap (c.piecesOf (c.arr a).stripBytes)
    let full := all.all c.replaces
    (∀ code, c.writeCheck i full g ps = some (code, []) → exec (.stripe2Write e l) s = .next (s.put (c.endStock e code))) ∧
    (∀ d, c.writeCheck i full g ps = none → (l = .confirmed ∨ c.par.role = .alone) → c.writeStripe e a i.stripe g full ps all = some d →
      exec (.stripe2Write e l) s = .next (s.put (((d.confirmUpTo e (d.eng e).issued (d.par.role == .alone)).writeLanded e a i.stripe full i.seq).endStock e stOk))) ∧
    ((c.arr a).failed = true → c.writeCheck i full g ps = some (stState, []))) ∧
  (
  ∀ (s : State) (e : Se) (l : LandResult) (r : Run) (i : Item) (is : List Item), s.chip.clocked = true → r.taken = i :: is →
    let c := s.chip
    let a := i.array
    let g := (c.arr a).geomOf i.stripe
    let o := c.header i 0 4
    let n := c.header i 4 4
    (c.stock e 0x10001 1 = some r → (c.arr a).failed = true → exec (.stripe2Read e) s = .next (s.put (c.endStock e stState))) ∧
    (c.stock e 0x10001 1 = some r → (c.arr a).failed = false → c.readLost i o = true → exec (.stripe2Read e) s = .next (s.put (c.endStock e stDataLost))) ∧
    (∀ bytes, c.stock e 0x10001 1 = some r → (c.arr a).failed = false → c.readLost i o = false → c.readStrip a g i.stripe i.strip o n = some bytes →
      c.badChunks a g i.stripe i.strip (o / 512) ((o + n + 511) / 512 - o / 512) = [] → exec (.stripe2Read e) s = .next (s.put ((c.deliverRead i bytes).endStock e stOk))) ∧
    (let strips := if i.origin = 9 then [g.w - 2, g.w - 1] else (List.range g.w).filter (bitAt (i.field 4 4))
     let ks := if i.origin = 9 then List.range ((c.arr a).stripBytes / 512) else chunkSectors (c.arr a).stripBytes (i.field 1 1)
     (∀ vals d, c.stock e 0x10001 3 = some r → c.rebuilt a g i.stripe strips ks = some vals → (l = .confirmed ∨ c.par.role = .alone) →
       c.rewrite e a i.stripe g vals i (512 * ks.length) = some d → exec (.stripe2Reconstruct e l) s =
         .next (s.put ((d.confirmUpTo e (d.eng e).issued (d.par.role == .alone)).endStock e stOk))) ∧
     (c.stock e 0x10001 3 = some r → c.rebuilt a g i.stripe strips ks = none → ∃ lost, exec (.stripe2Reconstruct e l) s =
       .next (s.put ((c.loseStrips e a i.stripe lost 1 i.seq).endStock e stDataLost)))))

/-- R398, R399, R430, R443–R445: STRIPE2's DESTAGE leaves a bobbin that is FREE, or OPEN behind an older one, alone; otherwise it writes the strips to the
members, and retires the bobbin once its RETIRE record has landed. -/
def Obligations.StripeDestage : Prop :=
  ∀ (s : State) (e : Se) (l : LandResult) (r : Run) (i : Item) (is : List Item), s.chip.clocked = true → s.chip.stock e 0x10001 2 = some r → r.taken = i :: is →
    let c := s.chip
    let b := i.pos
    let a := c.bobArray b
    (c.bobState b = 0 → exec (.stripe2Destage e l) s = .next (s.put (c.endStock e stOk))) ∧
    (c.bobState b = 1 → (c.oldBob a (c.bobStripe b)).isSome = true → exec (.stripe2Destage e l) s = .next (s.put (c.endStock e stOk))) ∧
    ((c.bobState b = 1 ∨ c.bobState b = 2) → (c.bobState b = 1 → c.oldBob a (c.bobStripe b) = none) → c.writesWait a = false → c.ringRoom a 96 = true →
      (l = .confirmed ∨ c.par.role = .alone) → let d := (c.startDestage e b).writeMembers e b i.seq
      exec (.stripe2Destage e l) s = .next (s.put (((d.confirmUpTo e (d.eng e).issued (d.par.role == .alone)).retireBob e b).endStock e stOk))) ∧
    (c.bobState b = 3 → c.writesWait a = false → c.ringRoom a 96 = true → (l = .confirmed ∨ c.par.role = .alone) → exec (.stripe2Destage e l) s =
      .next (s.put (((c.confirmUpTo e (c.eng e).issued (c.par.role == .alone)).retireBob e b).endStock e stOk)))

/-- R473–R478, R495, R505–R508, R516: repair work is admitted while the unit serves the array with a nonzero plan: one of the waiting items takes a place and
goes to its engine, which one being firmware's choice. A reshape step brings an item for each chunk of each stripe of the next row, all at one place; a
scrub pass begins. R486–R492, R497–R500, R505–R511, R568, R608, R664: what the stock programs REPAIR, INGEST and CHAIN do with the item they have taken: a
chunk of a pass or a row of a retirement copy; a chunk of a scrub, which a stripe with a bobbin skips; a chunk of a reshape; the frames of one window; the
copy of a fired request. R507, R509: a chunk of a new stripe is read on the old side and put into a bobbin with its WRITE record; the item ends once that
has landed. -/
def Obligations.RepairWork : Prop :=
  (
  ∀ (s : State) (a : Arr), s.chip.clocked = true →
    let c := s.chip
    (∀ x, c.repairOn a = true → (c.arr a).pass = none → (c.repairWork a).filter (c.mayAdmit a) = [x] → ∃ i : Item, ∃ d : Chip, exec (.repairAdmit a) s = .next (s.put (d.submit x.1 i)) ∧
      i = { x.2 with seq := c.takeSeq.1 } ∧ d.engines = c.engines ∧ d.admNext = c.takeSeq.2.admNext ∧ (d.arr a).starved = false) ∧
    (c.repairOn a = false → exec (.repairAdmit a) s = .next s) ∧
    (c.repairOn a = true → (c.arr a).starved = false → c.repairWork a ≠ [] → (∀ x ∈ c.repairWork a, c.gapOk x.1 (c.costOf x.1 x.2) = false) → exec (.repairStarved a) s =
      .next (s.put ((c.setArr a { c.arr a with starved := true }).arrayEvent a 10 0x3F 0 c.nextPlace))) ∧
    (c.repairOn a = true → (c.arr a).scrub = none → c.eff (recSe a) 0x504 8 ≠ 0 → exec (.scrubPassStart a) s = .next (s.put (c.scrubStart a))) ∧
    (∀ r, (c.arr a).reshape = some r → c.repairOn a = true → r.paused = false → r.pausing = false → r.stepping = false → (c.arr a).resync = none →
      (r.row = 0 ∧ r.ascending (c.arr a).stripBytes = true) →
      let items := (rowStripes r.new 0).flatMap fun st => (List.range (chunksOf (c.arr a).stripBytes)).map fun ch =>
        (ownerOf a st, serviceItem 6 a st (c.rbind a 0) (c.rbind a 12) ch (repairBody 3 ch 1 0 (holders (c.arr a).beforeMap r.old st) [] r.old.bytes r.new.bytes))
      items.all (c.mayAdmit a) = true → c.bobsOf a (r.oldStripes (c.arr a).stripBytes 0) = [] →
      items.length = r.new.q * chunksOf (c.arr a).stripBytes ∧ exec (.reshapeStep a) s =
        .next (s.put (items.foldl (fun d x => d.submit x.1 { x.2 with seq := c.takeSeq.1 })
          (c.takeSeq.2.setArr a { c.arr a with starved := false, reshape := some { r with stepping := true, left := items.length } }))))) ∧
  (
  ∀ (s : State) (e : Se) (l : LandResult) (r : Run) (i : Item) (is : List Item), s.chip.clocked = true → r.taken = i :: is →
    let c := s.chip
    let a := i.array
    let st := i.stripe
    let g := (c.arr a).geomOf st
    (∀ t, c.stock e 0x10002 0 = some r → c.writesWait a = false → i.origin = 4 → (c.arr a).retire = some t → t.row = i.pos →
      exec (.rebuild e .confirmed) s = .next (s.put ((c.copyRow a t).endStock e stOk))) ∧
    (∀ p, c.stock e 0x10002 0 = some r → c.writesWait a = false → i.origin ≠ 4 → (c.arr a).pass = some p → (c.passColumns a p g st (chunkSectors (c.arr a).stripBytes (i.field 1 1))).2 = [] →
      exec (.rebuild e .confirmed) s =
        .next (s.put ((((c.passColumns a p g st (chunkSectors (c.arr a).stripBytes (i.field 1 1))).1.endStock e stOk).passPhase a i.seq)))) ∧
    (c.stock e 0x10002 1 = some r → (c.openBob a st).isSome = true ∨ (c.oldBob a st).isSome = true → exec (.scrub e l) s =
      .next (s.put ((c.setArr a { c.arr a with scrub := (c.arr a).scrub.map fun x => { x with skipped := x.skipped + 1 } }).endStock e stOk))) ∧
    (let ks := chunkSectors (c.arr a).stripBytes (i.field 1 1)
     c.stock e 0x10002 1 = some r → c.openBob a st = none → c.oldBob a st = none → (∀ k ∈ ks, (c.unavailStrips a g st k 1).length ≤ 2) →
      (∀ j < g.w, c.badChunks a g st j (ks.headD 0) ks.length = []) → (∀ k ∈ ks, ∀ col, allSome (c.memberColumn a g st k) = some col → correct g.d col = (.clean, [])) →
      exec (.scrub e l) s = .next (s.put (c.endStock e stOk))) ∧
    (c.stock e 0x10002 2 = some r → (c.arr a).reshape = none → exec (.repairReshape e l) s = .next (s.put (c.endStock e stOk))) ∧
    (∀ d done, c.stock e 0x10003 0 = some r → let c1 := c.gather e (fun j => j.source == 2 && j.origin == i.origin) 64
      (l = .confirmed ∨ c1.par.role = .alone) → c1.writeFrames e (c1.taken e) = some (d, done) → exec (.landFrame e l) s =
        .next (s.put ((done.foldl (fun c x => if x.2 = stOk then c.writeLanded e x.1.array x.1.stripe (c.replaces x.1) x.1.seq else c)
          (d.confirmUpTo e (d.eng e).issued (d.par.role == .alone))).completeFrames e done))) ∧
    (c.stock e 0x10004 0 = some r → exec (.triggered e) s =
      .next (s.put ((c.hbmWrite (i.field 0x20 8) (mread hbmInit c.hbm (i.field 0x18 8) (i.field 0x2C 4))).endStock e stOk)))) ∧
  (
  ∀ (s : State) (e : Se) (l : LandResult) (r : Run) (i : Item) (is : List Item) (x : Reshape), s.chip.clocked = true → s.chip.stock e 0x10002 2 = some r → r.taken = i :: is →
    (s.chip.arr i.array).reshape = some x →
    let c := s.chip
    let a := i.array
    let st := i.stripe
    let S := (c.arr a).stripBytes
    let g := x.new
    let ks := chunkSectors S (i.field 1 1)
    let at0 (j k : Nat) : Nat := st * g.dataBytes S + j * S + 512 * k
    let get (j k : Nat) : Option (List Byte) := if c.dataEnd a ≤ at0 j k then some (List.replicate 512 0) else c.oldSector a x.old S (at0 j k)
    (∀ b d, (∀ j < g.d, ∀ k ∈ ks, (get j k).isSome = true) → c.reshapeReady a x S i.seq = true → c.roomFor a st (chunksIn ks) (List.range g.w) = true → c.ringRoom a 128 = true →
      0 < g.d → (l = .confirmed ∨ c.par.role = .alone) → c.needBob a g st = (some b, d) →
      let u := ((ks.foldl (fun v k => v.putColumn b g.d k (List.range g.d) ((List.range g.d).map fun j => (get j k).getD [])) (d.mirrorNew c e false 0 a)).mirrorWritten e false b).writeRecords
        e a st b S g.d false [i]
      exec (.repairReshape e l) s = .next (s.put ((u.confirmUpTo e (u.eng e).issued (u.par.role == .alone)).endStock e stOk))) ∧
    (c.reshapeReady a x S i.seq = false → exec (.repairReshape e l) s = .next s))

/-- R437, R445: a DESTAGE item is issued for a bobbin that is OPEN or DESTAGING and has none, once. R420, R452–R454: a plan change takes the plan of the
accepted energy, or the partner's where that is smaller. R446–R449: the landed records go to both spill copies with the header that names them. R452: the
plan of a measured energy, in quarters of a GiB: 72 percent of the energy must pay 2 J of reserve and 0.5 J for each quarter; below four quarters there is
no plan, and no plan passes the register's limit or 32. -/
def Obligations.PlanAndSpill : Prop :=
  (
  ∀ (s : State) (b : Fin 16384) (a : Arr), s.chip.clocked = true → s.chip.vault.stopped = false →
    let c := s.chip
    let st := c.bobState b
    let own := planQ c.age.eAcc (c.eff 26 0x100 0)
    (st = 1 ∨ st = 2 → (st = 1 → c.oldBob (c.bobArray b) (c.bobStripe b) = none) → c.serving = true → c.par.handing = .none → b.val ∉ c.cache.issued →
      exec (.destageIssue b) s = .next (s.put (c.checkPlan.issueDestage b))) ∧
    (st = 0 ∨ b.val ∈ c.cache.issued ∨ c.serving = false → exec (.destageIssue b) s = .next s) ∧
    (let pair := if c.partnerSeen && decide (c.par.partnerPlan < own) then c.par.partnerPlan else own
     let d : Chip := { c with cache := { c.cache with ownQ := own, pairQ := pair, partnerSmaller := c.partnerSeen && decide (c.par.partnerPlan < own), eMeas := min 65535 c.age.eAcc } }
     exec .planChange s = .next (s.put ((if pair = c.cache.pairQ then d else (d.writeRegionHeader pair).vaultEvent 3 0 d.pages).checkPlan.writesEnabled))) ∧
    (∀ o n j, c.serving = true → (c.arr a).made = true → (c.arr a).recovered = true → (c.arr a).spills ≠ [] → (∀ e < 16, (c.eng e).tickets = []) → c.writesWait a = false →
      spillRun (c.arr a).spillJseq (c.records a) none = some (o, n, j) → exec (.spillCopy a) s =
        .next (s.put (((((c.arr a).spills.foldl (fun d y => d.spillPut a y o (c.ringRead a o n)) c).modArr a fun x => { x with spillJseq := j }).writeSpillHeader a)))) ∧
    (c.serving = false → exec (.spillCopy a) s = .next s)) ∧
  (
  ∀ (e m : Nat), planQ e m ≤ 32 ∧ planQ e m ≤ m ∧ (planQ e m = 0 ∨ 4 ≤ planQ e m) ∧ (e * 10 * 72 / 100 ≤ 2000 → planQ e m = 0) ∧
    (∀ k, 4 ≤ k → k ≤ m → k ≤ 32 → (k ≤ planQ e m ↔ 2000 + 500 * k ≤ e * 10 * 72 / 100)))

/-- R459–R461, R746, R809, R820: PWR_FAIL stops admission, engines, channels and mirroring, and the dump begins in the armed slot; line 0xEC pulses. The dump's
end makes its image current, and once PWR_FAIL is gone too the unit resets. R457, R458: an erased slot arms where none is armed. R412, R464–R466, R537,
R870: recovery takes the UID that the partner, the image or most members give, and the newest superblock of that UID; the array is that superblock's, its
volumes are read, its members attach, its journal is recovered, and it is recovered. With no metadata there is nothing to recover. -/
def Obligations.PowerFailAndRecovery : Prop :=
  (
  ∀ s : State,
    let c := s.chip
    let v := c.vault
    (v.pwrFail = false → c.clocked = true → ∃ t : State, exec .pwrFailAssert s = .next t ∧ t.pending = s.pending ∧ t.chip.vault.pwrFail = true ∧ t.chip.vault.stopped = true ∧
      (0xEC ∈ t.chip.pulses) ∧ (∀ e < 20, (t.chip.eng e).run = none ∧ (t.chip.eng e).wait = none ∧ (t.chip.eng e).actions = []) ∧
      (∀ m ∈ t.chip.par.queue, m.cls ≠ 5 ∧ m.cls ≠ 6) ∧ t.chip.vault.dumping = (v.armed || v.dumping) ∧ t.chip.vault.armed = false) ∧
    (v.pwrFail = true → exec .pwrFailAssert s = .next s) ∧
    (∀ i, c.clocked = true → v.dumping = true → v.slot v.armedSlot = some i → v.pwrFail = true → ∃ t : State, exec .vaultDumpEnd s = .next t ∧ t.pending = s.pending ∧
      t.chip.vault.dumping = false ∧ t.chip.vault.current = some v.armedSlot ∧ t.chip.vault.imageSeq = i.seq ∧ t.chip.vault.slot v.armedSlot = some { i with complete := true } ∧
      t.chip.vault.slot (!v.armedSlot) = v.slot (!v.armedSlot) ∧ t.chip = { c with vault := t.chip.vault }) ∧
    (v.stopped = false → exec .pwrFailDeassert s = .next (s.put { c with vault := { v with pwrFail := false } })) ∧
    (v.stopped = true → v.dumping = false → exec .pwrFailDeassert s = .next (s.put (Chip.chipReset { c with vault := { v with pwrFail := false } } 4 0 0 false))) ∧
    (∀ k, c.clocked = true → v.erasing = some k → v.armed = true → exec .vaultEraseDone s =
      .next (s.put (Chip.writesEnabled { c with vault := { v.setErased k true with erasing := none } }))) ∧
    (∀ k, c.clocked = true → v.erasing = some k → v.armed = false → exec .vaultEraseDone s =
      .next (s.put (Chip.writesEnabled { c with vault := { v.setErased k true with erasing := none, armed := true, armedSlot := k } })))) ∧
  (
  ∀ (s : State) (a : Arr) (f : RecoveryFacts), s.chip.clocked = true → s.chip.vault.stopped = false → (s.chip.arr a).made = false →
    let v := s.chip.vault
    let c : Chip := { s.chip with vault := { v with current := v.newest, imageSeq := match v.newest with | some k => v.seqOf k | none => 0 } }
    let cl := c.claims a
    (cl = [] → exec (.startRecovery a f) s = .next (s.put c.startErase)) ∧
    (∀ uid sb, c.chooseUid a f cl = some uid → newestSuper (cl.filter fun x => x.2.uid == uid) = some sb → ∃ lost ck hgen spillEpoch hds,
      let read := (c.setArr a (arrayOf sb lost ck hgen)).readVolumes a ((cl.filter fun x => x.2.uid == uid).map (·.1))
      let d := ((cl.map (·.1)).foldl (fun d m => d.completeAttach m) read).recoverJournal a f spillEpoch hds
      exec (.startRecovery a f) s = .next (s.put ((d.changeArr a d.nextPlace fun r => { r with recovered := true }).startErase.allAttached))))

/-! ## Remote memory -/

/-- R622, R635, R648: a packet with a bad ICRC, for a queue pair that does not exist, or on another port than its own is counted and goes no further; one whose
context is on chip is processed; one whose context is not waits in the miss queue, its cells taken, and asks for the context engine; with no cells left it
is dropped and counted. The context fetch brings the context in. R635, R642, R643: what a packet at its expected PSN, or off it, meets on a queue pair that
is not sealed: in another state than RTS it is counted as without a queue pair; past the expected PSN it is answered with one PSN Sequence Error; while the
receiver is not ready, with RNR. -/
def Obligations.RemotePackets : Prop :=
  (
  ∀ (s : State) (p : Packet), s.chip.clocked = true → (s.chip.port p.port).linkUp = true → s.chip.netServes = true → s.chip.par.handing = .none → p.ecnCe = false →
    let c := s.chip
    let n := p.qpn.toNat
    let k := (p.length + 255) / 256
    (p.icrcOk = false → exec (.rmaPacketReceive p) s = .next (s.put { c with rma := { c.rma with icrcErr := satAdd 32 c.rma.icrcErr 1 } })) ∧
    (p.icrcOk = true → ((c.qp n).all fun q => decide (q.port ≠ p.port.val)) = true → exec (.rmaPacketReceive p) s =
      .next (s.put { c with rma := { c.rma with noQp := satAdd 32 c.rma.noQp 1 } })) ∧
    (∀ q, p.icrcOk = true → c.qp n = some q → q.port = p.port.val → q.resident = true → exec (.rmaPacketReceive p) s = .next (s.put ((c.useQp n).processPacket p))) ∧
    (∀ q, p.icrcOk = true → c.qp n = some q → q.port = p.port.val → q.resident = false → c.missCells p.port + k ≤ 128 → exec (.rmaPacketReceive p) s =
      .next (s.put (Chip.request { c.grant 6 k with rma := { c.rma with miss := tput c.rma.miss [] p.port (tget c.rma.miss [] p.port ++ [p]) } } (2 ^ 26)))) ∧
    (∀ q, p.icrcOk = true → c.qp n = some q → q.port = p.port.val → q.resident = false → 128 < c.missCells p.port + k → exec (.rmaPacketReceive p) s =
      .next (s.put { c with rma := { c.rma with missDrop := tput c.rma.missDrop 0 p.port ((tget c.rma.missDrop 0 p.port + 1) % 2 ^ 64) } })) ∧
    (∀ q, c.qp n = some q → c.isGated 26 = false → (∀ x ∈ c.rma.miss, ∀ y ∈ x.2, y.qpn ≠ p.qpn) → q.resident = false → c.residents.length < 16384 → ∃ t : State,
      exec (.contextFetchDone p.qpn) s = .next t ∧ t.pending = s.pending ∧ t.chip.qp n = some { q with resident := true, used := c.rma.uses } ∧
      (∀ j, j ≠ n → t.chip.qp j = c.qp j) ∧ t.chip.rma.uses = c.rma.uses + 1)) ∧
  (
  ∀ (c : Chip) (p : Packet) (q : Qp), c.qp p.qpn.toNat = some q → q.port = p.port.val → q.sealing = false → q.rqPsn < 2 ^ 24 →
    let n := p.qpn.toNat
    (q.state ≠ .rts → c.processPacket p = { c with rma := { c.rma with noQp := satAdd 32 c.rma.noQp 1 } }) ∧
    (q.state = .rts → q.nakked = true → 0 < (p.psn.toNat + 2 ^ 24 - q.rqPsn) % 2 ^ 24 → (p.psn.toNat + 2 ^ 24 - q.rqPsn) % 2 ^ 24 < 2 ^ 23 → c.processPacket p = c) ∧
    (q.state = .rts → q.nakked = false → 0 < (p.psn.toNat + 2 ^ 24 - q.rqPsn) % 2 ^ 24 → (p.psn.toNat + 2 ^ 24 - q.rqPsn) % 2 ^ 24 < 2 ^ 23 →
      c.processPacket p = (c.nak n q.rqPsn 0).modQp n fun q => { q with nakked := true }) ∧
    (q.state = .rts → p.psn.toNat = q.rqPsn → c.rma.ready = false → c.processPacket p = c.rnr n q.rqPsn) ∧
    (q.state = .rts → p.psn.toNat = q.rqPsn → c.rma.ready = true → p.op = .other → c.processPacket p = c.nak n q.rqPsn 1) ∧
    (q.state = .rts → p.psn.toNat = q.rqPsn → c.rma.ready = true → p.op ≠ .other → p.pos = .only → (∀ m ∈ q.msgs, m.whole = true) → c.processPacket p = c.firstPacket n q p false))

/-- R638, R642, R646: the oldest message of a queue pair runs on its window and is answered: the 8 bytes of an atomic on HBM are replaced as FETCH ADD or
COMPARE SWAP says, and their old value is the answer. R623, R657, R661: an answer ends the oldest outbound request, which is then DONE, and its bytes go to
the local window; a fatal NAK puts the queue pair in ERROR; the retry timer sends the request again until its retries are used up. -/
def Obligations.RemoteMessages : Prop :=
  (
  ∀ (m : RmaMsg) (old : Nat), old < 2 ^ 64 →
    (m.op = .fetchAdd → atomicNew m old = (old + m.op0) % 2 ^ 64) ∧ (m.op = .cmpSwap → old = m.op0 → atomicNew m old = m.op1) ∧
    (m.op = .cmpSwap → old ≠ m.op0 → atomicNew m old = old) ∧
    ∀ (s : State) (qpn : BitVec 18) (q : Qp) (ms : List RmaMsg), s.chip.clocked = true → s.chip.qp qpn.toNat = some q → q.msgs = m :: ms → q.state = .rts → m.whole = true →
      let c := s.chip
      (c.msgWin m).volumeType = false → c.blocked m = false →
      ((m.op = .fetchAdd ∨ m.op = .cmpSwap) → ofLe (c.winRead m.key m.off 8) = old → exec (.messageAnswer qpn) s =
        .next (s.put ((c.winWrite m.key m.off (leBytes 8 (atomicNew m old))).answerMsg qpn.toNat q m stOk (c.winRead m.key m.off 8)))) ∧
      (m.op = .read → exec (.messageAnswer qpn) s = .next (s.put (c.answerMsg qpn.toNat q m stOk (c.winRead m.key m.off m.len)))) ∧
      (m.op = .write ∨ m.op = .send → m.begun = false → exec (.messageAnswer qpn) s = .next (s.put ((c.winWrite m.key m.off m.data).answerMsg qpn.toNat q m stOk [])))) ∧
  (
  ∀ (s : State) (qpn : BitVec 18) (q : Qp) (o : OutReq) (os : List OutReq) (l : List Byte), s.chip.clocked = true → s.chip.netServes = true →
    s.chip.qp qpn.toNat = some q → q.state = .rts → q.outs = o :: os →
    let c := s.chip
    let n := qpn.toNat
    let t := c.twr o.entry
    let d := c.setQp n (some { q with outs := os, tries := 0 })
    (t.f 0x14 4 = 0 → exec (.rmaResponseReceive qpn (.success l)) s = .next (s.put ((d.twrDone o.entry).fireTwrs c.nextPlace))) ∧
    (t.f 0x14 4 ≠ 0 → t.action = 3 → exec (.rmaResponseReceive qpn (.success l)) s =
      .next (s.put (((d.winWrite (t.f 0x14 4) (t.f 0x18 8) (l.take (t.f 0x2C 4))).twrDone o.entry).fireTwrs c.nextPlace))) ∧
    exec (.rmaResponseReceive qpn .fatalNak) s = .next (s.put (c.qpError n 2)) ∧
    (q.conn.retry ≤ q.tries → exec (.rcRetryTimeout qpn) s = .next (s.put (c.qpError n 3))) ∧
    (q.tries < q.conn.retry → t.action ≠ 1 → t.action ≠ 2 → exec (.rcRetryTimeout qpn) s = .next (s.put ((c.setQp n (some { q with tries := q.tries + 1 })).qpFrame n
      (.rmaRequest n o.psn t.action (t.f 0x20 8) (t.f 0x28 4) (t.f 0x2C 4) (t.f 0x30 8) (t.f 0x38 8) []) (q.wire 16 0)))))

/-- R625, R665: the commands on queue pairs. QP_CREATE makes one in RESET; KEY_INSTALL gives it its key while it is there; QP_CONNECT takes it to RTS with the
connection of its data; QP_QUERY tells its counters; QP_DESTROY takes it away; CTX_HOST_AREA sets the host tier while no queue pair uses it. R633, R634,
R644, R645: WIN_REGISTER makes a window VALID under its key; WIN_REVOKE makes it REVOKING at its place, and it is free, with its tag remembered, once the
last earlier message on it has been answered. R657, R658, R663: TWR_POST arms a request, which fires at once where its counter is already there; TWR_CANCEL
takes an armed one away and says so. -/
def Obligations.RemoteCommands : Prop :=
  (
  ∀ (s : State) (f : Fn) (ix : BitVec 16) (a : Adm) (l : List Byte) (q : Qp), s.chip.clocked = true →
    let c := s.chip
    let e := a.entry
    let n := eField e 4 4
    (c.entryAt f 0 ix 0x40 a → n < 2 ^ 18 → c.qp n = none → bitAt (eField e 0xB 1) 0 = false → bitAt (eField e 0xB 1) 1 = false → exec (.qpCreate f ix) s =
      .next (s.put (((c.setQp n (some { pd := eField e 8 2, port := eField e 0xA 1, sealing := bitAt (eField e 0xB 1) 2, pmtu := eField e 0xC 1, owner := f.val })).mirrorState).done f a))) ∧
    (c.entryAt f 0 ix 0x40 a → n < 2 ^ 18 → c.qp n = some q → exec (.qpCreate f ix) s = .next (s.put (c.finish f 0 a.pos stState 1))) ∧
    (∀ k sq rq, c.entryAt f 0 ix 0x41 a → a.data = some l → connOf l = some (k, sq, rq) → c.qp n = some q → q.state = .reset → (q.sealing = false ∨ q.key.isSome = true) →
      exec (.qpConnect f ix) s = .next (s.put (((c.setQp n (some { q with state := .rts, conn := k, sqPsn := sq, rqPsn := rq })).mirrorState).done f a))) ∧
    (let k : SealKey := { alg := eField e 8 1, side := eField e 9 1 == 1, salt := eField e 0xC 4, txKey := l, rxKey := l, txEpoch := eField e 0x10 4, rxEpoch := eField e 0x10 4 }
     c.entryAt f 0 ix 0x44 a → a.data = some l → c.qp n = some q → q.state = .reset → q.tier1 = false → exec (.keyInstall f ix) s =
      .next (s.put (((c.setQp n (some { q with key := some k })).mirrorState).done f a))) ∧
    (c.entryAt f 0 ix 0x43 a → eInd e = false → c.qp n = some q → exec (.qpQuery f ix) s = .next (s.put ((c.toBuffer f [(eDptr e, eDlen e)] 0 q.query).done f a))) ∧
    (c.entryAt f 0 ix 0x42 a → c.qp n = some q → q.msgs = [] → q.outs = [] → (∀ t ∈ c.rma.twrs, t.2.state ≠ 1 ∨ (t.2.trigQp ≠ n ∧ t.2.outQp ≠ n)) →
      (∀ x ∈ c.rma.miss, x.2 ≠ [] ∧ ∀ p ∈ x.2, p.qpn.toNat ≠ n) → exec (.qpDestroy f ix) s = .next (s.put (((c.setQp n none).mirrorState).done f a))) ∧
    (c.entryAt f 0 ix 0x4F a → (∀ x ∈ c.rma.qps, ∀ y, x.2 = some y → y.tier1 = false) → exec (.ctxHostArea f ix) s =
      .next (s.put (Chip.done { c with rma := { c.rma with hostArea := if eDlen e = 0 then none else some (f.val, eDptr e, eDlen e) } } f a)))) ∧
  (
  ∀ (s : State) (f : Fn) (ix : BitVec 16) (a : Adm) (l : List Byte) (i : BitVec 20), s.chip.clocked = true →
    let c := s.chip
    let e := a.entry
    let n := eField e 4 4
    (let w : RmaWin := { state := .valid, tag := eField e 8 2, lastTag := some (eField e 8 2), pd := eField e 0xA 2, volumeType := eField e 0xC 1 == 1,
                         access := eField e 0xD 1, volume := eField e 0xE 1, base := eField e 0x10 8, size := eField e 0x18 8 }
     c.entryAt f 0 ix 0x48 a → c.registerCheck e = none → exec (.winRegister f ix) s = .next (s.put (((c.setRmaWin n w).mirrorState).done f a))) ∧
    (c.entryAt f 0 ix 0x48 a → eField e 0xC 1 = 0 → n < 2 ^ 20 → 0x200000000 ≤ eField e 0x10 8 → eField e 0x10 8 + eField e 0x18 8 ≤ 0x5C0000000 →
      (c.rmaWin n).lastTag = some (eField e 8 2) → exec (.winRegister f ix) s = .next (s.put (c.finish f 0 a.pos stState 6))) ∧
    (c.entryAt f 0 ix 0x49 a → n < 2 ^ 20 → (c.rmaWin n).state = .valid → exec (.winRevoke f ix) s =
      .next (s.put (((c.setRmaWin n { c.rmaWin n with state := .revoking, drain := some (f.val, a.pos), revokedAt := a.seq }).modAdm f 0 a.pos fun x => { x with begun := true }).mirrorState))) ∧
    ((c.rmaWin i.toNat).state = .revoking → (∀ x ∈ c.rma.qps, ∀ q, x.2 = some q → ∀ m ∈ q.msgs, m.key / 4096 ≠ i.toNat) → (c.rmaWin i.toNat).drain = some (f.val, a.pos) →
      exec (.winRevokeDrain i) s =
        .next (s.put ((((c.setRmaWin i.toNat { lastTag := (c.rmaWin i.toNat).lastTag }).mirrorState).windowEvent 1 0 i.toNat).finish f 0 a.pos stOk 0))) ∧
    (let t : Twr := { state := 1, desc := BitVec.ofNat 512 (ofLe l) }
     c.entryAt f 0 ix 0x50 a → a.data = some l → twrOk t = true → n < 65536 → (c.qp t.trigQp).isSome = true → (c.qp t.outQp).isSome = true → (c.twr n).state = 0 →
      exec (.twrPost f ix) s = .next (s.put ((((c.setTwr n t).mirrorState).fireTwrs a.seq).done f a))) ∧
    (c.entryAt f 0 ix 0x51 a → n < 65536 → (c.twr n).state = 1 → exec (.twrCancel f ix) s = .next (s.put (((c.setTwr n {}).mirrorState).finish f 0 a.pos stOk 1))) ∧
    (c.entryAt f 0 ix 0x51 a → n < 65536 → (c.twr n).state ≠ 1 → exec (.twrCancel f ix) s = .next (s.put (c.done f a))))

/-! ## The coupled pair -/

/-- R674, R686: a heartbeat on the Drawbar goes out with its 16 bytes; an ACTIVE unit grants a block of 256 values in it. On the Coupler it is a message of
class 1, and takes a credit of pool 3. R674, R675, R682: a heartbeat whose CRC is wrong, or of this unit's own number, is only counted; a STANDBY unit
takes from a valid one what its partner tells, and the block it grants. R675, R683, R684, R690–R693, R707, R709: 10 µs without a valid heartbeat degrade a
path while the other delivers, and 100 ms of delivery clear that. 10 µs after its latest grant an ACTIVE unit is FENCED; 11 µs after the latest grant it
sent, with no serving partner heard since, a STANDBY unit takes the token in ALONE; 16 µs after its latest grant a FENCED unit that was ACTIVE takes it
back, or may not any more. An election with no partner heard, and FORCE_ALONE, take it too. -/
def Obligations.HeartbeatsAndToken : Prop :=
  (
  ∀ (s : State) (x : Path) (hb : Heartbeat), s.chip.clocked = true →
    let c := s.chip
    let p := c.par
    let sent : Par := { p.modPath .drawbar fun y => { y with txSeq := (y.txSeq + 1) % 2 ^ 16 } with
      grantSent := if c.grants then some c.tmb.up else p.grantSent, hbFirst := p.hbFirst <|> some c.tmb.up }
    let sentC : Par := { p.modPath .coupler fun y => { y with txSeq := (y.txSeq + 1) % 2 ^ 16 } with
      grantSent := if c.grants then some c.tmb.up else p.grantSent, hbFirst := p.hbFirst <|> some c.tmb.up, credits := p.credits - 1 }
    (p.role = .active → exec (.heartbeatSend .drawbar) s =
      .next (s.put { c with par := sent, admNext := add48 c.admNext 256, out := c.out ++ [.heartbeat true (c.heartbeatBytes .drawbar c.admNext)] })) ∧
    (p.role ≠ .active → exec (.heartbeatSend .drawbar) s = .next (s.put { c with par := sent, out := c.out ++ [.heartbeat true (c.heartbeatBytes .drawbar p.lastTaken)] })) ∧
    (p.role ≠ .active → p.trained = true → 0 < p.credits → exec (.heartbeatSend .coupler) s = .next (s.put (Chip.grant { c with
      par := sentC, out := c.out ++ [.coupler (CouplerMsg.bytes { cls := 1, prio := 0, payload := c.heartbeatBytes .coupler p.lastTaken })] } 3 1))) ∧
    (p.trained = false ∨ p.credits = 0 → exec (.heartbeatSend .coupler) s = .next s) ∧
    (hb.crcOk = false ∨ hb.unit = p.unit → exec (.heartbeat .drawbar hb) s = .next (s.put { c with par := { p with drawbar := p.drawbar.discard } })) ∧
    (hb.crcOk = true → hb.unit = !p.unit → p.role = .standby → hb.role ≠ 3 → bitAt (c.blk 83).level 4 = false → p.tokenAway = false →
      exec (.heartbeat .drawbar hb) s = .next (s.put { c with par := p.hears .drawbar hb c.tmb.up })) ∧
    (hb.crcOk = true → hb.unit = !p.unit → p.role = .standby → hb.role = 3 → bitAt (c.blk 83).level 4 = false → p.tokenAway = false →
      exec (.heartbeat .drawbar hb) s = .next (s.put (Chip.takeToken { c with par := p.hears .drawbar hb c.tmb.up } .alone 3))) ∧
    (hb.role = 0 → hb.seq ≠ 0 → (p.hears x hb c.tmb.up).blockNext = hb.seq.toNat ∧ (p.hears x hb c.tmb.up).blockLeft = 256) ∧
    (p.hears x hb c.tmb.up).partnerRole = hb.role.toNat ∧ (p.hears x hb c.tmb.up).role = p.role) ∧
  (
  ∀ (s : State) (x : Path) (t : Nat), s.chip.clocked = true →
    let c := s.chip
    let p := c.par
    ((p.path x).lastValid = some t → t + nsUp 10000 ≤ c.tmb.up → c.pathUp (p.path (otherPath x)) = true → exec (.pathDown x) s =
      .next (s.put (Chip.setLevel { c with par := p.modPath x fun y => { y with degraded := true, lastValid := none } } 83 4 true))) ∧
    (c.pathUp (p.path x) = true → exec (.pathDegradedClear x) s = .next (s.put { c with par := p.modPath x fun y => { y with degraded := false } })) ∧
    (p.role = .active → p.lastGrant = some t → exec .leaseExpire s =
      .next (s.put ((((c.passUp (t + nsUp 10000)).yieldToken .fenced 5 false).idleGates).setCause 83 3))) ∧
    (p.role = .standby → p.grantSent = some t → (∀ u, p.lastActive = some u → u ≤ t) → exec .takeover s = .next (s.put ((c.passUp (t + nsUp 11000)).takeToken .alone 2))) ∧
    (∀ u, p.role = .standby → p.grantSent = some t → p.lastActive = some u → t < u → exec .takeover s = .next s) ∧
    (p.role = .fenced → p.wasActive = true → p.reclaimBlocked = false → p.lastGrant = some t → p.heardSinceGrant = false → p.degradedAtGrant = false → p.rxProved = true →
      exec (.reclaim true true) s = .next (s.put ((c.passUp (t + nsUp 16000)).takeToken .alone 4))) ∧
    (p.role = .fenced → p.wasActive = true → p.reclaimBlocked = false → p.lastGrant = some t → t + nsUp 16000 ≤ c.tmb.up → exec (.reclaim false true) s =
      .next (s.put { c with par := { p with reclaimBlocked := true } })) ∧
    (p.role = .fenced → p.electing = true → p.coupler.lastValid = none → p.drawbar.lastValid = none → p.hbFirst = some t → c.eff 83 0x100 13 = 1 → exec .electWaitExpire s =
      .next (s.put ((c.passUp (t + nsUp (c.eff 83 0x100 16 * 10000000))).takeToken .alone 1))) ∧
    (∀ w, Who.mayWrite w c = true → p.role = .fenced → exec (.forceAlone w) s = .next (s.put (c.takeToken .alone 8))) ∧
    (∀ w, Who.mayWrite w c = true → p.role ≠ .fenced → exec (.forceAlone w) s = .next s) ∧
    (p.announce = true → c.pwr.waking &&& c.groupsMask 0xFFFF = 0 → c.tmb.lockedEver = true → (c.port 0).linkUp = true → (∀ q < 4, 0 < q → (c.port q).linkUp = false) →
      exec .announceSend s = .next (s.put { c with par := { p with announce := false }, out := c.out ++ [.frame 0 (.announce p.role.code p.announceSeq)
        (Chip.announceBytes { c with par := { p with announce := false } } 0 p.role.code p.announceSeq)] })))

/-- R678, R679: credits to return go first over the Coupler; then the oldest message of the lowest priority number, once the credits allow; received credits
are units of pool 3 given back. R438, R439, R655, R697, R700: MIRROR and JOURNAL messages reach the protected region of a unit that is STANDBY, CONFIRM
confirms every ticket up to its own, a STATE message sets the mirrored state, and part of a copy reaches a unit that is copied to; the copy's end makes it
STANDBY. R680, R118, R119: a TIME message tells the send time and the receive time of the previous exchange; from the partner's and its own times a unit
has the offset between the two clocks. -/
def Obligations.CouplerTraffic : Prop :=
  (
  ∀ (s : State) (m : CouplerMsg) (n : W32) (off : BitVec 40) (l : List Byte) (e : Se) (t : BitVec 48), s.chip.clocked = true →
    let c := s.chip
    let p := c.par
    (p.trained = true → 0 < p.owed → 0 < p.credits → exec .couplerSend s = .next (s.put (Chip.grant { c with par := { p with owed := 0, credits := p.credits - 1 }
                                                                                                             out := c.out ++ [.coupler (CouplerMsg.bytes
        { cls := 9, prio := 0, payload := beBytes 4 (p.owed % 2 ^ 32) })] } 3 1))) ∧
    (p.trained = true → p.owed = 0 → nextMsg p.queue = some m → m.cls ≠ 8 → creditsFor m.payload.length ≤ p.credits → exec .couplerSend s =
      .next (s.put (Chip.grant { c with par := { p with queue := p.queue.erase m, credits := p.credits - creditsFor m.payload.length }, out := c.out ++ [.coupler m.bytes] } 3
        (creditsFor m.payload.length)))) ∧
    (let k := min n.toNat (c.pool 3).held
     exec (.credit n) s = .next (s.put (Chip.giveBack { c with par := { p with owed := p.owed + 1, credits := p.credits + k } } 3 k))) ∧
    (p.role = .standby → off.toNat + l.length ≤ 0x200000000 → exec (.mirror off l e t) s = .next (s.put (((c.received l.length).hbmWrite off.toNat l).mirrored e t.toNat))) ∧
    (p.role ≠ .standby → p.copying = false → exec (.mirror off l e t) s = .next (s.put (c.received l.length))) ∧
    (let a := (off.toNat - 0x01000000) / ringSize
     let o := (off.toNat - 0x01000000) % ringSize
     p.role = .standby → 0x01000000 ≤ off.toNat → off.toNat < 0x11000000 → l.length ≤ 256 → exec (.journal off l e t) s =
      .next (s.put ((((((c.received l.length).ringWrite a o l).hbmWrite (ringAt a) (leBytes 8 ((o + l.length) % ringSize))).hbmWrite (ringAt a + 16)
        ((l.drop 4).take 4 ++ leBytes 8 (ofLe ((l.drop 8).take 8) + 1))).mirrored e t.toNat)))) ∧
    (p.handing = .none → exec (.confirm e t) s = .next (s.put ((((c.eng e).tickets.filter fun k => decide (0 ≤ timeDiff t.toNat k.num)).map (·.num)).foldl
      (fun d k => d.confirmTicket e k false) (c.received 0)))) ∧
    (∀ i j, p.role = .standby → exec (.state (.twr i j)) s = .next (s.put ((c.received 32).setTwr i.toNat { c.twr i.toNat with state := j.toNat }))) ∧
    (p.copying = true → off.toNat + l.length ≤ 0x200000000 → exec (.copy off l) s = .next (s.put ((c.received l.length).hbmWrite off.toNat l))) ∧
    (p.role = .fenced → p.copying = true → exec .copyComplete s = .next (s.put (Chip.roleEvent
      { c with par := { p with role := .standby, copying := false, reclaimBlocked := false, wasActive := false, grantSent := none } } .fenced 7 0)))) ∧
  (
  ∀ (s : State) (t1 t2 t4 : W64) (got sent : Nat), s.chip.clocked = true →
    let c := s.chip
    let p := c.par
    (p.trained = true → 0 < p.credits → exec .timeSend s = .next (s.put (Chip.grant { c with
      par := { p with credits := p.credits - 1, timeSent := some c.nowLayout }
      out := c.out ++ [.coupler (CouplerMsg.bytes { cls := 4, prio := 2, last := true, payload := beBytes 8 (p.timeSent.getD 0) ++ beBytes 8 (p.timeGot.getD 0) })] } 3 1))) ∧
    (p.timeGot = none ∨ p.timeSent = none → exec (.time t1 t2 t4) s = .next (s.put { c with par := { p with owed := p.owed + 1, timeGot := some t4.toNat } })) ∧
    (p.timeGot = some got → p.timeSent = some sent → c.tmb.following = false → c.tmb.state ≠ .holdover →
      (let d := (toSigned 64 ((got + 2 ^ 64 - t1.toNat) % 2 ^ 64) - toSigned 64 ((t2.toNat + 2 ^ 64 - sent) % 2 ^ 64)) / 2 / 65536
       exec (.time t1 t2 t4) s = .next (s.put { c with par := { p with owed := p.owed + 1, timeGot := some t4.toNat, timeOffset := satInt (2 ^ 31 - 1) d } }))))

/-- R698, R699, R703–R706: a proof cycle that passes counts, and makes the preferred STANDBY unit ready once enough have passed; a failed step sets PROOF. A
planned handover drains, chooses its instant outside the reserved intervals, stops there, and ends with a HANDOVER message, on which the partner becomes
ACTIVE. -/
def Obligations.PlannedHandover : Prop :=
  ∀ (s : State) (w : Who) (k : Fin 9) (next : BitVec 48), s.chip.clocked = true →
    let c := s.chip
    let p := c.par
    (p.role = .standby → p.partnerRole = 0 → k = 0 → let n := satAdd 16 p.clean 1
      exec (.proofCycle k) s = .next (s.put { c with par := { p with rxProved := true, proofOk := true, clean := n
                                                                     failbackReady := p.failbackReady || (p.preferred && decide (10 * c.eff 83 0x100 0 ≤ n)) } })) ∧
    (p.role = .standby → p.partnerRole = 0 → k ≠ 0 → exec (.proofCycle k) s = .next (s.put (Chip.setCause
      { c with par := { p with rxProved := k != 1 && k != 2, proofOk := false, failbackReady := false, clean := 0, lastFail := k, fails := satAdd 8 p.fails 1 } } 83 5))) ∧
    (p.role = .active → p.partnerRole = 1 → exec (.proofCycle k) s = .next (s.put { c with par := { p with rxProved := k != 1 && k != 2 } })) ∧
    (Who.mayWrite w c = true → p.role = .active → p.handing = .none → p.partnerRole = 1 → p.partnerProofOk = true → exec (.plannedHandover w) s =
      .next (s.put { c with par := { p with handing := .draining } })) ∧
    (p.handing = .draining → c.drained = true → (∀ x ∈ c.wins, x.2.live = false ∨ x.2.reserved = []) → exec .handoverDrainDone s =
      .next (s.put { c with par := { p with handing := .drained, handAt := c.nowNs } })) ∧
    (p.handing = .drained → (∀ j < 16, (c.chan (48 + j)).state ≠ .running) → exec .handoverInstant s =
      .next (s.put (Chip.handOff { c.passTo p.handAt with par := { p with handing := .stopped } }))) ∧
    (p.role = .standby → exec (.handover next) s = .next (s.put (Chip.takeToken { c with
      admNext := next.toNat
      par := { p with owed := p.owed + 1, seqTop := none, lastGrant := some c.tmb.up, degradedAtGrant := p.degraded, heardSinceGrant := false } } .active 6))) ∧
    (p.role ≠ .standby → exec (.handover next) s = .next (s.put (c.received 8)))

/-! ## Safety, ageing, snapshots -/

/-- R715, R719, R723, R724, R733: the Guard's watch on a merged cause marked S, a failed step of the proof of an ALONE unit, ERR_OUT's test pulse and the end
of its minimum, the self-test that lets the pin go, and the end of a block reset, with its FAULT event. R744–R747: a hold-up test starts when it is due and
none runs, and its end computes the energy; the first measurement counts alone, a lower one at once, and a higher one only after another, as the smaller of
the two. -/
def Obligations.GuardAndHoldUp : Prop :=
  (
  ∀ (s : State) (w : Who) (r : Rec) (k : Nat), s.chip.clocked = true →
    let c := s.chip
    let b := c.blk r
    ((b.watch.find? fun k => bitAt (causesS (kindOf r)) k) = some k → b.handling = true → exec (.handleTimeout r) s =
      .next (s.put (Chip.setCause { c with grd := { c.grd with handleRecord := r.val, handleCause := k } } 84 4))) ∧
    (b.watch = [] → exec (.handleTimeout r) s = .next s) ∧
    (c.par.role = .alone → exec (.aloneSelfProof 4) s = .next (s.put (Chip.setCause
      { c with par := { c.par with proofOk := false, failbackReady := false, clean := 0, lastFail := 4, fails := satAdd 8 c.par.fails 1 } } 83 5))) ∧
    (c.par.role ≠ .alone → exec (.aloneSelfProof 4) s = .next s) ∧
    (Who.mayWrite w c = true → c.grd.errOutPin = false → exec (.errOutTest w) s = .next (s.put { c with
      out := c.out ++ [.errOut true], grd := { c.grd with errOutPin := true, test := true, errHold := true } })) ∧
    (c.grd.boot = false → (∀ x ∈ c.blocks, x.2.handling = false ∨ x.2.errOut = false) → c.grd.errOutPin = true → exec .errOutHoldEnd s = .next (s.put { c with
      out := c.out ++ [.errOut false], grd := { c.grd with test := false, errHold := false, errOutPin := false } })) ∧
    (c.sec.boot ≠ .rom → exec .guardSelfTest s = .next (s.put (Chip.releaseErr { c with grd := { c.grd with boot := false } }))) ∧
    (b.resetting = true → exec (.blockResetDone r) s = .next (s.put
      (let d := (c.blockReset r).modBlk r fun y => { y.resetCfg with resetting := false }
       d.faultEvent r (d.blk r).first 3 false (d.blk r).place)))) ∧
  (
  ∀ (s : State) (w : Who) (v0 : BitVec 16) (g : Age) (e f : Nat), s.chip.clocked = true →
    let c := s.chip
    (Who.mayWrite w c = true → exec (.hupNow w) s = .next (s.put { c with age := { c.age with hupNow := true } })) ∧
    (c.age.hupNow = true → c.vault.pwrFail = false → c.age.hupRunning = none → exec (.hupTestStart v0) s = .next (s.put { c with
      out := c.out ++ [.hupTest true], age := { c.age with hupRunning := some v0.toNat, hupTestPin := true, hupNow := false, hupAt := some c.tmb.up } })) ∧
    (c.age.hupRunning = some v0.toNat → exec (.hupTestEnd v0) s = .next (s.put (let d := c.passUp ((c.age.hupAt.getD c.tmb.up) + nsUp 2000000)
      { d with out := c.out ++ [.hupTest false], pulses := c.pulses ++ [0xED], age := { c.age with hupRunning := none, hupTestPin := false, v0 := v0.toNat, v1 := v0.toNat } }))) ∧
    (∀ v1 : BitVec 16, c.age.hupRunning = some v0.toNat → hupEnergy v0.toNat v1.toNat (8 * c.eff 90 0x104 19) (c.eff 90 0x104 0) (c.eff 90 0x104 12) = some e → c.age.eFirst = false →
      c.age.ePrevAbove = none → c.age.eAcc < e → exec (.hupTestEnd v1) s = .next (s.put (Chip.checkPlan (let d := c.passUp ((c.age.hupAt.getD c.tmb.up) + nsUp 2000000)
        { d with out := c.out ++ [.hupTest false], pulses := c.pulses ++ [0xED]
                 age := Age.measure { c.age with hupRunning := none, hupTestPin := false, v0 := v0.toNat, v1 := v1.toNat } e })))) ∧
    (g.eFirst = true → (g.measure e).eAcc = e) ∧ (g.eFirst = false → e < g.eAcc → (g.measure e).eAcc = e) ∧
    (g.eFirst = false → g.ePrevAbove = none → g.eAcc < e → (g.measure e).eAcc = g.eAcc) ∧
    (g.eFirst = false → g.ePrevAbove = none → g.eAcc < e → g.eAcc < f → ((g.measure e).measure f).eAcc = min e f))

/-- R736, R738, R740, R741: slack below 25 ps raises the core setpoint by one step; the life record takes the equivalent hours; the crystal's observed offset
is cleared. -/
def Obligations.Ageing : Prop :=
  ∀ (s : State) (w : Who) (ps : BitVec 10) (tj : Int), s.chip.clocked = true →
    let c := s.chip
    let g := c.age
    (ps.toNat < 25 → let sp := min 800 (g.setpoint + 5)
      exec (.slackSample ps) s = .next (s.put ((Chip.record { c with free := c.free + 1, age := { g with slack := ps.toNat, setpoint := sp, dayMin := min g.dayMin sp } } 7 90 1 sp 0).checkMargin))) ∧
    (25 ≤ ps.toNat → ∃ sp, (sp = g.setpoint ∨ sp = max 650 (g.setpoint - 5)) ∧ exec (.slackSample ps) s =
      .next (s.put ((Chip.record { c with free := c.free + 1, age := { g with slack := ps.toNat, setpoint := sp, dayMin := min g.dayMin sp } } 7 90 1 sp 0).checkMargin))) ∧
    (105 < tj → (g.seconds + 1) % 86400 ≠ 0 → exec (.thermalIntegrate tj) s =
      .next (s.put (Chip.checkMargin { c with age := { g with eq := g.eq + accel tj, seconds := g.seconds + 1 } }))) ∧
    exec .lifeSave s = .next (s.put { c with age := { g with savedEq := g.eq } }) ∧
    (Who.mayWrite w c = true → exec (.xtalReset w) s = .next (s.put (Chip.checkMargin { c with age := { g with obsPpm := 0 } }))) ∧
    accel 95 = 2 ^ 32 ∧ (∀ a b : Int, -40 ≤ a → a < b → b ≤ 125 → accel a < accel b)

/-- R750–R757: a request waits for the next trigger, which takes the next number and the time into every bank, latches every pool's counters, and pulses line
0xFE; SNAP_OUT falls 120 ns after it. R34, R35, R734, R735: an audit takes the counters that the latest trigger latched, and names every pool that does not
balance. R763–R766: FREEZE and UNFREEZE stop and restart the recorder, EVR_CLEAR empties it while it is frozen, and a marker is recorded as kind 8 where
that is enabled. -/
def Obligations.SnapshotsAndRecorder : Prop :=
  (
  ∀ (s : State) (w : Who), s.chip.clocked = true →
    let c := s.chip
    let ask (k : Nat) : Chip := { c with snp := { c.snp with requests := c.snp.requests ++ [(k, 0)] } }
    (c.eff 91 0x100 20 = 1 → exec .snapIn s = .next (s.put (ask 0))) ∧ (c.eff 91 0x100 20 ≠ 1 → exec .snapIn s = .next s) ∧
    (Who.mayWrite w c = true → exec (.fire w) s = .next (s.put (ask 2))) ∧ (c.eff 91 0x100 0 ≠ 0 → exec .snapPeriod s = .next (s.put (ask 3))) ∧
    (c.snp.requests = [] → exec .snapTrigger s = .next s) ∧
    (c.snp.requests ≠ [] → c.snp.last = none → ∃ t : State, exec .snapTrigger s = .next t ∧ t.pending = s.pending ∧ t.chip.snp.seq = (c.snp.seq + 1) % 2 ^ 32 ∧
      t.chip.snp.time = c.nowLayout ∧ t.chip.snp.requests = [] ∧ t.chip.snp.sinceAudit = true ∧ t.chip.pulses = c.pulses ++ [0xFE] ∧
      (∀ r ∈ blockRecs, (t.chip.blk r).snap.seq = (c.snp.seq + 1) % 2 ^ 32 ∧ (t.chip.blk r).snap.time = c.nowLayout ∧ (t.chip.blk r).cause = (c.blk r).cause) ∧
      (∀ p < 8, (t.chip.pool p).snap = ((c.pool p).granted, (c.pool p).returned, (c.pool p).held, (c.pool p).inFlight)) ∧
      t.chip = { c with blocks := t.chip.blocks, pools := t.chip.pools, snp := t.chip.snp, evr := t.chip.evr, pulses := t.chip.pulses, out := t.chip.out }) ∧
    (c.snp.outHigh = true → exec .snapOutEnd s = .next (s.put (let d := c.passUp (c.snp.last.getD 0 + nsUp 120)
      { d with out := c.out ++ [.snapOut false], snp := { c.snp with outHigh := false } }))) ∧
    (c.snp.sinceAudit = true → (∀ p < 8, let l := (c.pool p).snap
        l.1 = l.2.1 + (l.2.2.1 + l.2.2.2) ∧ (if p = 5 then l.2.2.1 else l.2.2.1 + l.2.2.2) ≤ c.capacity p) → ∃ t : State, exec .audit s = .next t ∧ t.pending = s.pending ∧
      t.chip.grd = { c.grd with imbal := 0, audits := (c.grd.audits + 1) % 2 ^ 64 } ∧ t.chip.snp = { c.snp with sinceAudit := false } ∧
      (∀ p < 8, (t.chip.pool p).latched = (c.pool p).snap) ∧ t.chip = { c with pools := t.chip.pools, grd := t.chip.grd, snp := t.chip.snp })) ∧
  (
  ∀ (s : State) (w : Who), s.chip.clocked = true → Who.mayWrite w s.chip = true →
    let c := s.chip
    exec (.freeze w) s = .next (s.put { c with evr := { c.evr with frozen := true, frozenBy := 1, post := none } }) ∧
    (c.evr.frozen = true → exec (.unfreeze w) s = .next (s.put { c with evr := { c.evr with frozen := false, frozenBy := 0 } })) ∧
    (c.evr.frozen = true → exec (.evrClear w) s = .next (s.put { c with evr := { c.evr with ring := [], next := 0, wrapped := false, dropped := 0 } })) ∧
    (c.evr.frozen = false → exec (.evrClear w) s = .next s) ∧
    (bitAt (c.eff 92 0x100 1) 7 = false → exec (.mark w) s = .next s) ∧
    (let x : EvrRec :=
       { time := c.nowLayout, kind := 8, record := 92, code := c.evr.mark % 2 ^ 16, seq := c.admNext, arg0 := c.evr.mark / 2 ^ 32 % 2 ^ 32, arg1 := 0, rseq := c.evr.rseq }
     bitAt (c.eff 92 0x100 1) 7 = true → c.evr.frozen = false → c.evr.wrapped = false → c.evr.post = none → c.evr.next < 65535 → ∃ t : State, exec (.mark w) s = .next t ∧
      t.pending = s.pending ∧ tget t.chip.evr.ring {} c.evr.next = x ∧
      t.chip.evr.next = c.evr.next + 1 ∧ t.chip.evr.rseq = (c.evr.rseq + 1) % 2 ^ 32 ∧ t.chip = { c with evr := t.chip.evr }))

/-! ## Code flash, boot and attestation -/

/-- R770–R775: a port that is reached and runs no command takes the keys in order, each within 1 ms of the first; a wrong key ends the sequence. READ needs
none: an address that is no unit's is refused, an execute-only region is denied to port 1, and with up to four bit errors the unit is corrected. R771: a
sequence that runs out ends with its result. R769–R780, R785, R787: the data words come in order, and the last one starts the program of a blank unit that
no protected region covers; an erase starts on an idle bank; a suspend and a resume act on the bank whose erase stands so. A program's end writes its
bytes, an erase's end all ones. A writer that does not reach the port changes nothing. -/
def Obligations.CodeFlash : Prop :=
  (
  ∀ (s : State) (w : Who) (p : Bool) (v : W32) (addr : BitVec 26) (n : Nat), s.chip.clocked = true → Who.mayPort w p s.chip = true →
    let c := s.chip
    let x := c.cport p
    let now := { c with cfl := { c.cfl with ports := tput c.cfl.ports {} (b2n p) { x with addr := addr.toNat } } }
    (x.seq = .locked → x.reading = false → v = 0x4C58 → exec (.cflKey w p v) s = .next (s.put (c.modCport p fun y =>
      { y with seq := .key1, keyAt := c.tmb.up, done := false, err := false }))) ∧
    (x.seq = .locked → x.reading = false → v ≠ 0x4C58 → exec (.cflKey w p v) s = .next (s.put (c.cflEnd p resSeqErr))) ∧
    (x.seq = .key1 → c.tmb.up < x.keyAt + nsUp 1000000 → v = 0xB3A7 → exec (.cflKey w p v) s = .next (s.put (c.modCport p fun y => { y with seq := .armed }))) ∧
    (x.seq = .key1 → c.tmb.up < x.keyAt + nsUp 1000000 → v ≠ 0xB3A7 → exec (.cflKey w p v) s = .next (s.put (c.cflEnd p resSeqErr))) ∧
    (x.seq = .locked → addr.toNat % 64 ≠ 0 → exec (.cflRead w p addr n) s = .next (s.put (now.cflEnd p resAlign))) ∧
    (x.seq = .locked → addr.toNat % 64 = 0 → p = true → c.xoAt addr.toNat = true → exec (.cflRead w p addr n) s = .next (s.put (now.cflDeny p resXoDenied))) ∧
    (x.seq = .locked → addr.toNat % 64 = 0 → (p = false ∨ c.xoAt addr.toNat = false) → (c.bank (bankOf addr.toNat)).prog = none → (c.bank (bankOf addr.toNat)).op = .idle →
      n ≤ 4 → n < c.eff 85 0x100 0 → exec (.cflRead w p addr n) s = .next (s.put ((now.cflShow p (c.flashBytes addr.toNat 64) n).cflEnd p resOk))) ∧
    (x.seq = .locked → addr.toNat % 64 = 0 → (c.bank (bankOf addr.toNat)).prog = none → (c.bank (bankOf addr.toNat)).op = .erasing → (p = false ∨ c.xoAt addr.toNat = false) →
      exec (.cflRead w p addr n) s = .next (s.put (now.cflEnd p resBusy))) ∧
    (x.inSequence = true → exec (.sequenceTimeout p) s = .next (s.put ((c.passUp (x.keyAt + nsUp 1000000)).cflEnd p resSeqTimeout)))) ∧
  (
  ∀ (s : State) (w : Who) (p b : Bool) (i : Fin 16) (v : W32) (addr : BitVec 26), s.chip.clocked = true →
    let c := s.chip
    let x := c.cport p
    let fresh := c.tmb.up < x.keyAt + nsUp 1000000
    let a := addr.toNat
    (Who.mayPort w p c = false → exec (.cflData w p i v) s = .next s ∧ exec (.erase w p addr) s = .next s) ∧
    (Who.mayPort w p c = true → x.seq = .data → fresh → x.words = i.val → i.val < 15 → exec (.cflData w p i v) s =
      .next (s.put (c.modCport p fun y => { y with data := tput y.data 0 i v.toNat, words := i.val + 1 }))) ∧
    (Who.mayPort w p c = true → x.seq = .data → fresh → x.words ≠ i.val → exec (.cflData w p i v) s = .next (s.put (c.cflEnd p resSeqErr))) ∧
    (Who.mayPort w p c = true → x.seq = .data → fresh → x.words = 15 → c.wpAt x.addr = false → (c.bank (bankOf x.addr)).prog = none → (c.bank (bankOf x.addr)).op = .idle →
      (∀ y ∈ c.flashBytes x.addr 64, y = 0xFF) →
      let image := (List.range 16).flatMap fun k => leBytes 4 (tget (tput x.data 0 15 v.toNat) 0 k)
      exec (.program w p v) s = .next (s.put ((c.modCport p fun y => { y with data := tput y.data 0 15 v.toNat, words := 16, seq := .running }).modBank (bankOf x.addr) fun y =>
        { y with op := .programming, prog := some (p, x.addr), image := image }))) ∧
    (Who.mayPort w p c = true → x.seq = .armed → fresh → a % 0x10000 = 0 → c.wpAt a = false → (c.bank (bankOf a)).op = .idle → exec (.erase w p addr) s =
      .next (s.put ((c.modCport p fun y => { y with addr := a, seq := .running, erasing := some (bankOf a) }).modBank (bankOf a) fun y => { y with op := .erasing, port := p, sector := inBank a }))) ∧
    (Who.mayPort w p c = true → x.seq = .locked → x.reading = false → c.bankWith p .erasing = some b → (c.bank b).suspending = none → exec (.eraseSuspend w p) s =
      .next (s.put ((c.modCport p fun y => { y with seq := .running, erasing := none, done := false }).modBank b fun y => { y with suspending := some p }))) ∧
    (Who.mayPort w p c = true → x.seq = .locked → x.reading = false → c.bankWith p .suspended = some b → (c.bank b).prog = none → exec (.eraseResume w p) s =
      .next (s.put ((c.modBank b fun y => { y with op := .erasing }).cflEnd p resOk))) ∧
    ((c.bank b).op = .erasing → (c.bank b).suspending = some p → exec (.suspendReached b) s =
      .next (s.put ((c.modBank b fun y => { y with op := .suspended, suspending := none }).cflEnd p resOk))) ∧
    (∀ u, (c.bank b).prog = some (p, u) → (c.cport false).waiting = none → (c.cport true).waiting = none → (c.bank b).op = .programming → exec (.programComplete b) s =
      .next (s.put (((c.flashWrite u (c.bank b).image).modBank b fun y => { y with op := .idle, prog := none, image := [] }).cflEnd p resOk))) ∧
    ((c.bank b).op = .erasing → (c.bank b).suspending = none → (c.cport (c.bank b).port).erasing = some b → exec (.eraseComplete b) s = .next (s.put
      (((c.flashWrite (b2n b * 0x2000000 + (c.bank b).sector * 0x10000) (List.replicate 0x10000 0xFF)).modBank b fun _ => {}).cflEnd (c.bank b).port resOk))) ∧
    (∀ r : Fin 8, Who.mayWrite w c = true → exec (.xoLock w r) s = .next (s.put { c with cfl := { c.cfl with xo := tput c.cfl.xo {} r { c.xo r with lock := true } } })))

/-- R791–R793: a floor row is written only above the floor in force, while rows are left, and for the firmware no higher than the running version; SEC_FLOOR
says why not. R799: MEAS6 and MEAS7 are extended with the bytes of SEC_EXTEND. R794, R797: the confirm mark of the running bank is set, once. R796, R798:
the boot ROM measures the header and stage 1 of the bank it boots, the bootable one with the higher BANK_SEQ. R800, R262: stage 2 starts where its digests
match, and the unit then runs with its host ports ready. R801, R802: an attestation takes the nonce, the measurements and the time as they stand, and its
end leaves the report in place. -/
def Obligations.SecureBoot : Prop :=
  (
  ∀ (s : State) (w : Who) (v : W32), s.chip.clocked = true → Who.mayWrite w s.chip = true →
    let c := s.chip
    let ver := v.toNat % 2 ^ 16
    let said (k : Nat) : Chip := { c with sec := { c.sec with floorResult := k } }
    (v.toNat / 2 ^ 16 % 8 = 0 → ver ≤ c.fwFloor → exec (.secFloorWrite w v) s = .next (s.put (said 2))) ∧
    (v.toNat / 2 ^ 16 % 8 = 0 → c.fwFloor < ver → 32 ≤ c.sec.fwRows.length → exec (.secFloorWrite w v) s = .next (s.put (said 3))) ∧
    (v.toNat / 2 ^ 16 % 8 = 0 → c.fwFloor < ver → c.sec.fwRows.length < 32 → c.sec.fwVersion < ver → exec (.secFloorWrite w v) s = .next (s.put (said 4))) ∧
    (v.toNat / 2 ^ 16 % 8 = 0 → c.fwFloor < ver → c.sec.fwRows.length < 32 → ver ≤ c.sec.fwVersion → ∃ t : State, exec (.secFloorWrite w v) s = .next t ∧ t.pending = s.pending ∧
      t.chip.sec.fwRows = c.sec.fwRows ++ [ver] ∧ t.chip.sec.floorResult = 1 ∧ t.chip.sec.keyRows = c.sec.keyRows ∧ t.chip = { c with sec := t.chip.sec, free := t.chip.free }) ∧
    (4 < v.toNat / 2 ^ 16 % 8 → exec (.secFloorWrite w v) s = .next s) ∧
    exec (.extend6 w) s = .next (s.put { c with sec := { c.sec with meas := tput c.sec.meas (List.replicate 32 0) 6 (sm3 (c.meas 6 ++ c.extendBytes)) } }) ∧
    exec (.extend7 w) s = .next (s.put { c with sec := { c.sec with meas := tput c.sec.meas (List.replicate 32 0) 7 (sm3 (c.meas 7 ++ c.extendBytes)) } }) ∧
    (c.sec.boot = .stage2 → c.marked c.sec.bank confirmAt = false → ∃ t : State, exec (.fwConfirm w) s = .next t ∧ t.pending = s.pending ∧
      t.chip.marked c.sec.bank confirmAt = true ∧ t.chip.sec = { c.sec with trial := false } ∧ t.chip = { c with cfl := t.chip.cfl, sec := t.chip.sec, free := t.chip.free }) ∧
    (c.sec.boot = .stage2 → c.marked c.sec.bank confirmAt = true → exec (.fwConfirm w) s = .next s)) ∧
  (
  ∀ (s : State) (w : Who) (b : Bool), s.chip.clocked = true →
    let c := s.chip
    (c.sec.boot = .rom → c.bootBank = some b → c.marked b confirmAt = true → ∃ t : State, exec .stage1Start s = .next t ∧ t.pending = s.pending ∧ t.chip.sec.boot = .stage1 ∧
      t.chip.sec.bank = b ∧ t.chip.sec.trial = false ∧ t.chip.sec.fwVersion = c.hdr b 6 2 ∧ t.chip.meas 0 = sm3 (c.meas 0 ++ sm3 (c.hdrBytes b 0 0x1000)) ∧
      t.chip.meas 1 = sm3 (c.meas 1 ++ c.hdrBytes b 0x60 32) ∧ (∀ k, 1 < k → t.chip.meas k = c.meas k) ∧ t.chip = { c with sec := t.chip.sec, pwr := t.chip.pwr }) ∧
    (c.sec.boot ≠ .rom → exec .stage1Start s = .next s) ∧
    (c.bootBank = some b ↔ c.bootable b = true ∧ (c.bootable (!b) = true → if b then c.hdr false 8 8 < c.hdr true 8 8 else c.hdr true 8 8 ≤ c.hdr false 8 8)) ∧
    (c.sec.boot ≠ .stage1 → exec .stage2Start s = .next s) ∧
    (c.sec.boot = .stage1 → sm3 (c.flashBytes (bankBase c.sec.bank + 0x100000) (c.hdr c.sec.bank 0x54 4)) = c.hdrBytes c.sec.bank 0x80 32 →
      sm3 (c.flashBytes (bankBase c.sec.bank + 0x1000000) (c.hdr c.sec.bank 0x58 4)) = c.hdrBytes c.sec.bank 0xA0 32 → c.aon.kind ≠ 2 → ∃ t : State, exec .stage2Start s = .next t ∧
      t.pending = s.pending ∧ t.chip.sec.boot = .stage2 ∧ t.chip.pwr.state = .running ∧ t.chip.pwr.hostReady = true ∧ t.chip.age.cleanStop = false) ∧
    (Who.mayWrite w c = true → exec (.attGo w) s = .next (s.put { c with sec := { c.sec with
      attBusy := true, attDone := false, attNonce := (List.range 8).flatMap fun i => leBytes 4 (tget c.sec.nonce 0 i)
      attMeas := (List.range 8).flatMap fun i => c.meas i, attTime := c.nowLayout, attSeq := c.nextPlace } })) ∧
    (c.sec.attBusy = true → ∃ sig, exec .attestDone s = .next (s.put { c with sec := { c.sec with attBusy := false, attDone := true, report := c.reportBody ++ sig }, free := c.free + 1 })))

/-! ## Clocks, power states and resets -/

/-- R806–R808, R812–R814: a unit gates only where the mode allows it, nothing asks for it and it is idle; a gated unit that is asked for wakes. A mode change
ends once every unit that the mode needs is awake. R821–R826, R131–R134: the first refusal in its order is told; otherwise the entry begins, and ends in
SIDING once everything is quiet, with no fast memory left. A wake source that is enabled begins the exit, which restores the time from the always-on copy,
and the unit runs. R816–R820: the write of a comparator's control register arms it; its match pulses its line, holds its requests, and arms again with a
period. A wake pin's edge of at least 1 µs pulses its line. R828, R829: calibration steps, and how a port without them is told. -/
def Obligations.PowerStates : Prop :=
  (
  ∀ (s : State) (u : Fin 28), s.chip.clocked = true →
    let c := s.chip
    let p := c.pwr
    (p.state = .running → c.isGated u = false → bitAt (c.gateable p.modeEff) u = true → p.switching = false → bitAt c.requested u = false → c.unitIdle u = true →
      exec (.unitGate u) s = .next (s.put { c with pwr := { p with gated := p.gated + 2 ^ u.val } })) ∧
    (bitAt c.requested u = true → exec (.unitGate u) s = .next s) ∧ (c.gateable p.modeEff = 0 → exec (.unitGate u) s = .next s) ∧
    (c.isGated u = true → bitAt p.waking u = true → p.wakePulse = false → exec (.unitAwake u) s =
      .next (s.put { c with pwr := { p with gated := p.gated - 2 ^ u.val, waking := p.waking - 2 ^ u.val } })) ∧
    (c.isGated u = false → exec (.unitAwake u) s = .next s) ∧
    (p.switching = true → p.gated &&& c.needed c.modeSet = 0 → exec .modeEffective s = .next (s.put (c.enterMode c.modeSet))) ∧
    (p.switching = false → exec .modeEffective s = .next s) ∧ c.gateable 0 = 0) ∧
  (
  ∀ (s : State) (w : Who) (x : WakeSrc) (ns : Nat),
    let c := s.chip
    let p := c.pwr
    (c.clocked = true → Who.mayWrite w c = true → c.par.role = .active → exec (.siding w) s =
      .next (s.put (Chip.powerEvent { c with pwr := { p with sidingResult := 2 } } 2 0 2))) ∧
    (c.clocked = true → Who.mayWrite w c = true → c.sidingRefusal = none → exec (.siding w) s = .next (s.put { c with pwr := { p with sidingResult := 1, state := .entry } })) ∧
    (p.state = .entry → c.quiet = true → ∃ t : State, exec .sidingReached s = .next t ∧ t.pending = s.pending ∧ t.chip.pwr.state = .siding ∧ t.chip.hbm = [] ∧ t.chip.pkt = [] ∧
      t.chip.stg = [] ∧ t.chip.par.trained = false ∧ t.chip.age.cleanStop = true) ∧
    (p.state = .siding → p.leaving = false → c.wakeEnabled x = true → exec (.sidingWake x) s =
      .next (s.put { c with pwr := { p with wakeSrc := wakeBit x, leaving := true } })) ∧
    (c.wakeEnabled x = false → exec (.sidingWake x) s = .next s) ∧
    (p.state = .siding → p.leaving = true → ∃ t : State, exec (.sidingExitDone ns) s = .next t ∧ t.pending = s.pending ∧ t.chip.pwr.state = .running ∧
      t.chip.tmb.now = max c.aon.copy (p.sidingAt + nsUp ns) ∧ t.chip.aon.copy = t.chip.tmb.now ∧ t.chip.hbm = c.cleanRegion ∧ t.chip.pwr.gated = 0)) ∧
  (
  ∀ (s : State) (w : Who) (n : Fin 8) (v : W64) (i : Fin 4) (width : Nat) (p : Port),
    let c := s.chip
    let x := c.cmp n
    (c.clocked = true → Who.mayWrite w c = true → bitAt v.toNat 0 = true → exec (.aonCmpArm w n v) s = .next (s.put (c.setCmp n { x with
      arm := true, wake := bitAt v.toNat 1, groups := v.toNat / 2 ^ 16 % 2 ^ 16, period := v.toNat / 2 ^ 32 % 2 ^ 32 }))) ∧
    (x.arm = true → c.clocked = true → c.timeValid = true → x.wake = false → exec (.comparatorMatch n) s = .next (s.put ((((c.passTo x.target).setCmp n { x with
      holding := true, arm := x.period != 0, target := (x.target + 1000 * x.period) % 2 ^ 48 }).pulse (0xE0 + n)).request (c.groupsMask x.groups)))) ∧
    (x.arm = false → exec (.comparatorMatch n) s = .next s) ∧
    (c.pwr.state ≠ .off → 1000 ≤ width → bitAt c.aon.wakeInEn i = false → exec (.wakeInEdge i width) s = .next (s.put (c.pulse (0xE8 + i)))) ∧
    (width < 1000 → exec (.wakeInEdge i width) s = .next s) ∧
    (c.clocked = true → exec .junctionTemperature100C s = .next (s.put (c.pulse 0xEE))) ∧
    (c.clocked = true → (c.port p).state ≠ .running → (c.port p).calAt = none → exec (.calStep p) s =
      .next (s.put (c.setPort p { c.port p with calStarved := false, calAt := some c.tmb.up }))) ∧
    (c.clocked = true → (c.port p).linkUp = true → (c.port p).calAt = none → exec (.calStarved p) s = .next (s.put (c.setPort p { c.port p with calStarved := true }))) ∧
    (c.clocked = true → (c.port p).linkUp = false → exec (.calStarved p) s = .next s))

/-- R767, R830, R831, R852: a power-on reset keeps the fuses, the code flash, the vault and the members' contents, and samples the straps; a chip reset keeps
those and says its kind; with the rails gone the unit is OFF, from where only a power-on reset helps. R830, R832, R840: PERST# resets the functions of its
port at one place of the admission order, and its end lets the link train; each member group trains once, VID follows the setpoint, and a trained Coupler
has the partner's credits. -/
def Obligations.ResetsAndStart : Prop :=
  (
  ∀ (s : State) (w : Who) (unit pref : Bool),
    let c := s.chip
    (∃ t : State, exec (.powerOnReset unit pref) s = .next t ∧ t.pending = s.pending ∧ t.chip.par = { unit := unit, pref := pref } ∧ t.chip.pwr.state = .starting ∧
      t.chip.blocks = [] ∧ t.chip.funcs = [] ∧ t.chip.engines = [] ∧ t.chip.hbm = [] ∧ t.chip.sec.fwRows = c.sec.fwRows ∧ t.chip.sec.keyRows = c.sec.keyRows ∧
      t.chip.sec.keys = c.sec.keys ∧ t.chip.sec.revoked = c.sec.revoked ∧ t.chip.sec.secured = c.sec.secured ∧ t.chip.sec.secret = c.sec.secret ∧ t.chip.sec.rootKey = c.sec.rootKey ∧ t.chip.sec.key0 = c.sec.key0 ∧ t.chip.vault.slot0 = c.vault.slot0 ∧ t.chip.vault.slot1 = c.vault.slot1 ∧
      (∀ m, (t.chip.mbr m).media = (c.mbr m).media)) ∧
    (c.clocked = true → Who.mayWrite w c = true → exec (.chipReset w) s = .next (s.put (c.chipReset 3 0 0 true))) ∧
    (c.clocked = true → exec .jtagChipReset s = .next (s.put (c.chipReset 5 0 0 true))) ∧ (c.pwr.state = .off → exec .jtagChipReset s = .next s) ∧
    (∀ kind rec cause dump, let t := c.chipReset kind rec cause dump
      t.aon.kind = kind ∧ t.aon.record = rec ∧ t.aon.cause = cause ∧ t.aon.ns = c.nowNs ∧ t.funcs = [] ∧ t.engines = [] ∧ t.hbm = [] ∧ t.grd.boot = true ∧
      t.sec.fwRows = c.sec.fwRows ∧ t.sec.keyRows = c.sec.keyRows ∧ t.par = { unit := c.par.unit, pref := c.par.pref } ∧ (∀ m, (t.mbr m).media = (c.mbr m).media)) ∧
    (c.pwr.state ≠ .off → ∃ t : State, exec .railsRemoved s = .next t ∧ t.pending = s.pending ∧ t.chip.pwr.state = .off ∧ t.chip.hbm = [] ∧ t.chip.funcs = [] ∧
      t.chip.sec.fwRows = c.sec.fwRows ∧ t.chip.vault.slot0 = c.vault.slot0 ∧ t.chip.vault.slot1 = c.vault.slot1 ∧ (∀ m, (t.chip.mbr m).media = (c.mbr m).media)) ∧
    (c.pwr.state = .off → exec .railsRemoved s = .next s)) ∧
  (
  ∀ (s : State) (port : Bool) (g : Fin 12) (credits : W32),
    let c := s.chip
    let p := c.pwr
    (p.state ≠ .off → ∃ t : State, exec (.perstAssert port) s = .next t ∧ t.pending = s.pending ∧ t.chip.pwr = { p with perst := p.perst ||| 2 ^ b2n port } ∧
      (∀ f, f / 64 = b2n port → t.chip.fn f = { c.fn f with flr := some c.takeSeq.1, msix := [] }) ∧ (∀ f, f / 64 ≠ b2n port → t.chip.fn f = c.fn f)) ∧
    (bitAt p.perst (b2n port) = true → exec (.perstDeassert port) s = .next (s.put { c with pwr := { p with perst := p.perst - 2 ^ b2n port } })) ∧
    (bitAt p.perst (b2n port) = false → exec (.perstDeassert port) s = .next s) ∧
    (c.clocked = true → g.val ∉ p.groupsTrained → exec (.memberGroupTrain g) s = .next (s.put (let d := c.passUp (nsUp (50000000 + 20000000 * g.val))
      { d with pwr := { p with groupsTrained := p.groupsTrained ++ [g.val] } }))) ∧
    (c.clocked = true → g.val ∈ p.groupsTrained → exec (.memberGroupTrain g) s = .next s) ∧
    (c.clocked = true → exec .vidFrame s = .next (s.put { c with out := c.out ++ [.vid ((c.age.setpoint - 650) / 5)], pwr := { p with vid := (c.age.setpoint - 650) / 5 } })) ∧
    (c.clocked = true → (c.pool 3).held = 0 → exec (.couplerTrained credits) s = .next (s.put (Chip.giveBack { c with
      par := { c.par with trained := true, credits := credits.toNat, creditCap := credits.toNat, owed := 0 } } 3 0))))
end

