-- ==== Sys2Proof/Laws/Tab.lean ====
section
/-! SUPPORT. Laws of sparse tables and byte memories: a read after a write, two writes to one place, and the canonical form, which every write keeps. -/

namespace Sys2Proof.Machine

variable {α : Type}

@[simp] theorem tget_nil (d : α) (k : Nat) : tget [] d k = d := rfl

theorem tget_erase_self (t : Tab α) (d : α) (k : Nat) : tget (terase t k) d k = d := by
  induction t with
  | nil => rfl
  | cons p r ih =>
    by_cases h : p.1 = k
    · simpa [terase, List.filter, h] using ih
    · have : (p.1 != k) = true := by simpa using h
      simpa [terase, List.filter, this, tget, h] using ih

theorem tget_erase_ne (t : Tab α) (d : α) {k j : Nat} (h : j ≠ k) : tget (terase t k) d j = tget t d j := by
  induction t with
  | nil => rfl
  | cons p r ih =>
    by_cases hp : p.1 = k
    · have : p.1 ≠ j := by omega
      simpa [terase, List.filter, hp, tget, this, Ne.symm h] using ih
    · have hb : (p.1 != k) = true := by simpa using hp
      simp only [terase, List.filter, hb, tget]
      split
      · rfl
      · exact ih

theorem tget_insert_self (t : Tab α) (d v : α) (k : Nat) (h : ∀ p ∈ t, p.1 ≠ k) : tget (tinsert t k v) d k = v := by
  induction t with
  | nil => simp [tinsert, tget]
  | cons p r ih =>
    have hp : p.1 ≠ k := h p (by simp)
    simp only [tinsert]
    split
    · simp [tget]
    · simp only [tget, if_neg hp]
      exact ih fun q hq => h q (by simp [hq])

theorem tget_insert_ne (t : Tab α) (d v : α) {k j : Nat} (h : j ≠ k) : tget (tinsert t k v) d j = tget t d j := by
  induction t with
  | nil => simp [tinsert, tget, Ne.symm h]
  | cons p r ih =>
    simp only [tinsert]
    split
    · simp only [tget, if_neg (Ne.symm h)]
    · simp only [tget, ih]

theorem erase_keys (t : Tab α) (k : Nat) : ∀ p ∈ terase t k, p.1 ≠ k := by
  intro p hp
  simpa using (List.mem_filter.mp hp).2

/-- A read after a write to the same key. -/
@[simp] theorem tget_put_self [DecidableEq α] (t : Tab α) (d v : α) (k : Nat) : tget (tput t d k v) d k = v := by
  unfold tput
  split
  · subst_vars; exact tget_erase_self t _ k
  · exact tget_insert_self _ d v k (erase_keys t k)

/-- A write leaves every other key alone. -/
theorem tget_put_ne [DecidableEq α] (t : Tab α) (d v : α) {k j : Nat} (h : j ≠ k) : tget (tput t d k v) d j = tget t d j := by
  unfold tput
  split
  · exact tget_erase_ne t d h
  · rw [tget_insert_ne _ _ _ h, tget_erase_ne t d h]

theorem erase_erase (t : Tab α) (k : Nat) : terase (terase t k) k = terase t k := by
  simp [terase]

theorem erase_insert (t : Tab α) (k : Nat) (v : α) (h : ∀ p ∈ t, p.1 ≠ k) : terase (tinsert t k v) k = t := by
  have e : ∀ r : Tab α, (∀ p ∈ r, p.1 ≠ k) → terase r k = r := by
    intro r hr
    exact List.filter_eq_self.mpr fun p hp => by simpa using hr p hp
  induction t with
  | nil => simp [tinsert, terase]
  | cons p r ih =>
    have hp : (p.1 != k) = true := by simpa using h p (by simp)
    have hr : ∀ q ∈ r, q.1 ≠ k := fun q hq => h q (by simp [hq])
    simp only [tinsert]
    split
    · have : terase ((k, v) :: p :: r) k = terase (p :: r) k := by simp [terase]
      exact this.trans (e _ h)
    · have : terase (p :: tinsert r k v) k = p :: terase (tinsert r k v) k := by simp [terase, List.filter, hp]
      exact this.trans (by rw [ih hr])

/-- Two writes to one key: the later one stands. -/
@[simp] theorem tput_put [DecidableEq α] (t : Tab α) (d v w : α) (k : Nat) : tput (tput t d k v) d k w = tput t d k w := by
  have : terase (tput t d k v) k = terase t k := by
    unfold tput
    split
    · exact erase_erase t k
    · exact erase_insert _ _ _ (erase_keys t k)
  unfold tput at *
  simp only [this]

/-! ## The canonical form -/

/-- Strictly rising keys. -/
def rises : Tab α → Prop
  | [] => True
  | [_] => True
  | p :: q :: r => p.1 < q.1 ∧ rises (q :: r)

theorem rises_tail {p : Nat × α} {t : Tab α} (h : rises (p :: t)) : rises t := by
  cases t with
  | nil => trivial
  | cons q r => exact h.2

theorem rises_lt {p : Nat × α} {t : Tab α} (h : rises (p :: t)) : ∀ q ∈ t, p.1 < q.1 := by
  induction t generalizing p with
  | nil => simp
  | cons q r ih =>
    intro x hx
    rcases List.mem_cons.mp hx with rfl | hx
    · exact h.1
    · exact Nat.lt_trans h.1 (ih (p := q) h.2 x hx)

theorem rises_cons {p : Nat × α} {t : Tab α} (h : rises t) (hp : ∀ q ∈ t, p.1 < q.1) : rises (p :: t) := by
  cases t with
  | nil => trivial
  | cons q r => exact ⟨hp q (by simp), h⟩

theorem rises_erase {t : Tab α} (k : Nat) (h : rises t) : rises (terase t k) := by
  induction t with
  | nil => trivial
  | cons p r ih =>
    by_cases hp : p.1 = k
    · have : terase (p :: r) k = terase r k := by simp [terase, List.filter, hp]
      rw [this]; exact ih (rises_tail h)
    · have hb : (p.1 != k) = true := by simpa using hp
      have : terase (p :: r) k = p :: terase r k := by simp [terase, List.filter, hb]
      rw [this]
      exact rises_cons (ih (rises_tail h)) fun q hq => rises_lt h q (List.mem_filter.mp hq).1

theorem mem_insert {t : Tab α} {k : Nat} {v : α} {q : Nat × α} (h : q ∈ tinsert t k v) : q = (k, v) ∨ q ∈ t := by
  induction t with
  | nil => simpa [tinsert] using h
  | cons p r ih =>
    simp only [tinsert] at h
    split at h
    · rcases List.mem_cons.mp h with h | h
      · exact .inl h
      · exact .inr h
    · rcases List.mem_cons.mp h with h | h
      · exact .inr (by simp [h])
      · exact (ih h).imp_right fun h => by simp [h]

theorem rises_insert {t : Tab α} (k : Nat) (v : α) (h : rises t) (hk : ∀ p ∈ t, p.1 ≠ k) : rises (tinsert t k v) := by
  induction t with
  | nil => trivial
  | cons p r ih =>
    simp only [tinsert]
    split
    · next hlt =>
      refine rises_cons h fun q hq => ?_
      rcases List.mem_cons.mp hq with rfl | hq
      · exact hlt
      · exact Nat.lt_trans hlt (rises_lt h q hq)
    · next hlt =>
      have hp := hk p (by simp)
      refine rises_cons (ih (rises_tail h) fun q hq => hk q (by simp [hq])) fun q hq => ?_
      rcases mem_insert hq with rfl | hq
      · simp only; omega
      · exact rises_lt h q hq

theorem tabWf_iff [DecidableEq α] (d : Nat → α) (t : Tab α) : tabWf d t = true ↔ rises t ∧ ∀ p ∈ t, p.2 ≠ d p.1 := by
  induction t with
  | nil => simp [tabWf, rises]
  | cons p r ih =>
    cases r with
    | nil => simp [tabWf, rises]
    | cons q r =>
      simp only [tabWf, Bool.and_eq_true, decide_eq_true_eq, ih, rises, List.mem_cons, forall_eq_or_imp]
      tauto

/-- A write keeps the canonical form. -/
theorem tabWf_put [DecidableEq α] (d : Nat → α) (t : Tab α) (k : Nat) (v : α) (h : tabWf d t = true) : tabWf d (tput t (d k) k v) = true := by
  rw [tabWf_iff] at h ⊢
  have he : ∀ p ∈ terase t k, p.2 ≠ d p.1 := fun p hp => h.2 p (List.mem_filter.mp hp).1
  unfold tput
  split
  · exact ⟨rises_erase k h.1, he⟩
  · next hv =>
    refine ⟨rises_insert k v (rises_erase k h.1) (erase_keys t k), fun p hp => ?_⟩
    rcases mem_insert hp with rfl | hp
    · exact hv
    · exact he p hp

/-! ## Byte memories -/

/-- A byte read after it was written. -/
@[simp] theorem mget_put_self (d : Nat → Byte) (m : Mem) (a : Nat) (b : Byte) : mget d (mput d m a b) a = b := tget_put_self m (d a) b a

/-- A write leaves every other byte alone. -/
theorem mget_put_ne (d : Nat → Byte) (m : Mem) {a a' : Nat} (b : Byte) (h : a' ≠ a) : mget d (mput d m a b) a' = mget d m a' := by
  have key : ∀ e : Byte, tget (tput m (d a) a b) e a' = tget m e a' := fun e => by
    unfold tput
    split
    · exact tget_erase_ne m e h
    · rw [tget_insert_ne _ _ _ h, tget_erase_ne m e h]
  exact key (d a')

/-- Bytes outside those written read as before. -/
theorem mget_write_out (d : Nat → Byte) (l : List Byte) : ∀ (m : Mem) (a x : Nat), (x < a ∨ a + l.length ≤ x) → mget d (mwrite d m a l) x = mget d m x := by
  induction l with
  | nil => intro m a x _; rfl
  | cons b r ih =>
    intro m a x h
    simp only [List.length_cons] at h
    simp only [mwrite]
    rw [ih _ _ _ (by omega), mget_put_ne d m b (by omega)]

/-- A byte among those written reads as it was written. -/
theorem mget_write_in (d : Nat → Byte) (l : List Byte) : ∀ (m : Mem) (a i : Nat) (h : i < l.length), mget d (mwrite d m a l) (a + i) = l[i] := by
  induction l with
  | nil => intro m a i h; simp at h
  | cons b r ih =>
    intro m a i h
    simp only [mwrite]
    cases i with
    | zero => rw [Nat.add_zero, mget_write_out d r _ _ _ (by omega)]; simp
    | succ n =>
      have := ih (mput d m a b) (a + 1) n (by simpa using h)
      simpa [Nat.add_assoc, Nat.add_comm 1 n] using this

/-- Every memory write keeps the canonical form. -/
theorem memory_wf_put (d : Nat → Byte) (m : Mem) (a : Nat) (b : Byte) (h : Memory.wf d m = true) : Memory.wf d (mput d m a b) = true := tabWf_put d m a b h

theorem memory_wf_write (d : Nat → Byte) (l : List Byte) : ∀ (m : Mem) (a : Nat), Memory.wf d m = true → Memory.wf d (mwrite d m a l) = true := by
  induction l with
  | nil => intro m a h; exact h
  | cons b r ih => intro m a h; exact ih _ _ (memory_wf_put d m a b h)

/-- The empty memory is in canonical form. -/
theorem memory_wf_nil (d : Nat → Byte) : Memory.wf d [] = true := rfl

end Sys2Proof.Machine
end

