-- ==== Sys2Proof/Laws/State.lean ====
section
/-! SUPPORT. One lemma per field of the machine and per named update of it: what the update leaves alone, and what it puts in its place. -/

namespace Sys2Proof.Machine

variable (c : Chip)

@[simp] theorem Chip.setBlk_group (r : Nat) (b : Block) : (c.setBlk r b).group = c.group := rfl
@[simp] theorem Chip.setBlk_tmb (r : Nat) (b : Block) : (c.setBlk r b).tmb = c.tmb := rfl
@[simp] theorem Chip.setBlk_admNext (r : Nat) (b : Block) : (c.setBlk r b).admNext = c.admNext := rfl
@[simp] theorem Chip.setBlk_funcs (r : Nat) (b : Block) : (c.setBlk r b).funcs = c.funcs := rfl
@[simp] theorem Chip.setBlk_raised (r : Nat) (b : Block) : (c.setBlk r b).raised = c.raised := rfl
@[simp] theorem Chip.setBlk_pulses (r : Nat) (b : Block) : (c.setBlk r b).pulses = c.pulses := rfl
@[simp] theorem Chip.setBlk_pools (r : Nat) (b : Block) : (c.setBlk r b).pools = c.pools := rfl
@[simp] theorem Chip.setBlk_evr (r : Nat) (b : Block) : (c.setBlk r b).evr = c.evr := rfl
@[simp] theorem Chip.setBlk_snp (r : Nat) (b : Block) : (c.setBlk r b).snp = c.snp := rfl
@[simp] theorem Chip.setBlk_grd (r : Nat) (b : Block) : (c.setBlk r b).grd = c.grd := rfl
@[simp] theorem Chip.setBlk_age (r : Nat) (b : Block) : (c.setBlk r b).age = c.age := rfl
@[simp] theorem Chip.setBlk_engines (r : Nat) (b : Block) : (c.setBlk r b).engines = c.engines := rfl
@[simp] theorem Chip.setBlk_channels (r : Nat) (b : Block) : (c.setBlk r b).channels = c.channels := rfl
@[simp] theorem Chip.setBlk_nextHandle (r : Nat) (b : Block) : (c.setBlk r b).nextHandle = c.nextHandle := rfl
@[simp] theorem Chip.setBlk_stg (r : Nat) (b : Block) : (c.setBlk r b).stg = c.stg := rfl
@[simp] theorem Chip.setBlk_hbm (r : Nat) (b : Block) : (c.setBlk r b).hbm = c.hbm := rfl
@[simp] theorem Chip.setBlk_pkt (r : Nat) (b : Block) : (c.setBlk r b).pkt = c.pkt := rfl
@[simp] theorem Chip.setBlk_arrays (r : Nat) (b : Block) : (c.setBlk r b).arrays = c.arrays := rfl
@[simp] theorem Chip.setBlk_volumes (r : Nat) (b : Block) : (c.setBlk r b).volumes = c.volumes := rfl
@[simp] theorem Chip.setBlk_members (r : Nat) (b : Block) : (c.setBlk r b).members = c.members := rfl
@[simp] theorem Chip.setBlk_trust (r : Nat) (b : Block) : (c.setBlk r b).trust = c.trust := rfl
@[simp] theorem Chip.setBlk_cache (r : Nat) (b : Block) : (c.setBlk r b).cache = c.cache := rfl
@[simp] theorem Chip.setBlk_vault (r : Nat) (b : Block) : (c.setBlk r b).vault = c.vault := rfl
@[simp] theorem Chip.setBlk_par (r : Nat) (b : Block) : (c.setBlk r b).par = c.par := rfl
@[simp] theorem Chip.setBlk_ports (r : Nat) (b : Block) : (c.setBlk r b).ports = c.ports := rfl
@[simp] theorem Chip.setBlk_streams (r : Nat) (b : Block) : (c.setBlk r b).streams = c.streams := rfl
@[simp] theorem Chip.setBlk_meters (r : Nat) (b : Block) : (c.setBlk r b).meters = c.meters := rfl
@[simp] theorem Chip.setBlk_wins (r : Nat) (b : Block) : (c.setBlk r b).wins = c.wins := rfl
@[simp] theorem Chip.setBlk_held (r : Nat) (b : Block) : (c.setBlk r b).held = c.held := rfl
@[simp] theorem Chip.setBlk_rma (r : Nat) (b : Block) : (c.setBlk r b).rma = c.rma := rfl
@[simp] theorem Chip.setBlk_cfl (r : Nat) (b : Block) : (c.setBlk r b).cfl = c.cfl := rfl
@[simp] theorem Chip.setBlk_sec (r : Nat) (b : Block) : (c.setBlk r b).sec = c.sec := rfl
@[simp] theorem Chip.setBlk_pwr (r : Nat) (b : Block) : (c.setBlk r b).pwr = c.pwr := rfl
@[simp] theorem Chip.setBlk_aon (r : Nat) (b : Block) : (c.setBlk r b).aon = c.aon := rfl
@[simp] theorem Chip.setBlk_out (r : Nat) (b : Block) : (c.setBlk r b).out = c.out := rfl
@[simp] theorem Chip.setBlk_free (r : Nat) (b : Block) : (c.setBlk r b).free = c.free := rfl

@[simp] theorem Chip.modBlk_group (r : Nat) (f : Block → Block) : (c.modBlk r f).group = c.group := rfl
@[simp] theorem Chip.modBlk_tmb (r : Nat) (f : Block → Block) : (c.modBlk r f).tmb = c.tmb := rfl
@[simp] theorem Chip.modBlk_admNext (r : Nat) (f : Block → Block) : (c.modBlk r f).admNext = c.admNext := rfl
@[simp] theorem Chip.modBlk_funcs (r : Nat) (f : Block → Block) : (c.modBlk r f).funcs = c.funcs := rfl
@[simp] theorem Chip.modBlk_raised (r : Nat) (f : Block → Block) : (c.modBlk r f).raised = c.raised := rfl
@[simp] theorem Chip.modBlk_pulses (r : Nat) (f : Block → Block) : (c.modBlk r f).pulses = c.pulses := rfl
@[simp] theorem Chip.modBlk_pools (r : Nat) (f : Block → Block) : (c.modBlk r f).pools = c.pools := rfl
@[simp] theorem Chip.modBlk_evr (r : Nat) (f : Block → Block) : (c.modBlk r f).evr = c.evr := rfl
@[simp] theorem Chip.modBlk_snp (r : Nat) (f : Block → Block) : (c.modBlk r f).snp = c.snp := rfl
@[simp] theorem Chip.modBlk_grd (r : Nat) (f : Block → Block) : (c.modBlk r f).grd = c.grd := rfl
@[simp] theorem Chip.modBlk_age (r : Nat) (f : Block → Block) : (c.modBlk r f).age = c.age := rfl
@[simp] theorem Chip.modBlk_engines (r : Nat) (f : Block → Block) : (c.modBlk r f).engines = c.engines := rfl
@[simp] theorem Chip.modBlk_channels (r : Nat) (f : Block → Block) : (c.modBlk r f).channels = c.channels := rfl
@[simp] theorem Chip.modBlk_nextHandle (r : Nat) (f : Block → Block) : (c.modBlk r f).nextHandle = c.nextHandle := rfl
@[simp] theorem Chip.modBlk_stg (r : Nat) (f : Block → Block) : (c.modBlk r f).stg = c.stg := rfl
@[simp] theorem Chip.modBlk_hbm (r : Nat) (f : Block → Block) : (c.modBlk r f).hbm = c.hbm := rfl
@[simp] theorem Chip.modBlk_pkt (r : Nat) (f : Block → Block) : (c.modBlk r f).pkt = c.pkt := rfl
@[simp] theorem Chip.modBlk_arrays (r : Nat) (f : Block → Block) : (c.modBlk r f).arrays = c.arrays := rfl
@[simp] theorem Chip.modBlk_volumes (r : Nat) (f : Block → Block) : (c.modBlk r f).volumes = c.volumes := rfl
@[simp] theorem Chip.modBlk_members (r : Nat) (f : Block → Block) : (c.modBlk r f).members = c.members := rfl
@[simp] theorem Chip.modBlk_trust (r : Nat) (f : Block → Block) : (c.modBlk r f).trust = c.trust := rfl
@[simp] theorem Chip.modBlk_cache (r : Nat) (f : Block → Block) : (c.modBlk r f).cache = c.cache := rfl
@[simp] theorem Chip.modBlk_vault (r : Nat) (f : Block → Block) : (c.modBlk r f).vault = c.vault := rfl
@[simp] theorem Chip.modBlk_par (r : Nat) (f : Block → Block) : (c.modBlk r f).par = c.par := rfl
@[simp] theorem Chip.modBlk_ports (r : Nat) (f : Block → Block) : (c.modBlk r f).ports = c.ports := rfl
@[simp] theorem Chip.modBlk_streams (r : Nat) (f : Block → Block) : (c.modBlk r f).streams = c.streams := rfl
@[simp] theorem Chip.modBlk_meters (r : Nat) (f : Block → Block) : (c.modBlk r f).meters = c.meters := rfl
@[simp] theorem Chip.modBlk_wins (r : Nat) (f : Block → Block) : (c.modBlk r f).wins = c.wins := rfl
@[simp] theorem Chip.modBlk_held (r : Nat) (f : Block → Block) : (c.modBlk r f).held = c.held := rfl
@[simp] theorem Chip.modBlk_rma (r : Nat) (f : Block → Block) : (c.modBlk r f).rma = c.rma := rfl
@[simp] theorem Chip.modBlk_cfl (r : Nat) (f : Block → Block) : (c.modBlk r f).cfl = c.cfl := rfl
@[simp] theorem Chip.modBlk_sec (r : Nat) (f : Block → Block) : (c.modBlk r f).sec = c.sec := rfl
@[simp] theorem Chip.modBlk_pwr (r : Nat) (f : Block → Block) : (c.modBlk r f).pwr = c.pwr := rfl
@[simp] theorem Chip.modBlk_aon (r : Nat) (f : Block → Block) : (c.modBlk r f).aon = c.aon := rfl
@[simp] theorem Chip.modBlk_out (r : Nat) (f : Block → Block) : (c.modBlk r f).out = c.out := rfl
@[simp] theorem Chip.modBlk_free (r : Nat) (f : Block → Block) : (c.modBlk r f).free = c.free := rfl

@[simp] theorem Chip.setFn_blocks (f : Nat) (x : Func) : (c.setFn f x).blocks = c.blocks := rfl
@[simp] theorem Chip.setFn_group (f : Nat) (x : Func) : (c.setFn f x).group = c.group := rfl
@[simp] theorem Chip.setFn_tmb (f : Nat) (x : Func) : (c.setFn f x).tmb = c.tmb := rfl
@[simp] theorem Chip.setFn_admNext (f : Nat) (x : Func) : (c.setFn f x).admNext = c.admNext := rfl
@[simp] theorem Chip.setFn_raised (f : Nat) (x : Func) : (c.setFn f x).raised = c.raised := rfl
@[simp] theorem Chip.setFn_pulses (f : Nat) (x : Func) : (c.setFn f x).pulses = c.pulses := rfl
@[simp] theorem Chip.setFn_pools (f : Nat) (x : Func) : (c.setFn f x).pools = c.pools := rfl
@[simp] theorem Chip.setFn_evr (f : Nat) (x : Func) : (c.setFn f x).evr = c.evr := rfl
@[simp] theorem Chip.setFn_snp (f : Nat) (x : Func) : (c.setFn f x).snp = c.snp := rfl
@[simp] theorem Chip.setFn_grd (f : Nat) (x : Func) : (c.setFn f x).grd = c.grd := rfl
@[simp] theorem Chip.setFn_age (f : Nat) (x : Func) : (c.setFn f x).age = c.age := rfl
@[simp] theorem Chip.setFn_engines (f : Nat) (x : Func) : (c.setFn f x).engines = c.engines := rfl
@[simp] theorem Chip.setFn_channels (f : Nat) (x : Func) : (c.setFn f x).channels = c.channels := rfl
@[simp] theorem Chip.setFn_nextHandle (f : Nat) (x : Func) : (c.setFn f x).nextHandle = c.nextHandle := rfl
@[simp] theorem Chip.setFn_stg (f : Nat) (x : Func) : (c.setFn f x).stg = c.stg := rfl
@[simp] theorem Chip.setFn_hbm (f : Nat) (x : Func) : (c.setFn f x).hbm = c.hbm := rfl
@[simp] theorem Chip.setFn_pkt (f : Nat) (x : Func) : (c.setFn f x).pkt = c.pkt := rfl
@[simp] theorem Chip.setFn_arrays (f : Nat) (x : Func) : (c.setFn f x).arrays = c.arrays := rfl
@[simp] theorem Chip.setFn_volumes (f : Nat) (x : Func) : (c.setFn f x).volumes = c.volumes := rfl
@[simp] theorem Chip.setFn_members (f : Nat) (x : Func) : (c.setFn f x).members = c.members := rfl
@[simp] theorem Chip.setFn_trust (f : Nat) (x : Func) : (c.setFn f x).trust = c.trust := rfl
@[simp] theorem Chip.setFn_cache (f : Nat) (x : Func) : (c.setFn f x).cache = c.cache := rfl
@[simp] theorem Chip.setFn_vault (f : Nat) (x : Func) : (c.setFn f x).vault = c.vault := rfl
@[simp] theorem Chip.setFn_par (f : Nat) (x : Func) : (c.setFn f x).par = c.par := rfl
@[simp] theorem Chip.setFn_ports (f : Nat) (x : Func) : (c.setFn f x).ports = c.ports := rfl
@[simp] theorem Chip.setFn_streams (f : Nat) (x : Func) : (c.setFn f x).streams = c.streams := rfl
@[simp] theorem Chip.setFn_meters (f : Nat) (x : Func) : (c.setFn f x).meters = c.meters := rfl
@[simp] theorem Chip.setFn_wins (f : Nat) (x : Func) : (c.setFn f x).wins = c.wins := rfl
@[simp] theorem Chip.setFn_held (f : Nat) (x : Func) : (c.setFn f x).held = c.held := rfl
@[simp] theorem Chip.setFn_rma (f : Nat) (x : Func) : (c.setFn f x).rma = c.rma := rfl
@[simp] theorem Chip.setFn_cfl (f : Nat) (x : Func) : (c.setFn f x).cfl = c.cfl := rfl
@[simp] theorem Chip.setFn_sec (f : Nat) (x : Func) : (c.setFn f x).sec = c.sec := rfl
@[simp] theorem Chip.setFn_pwr (f : Nat) (x : Func) : (c.setFn f x).pwr = c.pwr := rfl
@[simp] theorem Chip.setFn_aon (f : Nat) (x : Func) : (c.setFn f x).aon = c.aon := rfl
@[simp] theorem Chip.setFn_out (f : Nat) (x : Func) : (c.setFn f x).out = c.out := rfl
@[simp] theorem Chip.setFn_free (f : Nat) (x : Func) : (c.setFn f x).free = c.free := rfl

@[simp] theorem Chip.modFn_blocks (f : Nat) (g : Func → Func) : (c.modFn f g).blocks = c.blocks := rfl
@[simp] theorem Chip.modFn_group (f : Nat) (g : Func → Func) : (c.modFn f g).group = c.group := rfl
@[simp] theorem Chip.modFn_tmb (f : Nat) (g : Func → Func) : (c.modFn f g).tmb = c.tmb := rfl
@[simp] theorem Chip.modFn_admNext (f : Nat) (g : Func → Func) : (c.modFn f g).admNext = c.admNext := rfl
@[simp] theorem Chip.modFn_raised (f : Nat) (g : Func → Func) : (c.modFn f g).raised = c.raised := rfl
@[simp] theorem Chip.modFn_pulses (f : Nat) (g : Func → Func) : (c.modFn f g).pulses = c.pulses := rfl
@[simp] theorem Chip.modFn_pools (f : Nat) (g : Func → Func) : (c.modFn f g).pools = c.pools := rfl
@[simp] theorem Chip.modFn_evr (f : Nat) (g : Func → Func) : (c.modFn f g).evr = c.evr := rfl
@[simp] theorem Chip.modFn_snp (f : Nat) (g : Func → Func) : (c.modFn f g).snp = c.snp := rfl
@[simp] theorem Chip.modFn_grd (f : Nat) (g : Func → Func) : (c.modFn f g).grd = c.grd := rfl
@[simp] theorem Chip.modFn_age (f : Nat) (g : Func → Func) : (c.modFn f g).age = c.age := rfl
@[simp] theorem Chip.modFn_engines (f : Nat) (g : Func → Func) : (c.modFn f g).engines = c.engines := rfl
@[simp] theorem Chip.modFn_channels (f : Nat) (g : Func → Func) : (c.modFn f g).channels = c.channels := rfl
@[simp] theorem Chip.modFn_nextHandle (f : Nat) (g : Func → Func) : (c.modFn f g).nextHandle = c.nextHandle := rfl
@[simp] theorem Chip.modFn_stg (f : Nat) (g : Func → Func) : (c.modFn f g).stg = c.stg := rfl
@[simp] theorem Chip.modFn_hbm (f : Nat) (g : Func → Func) : (c.modFn f g).hbm = c.hbm := rfl
@[simp] theorem Chip.modFn_pkt (f : Nat) (g : Func → Func) : (c.modFn f g).pkt = c.pkt := rfl
@[simp] theorem Chip.modFn_arrays (f : Nat) (g : Func → Func) : (c.modFn f g).arrays = c.arrays := rfl
@[simp] theorem Chip.modFn_volumes (f : Nat) (g : Func → Func) : (c.modFn f g).volumes = c.volumes := rfl
@[simp] theorem Chip.modFn_members (f : Nat) (g : Func → Func) : (c.modFn f g).members = c.members := rfl
@[simp] theorem Chip.modFn_trust (f : Nat) (g : Func → Func) : (c.modFn f g).trust = c.trust := rfl
@[simp] theorem Chip.modFn_cache (f : Nat) (g : Func → Func) : (c.modFn f g).cache = c.cache := rfl
@[simp] theorem Chip.modFn_vault (f : Nat) (g : Func → Func) : (c.modFn f g).vault = c.vault := rfl
@[simp] theorem Chip.modFn_par (f : Nat) (g : Func → Func) : (c.modFn f g).par = c.par := rfl
@[simp] theorem Chip.modFn_ports (f : Nat) (g : Func → Func) : (c.modFn f g).ports = c.ports := rfl
@[simp] theorem Chip.modFn_streams (f : Nat) (g : Func → Func) : (c.modFn f g).streams = c.streams := rfl
@[simp] theorem Chip.modFn_meters (f : Nat) (g : Func → Func) : (c.modFn f g).meters = c.meters := rfl
@[simp] theorem Chip.modFn_wins (f : Nat) (g : Func → Func) : (c.modFn f g).wins = c.wins := rfl
@[simp] theorem Chip.modFn_held (f : Nat) (g : Func → Func) : (c.modFn f g).held = c.held := rfl
@[simp] theorem Chip.modFn_rma (f : Nat) (g : Func → Func) : (c.modFn f g).rma = c.rma := rfl
@[simp] theorem Chip.modFn_cfl (f : Nat) (g : Func → Func) : (c.modFn f g).cfl = c.cfl := rfl
@[simp] theorem Chip.modFn_sec (f : Nat) (g : Func → Func) : (c.modFn f g).sec = c.sec := rfl
@[simp] theorem Chip.modFn_pwr (f : Nat) (g : Func → Func) : (c.modFn f g).pwr = c.pwr := rfl
@[simp] theorem Chip.modFn_aon (f : Nat) (g : Func → Func) : (c.modFn f g).aon = c.aon := rfl
@[simp] theorem Chip.modFn_out (f : Nat) (g : Func → Func) : (c.modFn f g).out = c.out := rfl
@[simp] theorem Chip.modFn_free (f : Nat) (g : Func → Func) : (c.modFn f g).free = c.free := rfl

@[simp] theorem Chip.modQueue_blocks (f g : Nat) (h : Queue → Queue) : (c.modQueue f g h).blocks = c.blocks := rfl
@[simp] theorem Chip.modQueue_group (f g : Nat) (h : Queue → Queue) : (c.modQueue f g h).group = c.group := rfl
@[simp] theorem Chip.modQueue_tmb (f g : Nat) (h : Queue → Queue) : (c.modQueue f g h).tmb = c.tmb := rfl
@[simp] theorem Chip.modQueue_admNext (f g : Nat) (h : Queue → Queue) : (c.modQueue f g h).admNext = c.admNext := rfl
@[simp] theorem Chip.modQueue_raised (f g : Nat) (h : Queue → Queue) : (c.modQueue f g h).raised = c.raised := rfl
@[simp] theorem Chip.modQueue_pulses (f g : Nat) (h : Queue → Queue) : (c.modQueue f g h).pulses = c.pulses := rfl
@[simp] theorem Chip.modQueue_pools (f g : Nat) (h : Queue → Queue) : (c.modQueue f g h).pools = c.pools := rfl
@[simp] theorem Chip.modQueue_evr (f g : Nat) (h : Queue → Queue) : (c.modQueue f g h).evr = c.evr := rfl
@[simp] theorem Chip.modQueue_snp (f g : Nat) (h : Queue → Queue) : (c.modQueue f g h).snp = c.snp := rfl
@[simp] theorem Chip.modQueue_grd (f g : Nat) (h : Queue → Queue) : (c.modQueue f g h).grd = c.grd := rfl
@[simp] theorem Chip.modQueue_age (f g : Nat) (h : Queue → Queue) : (c.modQueue f g h).age = c.age := rfl
@[simp] theorem Chip.modQueue_engines (f g : Nat) (h : Queue → Queue) : (c.modQueue f g h).engines = c.engines := rfl
@[simp] theorem Chip.modQueue_channels (f g : Nat) (h : Queue → Queue) : (c.modQueue f g h).channels = c.channels := rfl
@[simp] theorem Chip.modQueue_nextHandle (f g : Nat) (h : Queue → Queue) : (c.modQueue f g h).nextHandle = c.nextHandle := rfl
@[simp] theorem Chip.modQueue_stg (f g : Nat) (h : Queue → Queue) : (c.modQueue f g h).stg = c.stg := rfl
@[simp] theorem Chip.modQueue_hbm (f g : Nat) (h : Queue → Queue) : (c.modQueue f g h).hbm = c.hbm := rfl
@[simp] theorem Chip.modQueue_pkt (f g : Nat) (h : Queue → Queue) : (c.modQueue f g h).pkt = c.pkt := rfl
@[simp] theorem Chip.modQueue_arrays (f g : Nat) (h : Queue → Queue) : (c.modQueue f g h).arrays = c.arrays := rfl
@[simp] theorem Chip.modQueue_volumes (f g : Nat) (h : Queue → Queue) : (c.modQueue f g h).volumes = c.volumes := rfl
@[simp] theorem Chip.modQueue_members (f g : Nat) (h : Queue → Queue) : (c.modQueue f g h).members = c.members := rfl
@[simp] theorem Chip.modQueue_trust (f g : Nat) (h : Queue → Queue) : (c.modQueue f g h).trust = c.trust := rfl
@[simp] theorem Chip.modQueue_cache (f g : Nat) (h : Queue → Queue) : (c.modQueue f g h).cache = c.cache := rfl
@[simp] theorem Chip.modQueue_vault (f g : Nat) (h : Queue → Queue) : (c.modQueue f g h).vault = c.vault := rfl
@[simp] theorem Chip.modQueue_par (f g : Nat) (h : Queue → Queue) : (c.modQueue f g h).par = c.par := rfl
@[simp] theorem Chip.modQueue_ports (f g : Nat) (h : Queue → Queue) : (c.modQueue f g h).ports = c.ports := rfl
@[simp] theorem Chip.modQueue_streams (f g : Nat) (h : Queue → Queue) : (c.modQueue f g h).streams = c.streams := rfl
@[simp] theorem Chip.modQueue_meters (f g : Nat) (h : Queue → Queue) : (c.modQueue f g h).meters = c.meters := rfl
@[simp] theorem Chip.modQueue_wins (f g : Nat) (h : Queue → Queue) : (c.modQueue f g h).wins = c.wins := rfl
@[simp] theorem Chip.modQueue_held (f g : Nat) (h : Queue → Queue) : (c.modQueue f g h).held = c.held := rfl
@[simp] theorem Chip.modQueue_rma (f g : Nat) (h : Queue → Queue) : (c.modQueue f g h).rma = c.rma := rfl
@[simp] theorem Chip.modQueue_cfl (f g : Nat) (h : Queue → Queue) : (c.modQueue f g h).cfl = c.cfl := rfl
@[simp] theorem Chip.modQueue_sec (f g : Nat) (h : Queue → Queue) : (c.modQueue f g h).sec = c.sec := rfl
@[simp] theorem Chip.modQueue_pwr (f g : Nat) (h : Queue → Queue) : (c.modQueue f g h).pwr = c.pwr := rfl
@[simp] theorem Chip.modQueue_aon (f g : Nat) (h : Queue → Queue) : (c.modQueue f g h).aon = c.aon := rfl
@[simp] theorem Chip.modQueue_out (f g : Nat) (h : Queue → Queue) : (c.modQueue f g h).out = c.out := rfl
@[simp] theorem Chip.modQueue_free (f g : Nat) (h : Queue → Queue) : (c.modQueue f g h).free = c.free := rfl

@[simp] theorem Chip.emit_blocks (o : Output) : (c.emit o).blocks = c.blocks := rfl
@[simp] theorem Chip.emit_group (o : Output) : (c.emit o).group = c.group := rfl
@[simp] theorem Chip.emit_tmb (o : Output) : (c.emit o).tmb = c.tmb := rfl
@[simp] theorem Chip.emit_admNext (o : Output) : (c.emit o).admNext = c.admNext := rfl
@[simp] theorem Chip.emit_funcs (o : Output) : (c.emit o).funcs = c.funcs := rfl
@[simp] theorem Chip.emit_raised (o : Output) : (c.emit o).raised = c.raised := rfl
@[simp] theorem Chip.emit_pulses (o : Output) : (c.emit o).pulses = c.pulses := rfl
@[simp] theorem Chip.emit_pools (o : Output) : (c.emit o).pools = c.pools := rfl
@[simp] theorem Chip.emit_evr (o : Output) : (c.emit o).evr = c.evr := rfl
@[simp] theorem Chip.emit_snp (o : Output) : (c.emit o).snp = c.snp := rfl
@[simp] theorem Chip.emit_grd (o : Output) : (c.emit o).grd = c.grd := rfl
@[simp] theorem Chip.emit_age (o : Output) : (c.emit o).age = c.age := rfl
@[simp] theorem Chip.emit_engines (o : Output) : (c.emit o).engines = c.engines := rfl
@[simp] theorem Chip.emit_channels (o : Output) : (c.emit o).channels = c.channels := rfl
@[simp] theorem Chip.emit_nextHandle (o : Output) : (c.emit o).nextHandle = c.nextHandle := rfl
@[simp] theorem Chip.emit_stg (o : Output) : (c.emit o).stg = c.stg := rfl
@[simp] theorem Chip.emit_hbm (o : Output) : (c.emit o).hbm = c.hbm := rfl
@[simp] theorem Chip.emit_pkt (o : Output) : (c.emit o).pkt = c.pkt := rfl
@[simp] theorem Chip.emit_arrays (o : Output) : (c.emit o).arrays = c.arrays := rfl
@[simp] theorem Chip.emit_volumes (o : Output) : (c.emit o).volumes = c.volumes := rfl
@[simp] theorem Chip.emit_members (o : Output) : (c.emit o).members = c.members := rfl
@[simp] theorem Chip.emit_trust (o : Output) : (c.emit o).trust = c.trust := rfl
@[simp] theorem Chip.emit_cache (o : Output) : (c.emit o).cache = c.cache := rfl
@[simp] theorem Chip.emit_vault (o : Output) : (c.emit o).vault = c.vault := rfl
@[simp] theorem Chip.emit_par (o : Output) : (c.emit o).par = c.par := rfl
@[simp] theorem Chip.emit_ports (o : Output) : (c.emit o).ports = c.ports := rfl
@[simp] theorem Chip.emit_streams (o : Output) : (c.emit o).streams = c.streams := rfl
@[simp] theorem Chip.emit_meters (o : Output) : (c.emit o).meters = c.meters := rfl
@[simp] theorem Chip.emit_wins (o : Output) : (c.emit o).wins = c.wins := rfl
@[simp] theorem Chip.emit_held (o : Output) : (c.emit o).held = c.held := rfl
@[simp] theorem Chip.emit_rma (o : Output) : (c.emit o).rma = c.rma := rfl
@[simp] theorem Chip.emit_cfl (o : Output) : (c.emit o).cfl = c.cfl := rfl
@[simp] theorem Chip.emit_sec (o : Output) : (c.emit o).sec = c.sec := rfl
@[simp] theorem Chip.emit_pwr (o : Output) : (c.emit o).pwr = c.pwr := rfl
@[simp] theorem Chip.emit_aon (o : Output) : (c.emit o).aon = c.aon := rfl
@[simp] theorem Chip.emit_free (o : Output) : (c.emit o).free = c.free := rfl

@[simp] theorem Chip.pulse_blocks (n : Nat) : (c.pulse n).blocks = c.blocks := rfl
@[simp] theorem Chip.pulse_group (n : Nat) : (c.pulse n).group = c.group := rfl
@[simp] theorem Chip.pulse_tmb (n : Nat) : (c.pulse n).tmb = c.tmb := rfl
@[simp] theorem Chip.pulse_admNext (n : Nat) : (c.pulse n).admNext = c.admNext := rfl
@[simp] theorem Chip.pulse_funcs (n : Nat) : (c.pulse n).funcs = c.funcs := rfl
@[simp] theorem Chip.pulse_raised (n : Nat) : (c.pulse n).raised = c.raised := rfl
@[simp] theorem Chip.pulse_pools (n : Nat) : (c.pulse n).pools = c.pools := rfl
@[simp] theorem Chip.pulse_evr (n : Nat) : (c.pulse n).evr = c.evr := rfl
@[simp] theorem Chip.pulse_snp (n : Nat) : (c.pulse n).snp = c.snp := rfl
@[simp] theorem Chip.pulse_grd (n : Nat) : (c.pulse n).grd = c.grd := rfl
@[simp] theorem Chip.pulse_age (n : Nat) : (c.pulse n).age = c.age := rfl
@[simp] theorem Chip.pulse_engines (n : Nat) : (c.pulse n).engines = c.engines := rfl
@[simp] theorem Chip.pulse_channels (n : Nat) : (c.pulse n).channels = c.channels := rfl
@[simp] theorem Chip.pulse_nextHandle (n : Nat) : (c.pulse n).nextHandle = c.nextHandle := rfl
@[simp] theorem Chip.pulse_stg (n : Nat) : (c.pulse n).stg = c.stg := rfl
@[simp] theorem Chip.pulse_hbm (n : Nat) : (c.pulse n).hbm = c.hbm := rfl
@[simp] theorem Chip.pulse_pkt (n : Nat) : (c.pulse n).pkt = c.pkt := rfl
@[simp] theorem Chip.pulse_arrays (n : Nat) : (c.pulse n).arrays = c.arrays := rfl
@[simp] theorem Chip.pulse_volumes (n : Nat) : (c.pulse n).volumes = c.volumes := rfl
@[simp] theorem Chip.pulse_members (n : Nat) : (c.pulse n).members = c.members := rfl
@[simp] theorem Chip.pulse_trust (n : Nat) : (c.pulse n).trust = c.trust := rfl
@[simp] theorem Chip.pulse_cache (n : Nat) : (c.pulse n).cache = c.cache := rfl
@[simp] theorem Chip.pulse_vault (n : Nat) : (c.pulse n).vault = c.vault := rfl
@[simp] theorem Chip.pulse_par (n : Nat) : (c.pulse n).par = c.par := rfl
@[simp] theorem Chip.pulse_ports (n : Nat) : (c.pulse n).ports = c.ports := rfl
@[simp] theorem Chip.pulse_streams (n : Nat) : (c.pulse n).streams = c.streams := rfl
@[simp] theorem Chip.pulse_meters (n : Nat) : (c.pulse n).meters = c.meters := rfl
@[simp] theorem Chip.pulse_wins (n : Nat) : (c.pulse n).wins = c.wins := rfl
@[simp] theorem Chip.pulse_held (n : Nat) : (c.pulse n).held = c.held := rfl
@[simp] theorem Chip.pulse_rma (n : Nat) : (c.pulse n).rma = c.rma := rfl
@[simp] theorem Chip.pulse_cfl (n : Nat) : (c.pulse n).cfl = c.cfl := rfl
@[simp] theorem Chip.pulse_sec (n : Nat) : (c.pulse n).sec = c.sec := rfl
@[simp] theorem Chip.pulse_pwr (n : Nat) : (c.pulse n).pwr = c.pwr := rfl
@[simp] theorem Chip.pulse_aon (n : Nat) : (c.pulse n).aon = c.aon := rfl
@[simp] theorem Chip.pulse_out (n : Nat) : (c.pulse n).out = c.out := rfl
@[simp] theorem Chip.pulse_free (n : Nat) : (c.pulse n).free = c.free := rfl

@[simp] theorem Chip.modPool_blocks (p : Nat) (f : Pool → Pool) : (c.modPool p f).blocks = c.blocks := rfl
@[simp] theorem Chip.modPool_group (p : Nat) (f : Pool → Pool) : (c.modPool p f).group = c.group := rfl
@[simp] theorem Chip.modPool_tmb (p : Nat) (f : Pool → Pool) : (c.modPool p f).tmb = c.tmb := rfl
@[simp] theorem Chip.modPool_admNext (p : Nat) (f : Pool → Pool) : (c.modPool p f).admNext = c.admNext := rfl
@[simp] theorem Chip.modPool_funcs (p : Nat) (f : Pool → Pool) : (c.modPool p f).funcs = c.funcs := rfl
@[simp] theorem Chip.modPool_raised (p : Nat) (f : Pool → Pool) : (c.modPool p f).raised = c.raised := rfl
@[simp] theorem Chip.modPool_pulses (p : Nat) (f : Pool → Pool) : (c.modPool p f).pulses = c.pulses := rfl
@[simp] theorem Chip.modPool_evr (p : Nat) (f : Pool → Pool) : (c.modPool p f).evr = c.evr := rfl
@[simp] theorem Chip.modPool_snp (p : Nat) (f : Pool → Pool) : (c.modPool p f).snp = c.snp := rfl
@[simp] theorem Chip.modPool_grd (p : Nat) (f : Pool → Pool) : (c.modPool p f).grd = c.grd := rfl
@[simp] theorem Chip.modPool_age (p : Nat) (f : Pool → Pool) : (c.modPool p f).age = c.age := rfl
@[simp] theorem Chip.modPool_engines (p : Nat) (f : Pool → Pool) : (c.modPool p f).engines = c.engines := rfl
@[simp] theorem Chip.modPool_channels (p : Nat) (f : Pool → Pool) : (c.modPool p f).channels = c.channels := rfl
@[simp] theorem Chip.modPool_nextHandle (p : Nat) (f : Pool → Pool) : (c.modPool p f).nextHandle = c.nextHandle := rfl
@[simp] theorem Chip.modPool_stg (p : Nat) (f : Pool → Pool) : (c.modPool p f).stg = c.stg := rfl
@[simp] theorem Chip.modPool_hbm (p : Nat) (f : Pool → Pool) : (c.modPool p f).hbm = c.hbm := rfl
@[simp] theorem Chip.modPool_pkt (p : Nat) (f : Pool → Pool) : (c.modPool p f).pkt = c.pkt := rfl
@[simp] theorem Chip.modPool_arrays (p : Nat) (f : Pool → Pool) : (c.modPool p f).arrays = c.arrays := rfl
@[simp] theorem Chip.modPool_volumes (p : Nat) (f : Pool → Pool) : (c.modPool p f).volumes = c.volumes := rfl
@[simp] theorem Chip.modPool_members (p : Nat) (f : Pool → Pool) : (c.modPool p f).members = c.members := rfl
@[simp] theorem Chip.modPool_trust (p : Nat) (f : Pool → Pool) : (c.modPool p f).trust = c.trust := rfl
@[simp] theorem Chip.modPool_cache (p : Nat) (f : Pool → Pool) : (c.modPool p f).cache = c.cache := rfl
@[simp] theorem Chip.modPool_vault (p : Nat) (f : Pool → Pool) : (c.modPool p f).vault = c.vault := rfl
@[simp] theorem Chip.modPool_par (p : Nat) (f : Pool → Pool) : (c.modPool p f).par = c.par := rfl
@[simp] theorem Chip.modPool_ports (p : Nat) (f : Pool → Pool) : (c.modPool p f).ports = c.ports := rfl
@[simp] theorem Chip.modPool_streams (p : Nat) (f : Pool → Pool) : (c.modPool p f).streams = c.streams := rfl
@[simp] theorem Chip.modPool_meters (p : Nat) (f : Pool → Pool) : (c.modPool p f).meters = c.meters := rfl
@[simp] theorem Chip.modPool_wins (p : Nat) (f : Pool → Pool) : (c.modPool p f).wins = c.wins := rfl
@[simp] theorem Chip.modPool_held (p : Nat) (f : Pool → Pool) : (c.modPool p f).held = c.held := rfl
@[simp] theorem Chip.modPool_rma (p : Nat) (f : Pool → Pool) : (c.modPool p f).rma = c.rma := rfl
@[simp] theorem Chip.modPool_cfl (p : Nat) (f : Pool → Pool) : (c.modPool p f).cfl = c.cfl := rfl
@[simp] theorem Chip.modPool_sec (p : Nat) (f : Pool → Pool) : (c.modPool p f).sec = c.sec := rfl
@[simp] theorem Chip.modPool_pwr (p : Nat) (f : Pool → Pool) : (c.modPool p f).pwr = c.pwr := rfl
@[simp] theorem Chip.modPool_aon (p : Nat) (f : Pool → Pool) : (c.modPool p f).aon = c.aon := rfl
@[simp] theorem Chip.modPool_out (p : Nat) (f : Pool → Pool) : (c.modPool p f).out = c.out := rfl
@[simp] theorem Chip.modPool_free (p : Nat) (f : Pool → Pool) : (c.modPool p f).free = c.free := rfl

@[simp] theorem Chip.grant_blocks (p n : Nat) : (c.grant p n).blocks = c.blocks := rfl
@[simp] theorem Chip.grant_group (p n : Nat) : (c.grant p n).group = c.group := rfl
@[simp] theorem Chip.grant_tmb (p n : Nat) : (c.grant p n).tmb = c.tmb := rfl
@[simp] theorem Chip.grant_admNext (p n : Nat) : (c.grant p n).admNext = c.admNext := rfl
@[simp] theorem Chip.grant_funcs (p n : Nat) : (c.grant p n).funcs = c.funcs := rfl
@[simp] theorem Chip.grant_raised (p n : Nat) : (c.grant p n).raised = c.raised := rfl
@[simp] theorem Chip.grant_pulses (p n : Nat) : (c.grant p n).pulses = c.pulses := rfl
@[simp] theorem Chip.grant_evr (p n : Nat) : (c.grant p n).evr = c.evr := rfl
@[simp] theorem Chip.grant_snp (p n : Nat) : (c.grant p n).snp = c.snp := rfl
@[simp] theorem Chip.grant_grd (p n : Nat) : (c.grant p n).grd = c.grd := rfl
@[simp] theorem Chip.grant_age (p n : Nat) : (c.grant p n).age = c.age := rfl
@[simp] theorem Chip.grant_engines (p n : Nat) : (c.grant p n).engines = c.engines := rfl
@[simp] theorem Chip.grant_channels (p n : Nat) : (c.grant p n).channels = c.channels := rfl
@[simp] theorem Chip.grant_nextHandle (p n : Nat) : (c.grant p n).nextHandle = c.nextHandle := rfl
@[simp] theorem Chip.grant_stg (p n : Nat) : (c.grant p n).stg = c.stg := rfl
@[simp] theorem Chip.grant_hbm (p n : Nat) : (c.grant p n).hbm = c.hbm := rfl
@[simp] theorem Chip.grant_pkt (p n : Nat) : (c.grant p n).pkt = c.pkt := rfl
@[simp] theorem Chip.grant_arrays (p n : Nat) : (c.grant p n).arrays = c.arrays := rfl
@[simp] theorem Chip.grant_volumes (p n : Nat) : (c.grant p n).volumes = c.volumes := rfl
@[simp] theorem Chip.grant_members (p n : Nat) : (c.grant p n).members = c.members := rfl
@[simp] theorem Chip.grant_trust (p n : Nat) : (c.grant p n).trust = c.trust := rfl
@[simp] theorem Chip.grant_cache (p n : Nat) : (c.grant p n).cache = c.cache := rfl
@[simp] theorem Chip.grant_vault (p n : Nat) : (c.grant p n).vault = c.vault := rfl
@[simp] theorem Chip.grant_par (p n : Nat) : (c.grant p n).par = c.par := rfl
@[simp] theorem Chip.grant_ports (p n : Nat) : (c.grant p n).ports = c.ports := rfl
@[simp] theorem Chip.grant_streams (p n : Nat) : (c.grant p n).streams = c.streams := rfl
@[simp] theorem Chip.grant_meters (p n : Nat) : (c.grant p n).meters = c.meters := rfl
@[simp] theorem Chip.grant_wins (p n : Nat) : (c.grant p n).wins = c.wins := rfl
@[simp] theorem Chip.grant_held (p n : Nat) : (c.grant p n).held = c.held := rfl
@[simp] theorem Chip.grant_rma (p n : Nat) : (c.grant p n).rma = c.rma := rfl
@[simp] theorem Chip.grant_cfl (p n : Nat) : (c.grant p n).cfl = c.cfl := rfl
@[simp] theorem Chip.grant_sec (p n : Nat) : (c.grant p n).sec = c.sec := rfl
@[simp] theorem Chip.grant_pwr (p n : Nat) : (c.grant p n).pwr = c.pwr := rfl
@[simp] theorem Chip.grant_aon (p n : Nat) : (c.grant p n).aon = c.aon := rfl
@[simp] theorem Chip.grant_out (p n : Nat) : (c.grant p n).out = c.out := rfl
@[simp] theorem Chip.grant_free (p n : Nat) : (c.grant p n).free = c.free := rfl

@[simp] theorem Chip.grantMoving_blocks (p n : Nat) : (c.grantMoving p n).blocks = c.blocks := rfl
@[simp] theorem Chip.grantMoving_group (p n : Nat) : (c.grantMoving p n).group = c.group := rfl
@[simp] theorem Chip.grantMoving_tmb (p n : Nat) : (c.grantMoving p n).tmb = c.tmb := rfl
@[simp] theorem Chip.grantMoving_admNext (p n : Nat) : (c.grantMoving p n).admNext = c.admNext := rfl
@[simp] theorem Chip.grantMoving_funcs (p n : Nat) : (c.grantMoving p n).funcs = c.funcs := rfl
@[simp] theorem Chip.grantMoving_raised (p n : Nat) : (c.grantMoving p n).raised = c.raised := rfl
@[simp] theorem Chip.grantMoving_pulses (p n : Nat) : (c.grantMoving p n).pulses = c.pulses := rfl
@[simp] theorem Chip.grantMoving_evr (p n : Nat) : (c.grantMoving p n).evr = c.evr := rfl
@[simp] theorem Chip.grantMoving_snp (p n : Nat) : (c.grantMoving p n).snp = c.snp := rfl
@[simp] theorem Chip.grantMoving_grd (p n : Nat) : (c.grantMoving p n).grd = c.grd := rfl
@[simp] theorem Chip.grantMoving_age (p n : Nat) : (c.grantMoving p n).age = c.age := rfl
@[simp] theorem Chip.grantMoving_engines (p n : Nat) : (c.grantMoving p n).engines = c.engines := rfl
@[simp] theorem Chip.grantMoving_channels (p n : Nat) : (c.grantMoving p n).channels = c.channels := rfl
@[simp] theorem Chip.grantMoving_nextHandle (p n : Nat) : (c.grantMoving p n).nextHandle = c.nextHandle := rfl
@[simp] theorem Chip.grantMoving_stg (p n : Nat) : (c.grantMoving p n).stg = c.stg := rfl
@[simp] theorem Chip.grantMoving_hbm (p n : Nat) : (c.grantMoving p n).hbm = c.hbm := rfl
@[simp] theorem Chip.grantMoving_pkt (p n : Nat) : (c.grantMoving p n).pkt = c.pkt := rfl
@[simp] theorem Chip.grantMoving_arrays (p n : Nat) : (c.grantMoving p n).arrays = c.arrays := rfl
@[simp] theorem Chip.grantMoving_volumes (p n : Nat) : (c.grantMoving p n).volumes = c.volumes := rfl
@[simp] theorem Chip.grantMoving_members (p n : Nat) : (c.grantMoving p n).members = c.members := rfl
@[simp] theorem Chip.grantMoving_trust (p n : Nat) : (c.grantMoving p n).trust = c.trust := rfl
@[simp] theorem Chip.grantMoving_cache (p n : Nat) : (c.grantMoving p n).cache = c.cache := rfl
@[simp] theorem Chip.grantMoving_vault (p n : Nat) : (c.grantMoving p n).vault = c.vault := rfl
@[simp] theorem Chip.grantMoving_par (p n : Nat) : (c.grantMoving p n).par = c.par := rfl
@[simp] theorem Chip.grantMoving_ports (p n : Nat) : (c.grantMoving p n).ports = c.ports := rfl
@[simp] theorem Chip.grantMoving_streams (p n : Nat) : (c.grantMoving p n).streams = c.streams := rfl
@[simp] theorem Chip.grantMoving_meters (p n : Nat) : (c.grantMoving p n).meters = c.meters := rfl
@[simp] theorem Chip.grantMoving_wins (p n : Nat) : (c.grantMoving p n).wins = c.wins := rfl
@[simp] theorem Chip.grantMoving_held (p n : Nat) : (c.grantMoving p n).held = c.held := rfl
@[simp] theorem Chip.grantMoving_rma (p n : Nat) : (c.grantMoving p n).rma = c.rma := rfl
@[simp] theorem Chip.grantMoving_cfl (p n : Nat) : (c.grantMoving p n).cfl = c.cfl := rfl
@[simp] theorem Chip.grantMoving_sec (p n : Nat) : (c.grantMoving p n).sec = c.sec := rfl
@[simp] theorem Chip.grantMoving_pwr (p n : Nat) : (c.grantMoving p n).pwr = c.pwr := rfl
@[simp] theorem Chip.grantMoving_aon (p n : Nat) : (c.grantMoving p n).aon = c.aon := rfl
@[simp] theorem Chip.grantMoving_out (p n : Nat) : (c.grantMoving p n).out = c.out := rfl
@[simp] theorem Chip.grantMoving_free (p n : Nat) : (c.grantMoving p n).free = c.free := rfl

@[simp] theorem Chip.arrive_blocks (p : Nat) : (c.arrive p).blocks = c.blocks := rfl
@[simp] theorem Chip.arrive_group (p : Nat) : (c.arrive p).group = c.group := rfl
@[simp] theorem Chip.arrive_tmb (p : Nat) : (c.arrive p).tmb = c.tmb := rfl
@[simp] theorem Chip.arrive_admNext (p : Nat) : (c.arrive p).admNext = c.admNext := rfl
@[simp] theorem Chip.arrive_funcs (p : Nat) : (c.arrive p).funcs = c.funcs := rfl
@[simp] theorem Chip.arrive_raised (p : Nat) : (c.arrive p).raised = c.raised := rfl
@[simp] theorem Chip.arrive_pulses (p : Nat) : (c.arrive p).pulses = c.pulses := rfl
@[simp] theorem Chip.arrive_evr (p : Nat) : (c.arrive p).evr = c.evr := rfl
@[simp] theorem Chip.arrive_snp (p : Nat) : (c.arrive p).snp = c.snp := rfl
@[simp] theorem Chip.arrive_grd (p : Nat) : (c.arrive p).grd = c.grd := rfl
@[simp] theorem Chip.arrive_age (p : Nat) : (c.arrive p).age = c.age := rfl
@[simp] theorem Chip.arrive_engines (p : Nat) : (c.arrive p).engines = c.engines := rfl
@[simp] theorem Chip.arrive_channels (p : Nat) : (c.arrive p).channels = c.channels := rfl
@[simp] theorem Chip.arrive_nextHandle (p : Nat) : (c.arrive p).nextHandle = c.nextHandle := rfl
@[simp] theorem Chip.arrive_stg (p : Nat) : (c.arrive p).stg = c.stg := rfl
@[simp] theorem Chip.arrive_hbm (p : Nat) : (c.arrive p).hbm = c.hbm := rfl
@[simp] theorem Chip.arrive_pkt (p : Nat) : (c.arrive p).pkt = c.pkt := rfl
@[simp] theorem Chip.arrive_arrays (p : Nat) : (c.arrive p).arrays = c.arrays := rfl
@[simp] theorem Chip.arrive_volumes (p : Nat) : (c.arrive p).volumes = c.volumes := rfl
@[simp] theorem Chip.arrive_members (p : Nat) : (c.arrive p).members = c.members := rfl
@[simp] theorem Chip.arrive_trust (p : Nat) : (c.arrive p).trust = c.trust := rfl
@[simp] theorem Chip.arrive_cache (p : Nat) : (c.arrive p).cache = c.cache := rfl
@[simp] theorem Chip.arrive_vault (p : Nat) : (c.arrive p).vault = c.vault := rfl
@[simp] theorem Chip.arrive_par (p : Nat) : (c.arrive p).par = c.par := rfl
@[simp] theorem Chip.arrive_ports (p : Nat) : (c.arrive p).ports = c.ports := rfl
@[simp] theorem Chip.arrive_streams (p : Nat) : (c.arrive p).streams = c.streams := rfl
@[simp] theorem Chip.arrive_meters (p : Nat) : (c.arrive p).meters = c.meters := rfl
@[simp] theorem Chip.arrive_wins (p : Nat) : (c.arrive p).wins = c.wins := rfl
@[simp] theorem Chip.arrive_held (p : Nat) : (c.arrive p).held = c.held := rfl
@[simp] theorem Chip.arrive_rma (p : Nat) : (c.arrive p).rma = c.rma := rfl
@[simp] theorem Chip.arrive_cfl (p : Nat) : (c.arrive p).cfl = c.cfl := rfl
@[simp] theorem Chip.arrive_sec (p : Nat) : (c.arrive p).sec = c.sec := rfl
@[simp] theorem Chip.arrive_pwr (p : Nat) : (c.arrive p).pwr = c.pwr := rfl
@[simp] theorem Chip.arrive_aon (p : Nat) : (c.arrive p).aon = c.aon := rfl
@[simp] theorem Chip.arrive_out (p : Nat) : (c.arrive p).out = c.out := rfl
@[simp] theorem Chip.arrive_free (p : Nat) : (c.arrive p).free = c.free := rfl

@[simp] theorem Chip.giveBack_blocks (p n : Nat) : (c.giveBack p n).blocks = c.blocks := rfl
@[simp] theorem Chip.giveBack_group (p n : Nat) : (c.giveBack p n).group = c.group := rfl
@[simp] theorem Chip.giveBack_tmb (p n : Nat) : (c.giveBack p n).tmb = c.tmb := rfl
@[simp] theorem Chip.giveBack_admNext (p n : Nat) : (c.giveBack p n).admNext = c.admNext := rfl
@[simp] theorem Chip.giveBack_funcs (p n : Nat) : (c.giveBack p n).funcs = c.funcs := rfl
@[simp] theorem Chip.giveBack_raised (p n : Nat) : (c.giveBack p n).raised = c.raised := rfl
@[simp] theorem Chip.giveBack_pulses (p n : Nat) : (c.giveBack p n).pulses = c.pulses := rfl
@[simp] theorem Chip.giveBack_evr (p n : Nat) : (c.giveBack p n).evr = c.evr := rfl
@[simp] theorem Chip.giveBack_snp (p n : Nat) : (c.giveBack p n).snp = c.snp := rfl
@[simp] theorem Chip.giveBack_grd (p n : Nat) : (c.giveBack p n).grd = c.grd := rfl
@[simp] theorem Chip.giveBack_age (p n : Nat) : (c.giveBack p n).age = c.age := rfl
@[simp] theorem Chip.giveBack_engines (p n : Nat) : (c.giveBack p n).engines = c.engines := rfl
@[simp] theorem Chip.giveBack_channels (p n : Nat) : (c.giveBack p n).channels = c.channels := rfl
@[simp] theorem Chip.giveBack_nextHandle (p n : Nat) : (c.giveBack p n).nextHandle = c.nextHandle := rfl
@[simp] theorem Chip.giveBack_stg (p n : Nat) : (c.giveBack p n).stg = c.stg := rfl
@[simp] theorem Chip.giveBack_hbm (p n : Nat) : (c.giveBack p n).hbm = c.hbm := rfl
@[simp] theorem Chip.giveBack_pkt (p n : Nat) : (c.giveBack p n).pkt = c.pkt := rfl
@[simp] theorem Chip.giveBack_arrays (p n : Nat) : (c.giveBack p n).arrays = c.arrays := rfl
@[simp] theorem Chip.giveBack_volumes (p n : Nat) : (c.giveBack p n).volumes = c.volumes := rfl
@[simp] theorem Chip.giveBack_members (p n : Nat) : (c.giveBack p n).members = c.members := rfl
@[simp] theorem Chip.giveBack_trust (p n : Nat) : (c.giveBack p n).trust = c.trust := rfl
@[simp] theorem Chip.giveBack_cache (p n : Nat) : (c.giveBack p n).cache = c.cache := rfl
@[simp] theorem Chip.giveBack_vault (p n : Nat) : (c.giveBack p n).vault = c.vault := rfl
@[simp] theorem Chip.giveBack_par (p n : Nat) : (c.giveBack p n).par = c.par := rfl
@[simp] theorem Chip.giveBack_ports (p n : Nat) : (c.giveBack p n).ports = c.ports := rfl
@[simp] theorem Chip.giveBack_streams (p n : Nat) : (c.giveBack p n).streams = c.streams := rfl
@[simp] theorem Chip.giveBack_meters (p n : Nat) : (c.giveBack p n).meters = c.meters := rfl
@[simp] theorem Chip.giveBack_wins (p n : Nat) : (c.giveBack p n).wins = c.wins := rfl
@[simp] theorem Chip.giveBack_held (p n : Nat) : (c.giveBack p n).held = c.held := rfl
@[simp] theorem Chip.giveBack_rma (p n : Nat) : (c.giveBack p n).rma = c.rma := rfl
@[simp] theorem Chip.giveBack_cfl (p n : Nat) : (c.giveBack p n).cfl = c.cfl := rfl
@[simp] theorem Chip.giveBack_sec (p n : Nat) : (c.giveBack p n).sec = c.sec := rfl
@[simp] theorem Chip.giveBack_pwr (p n : Nat) : (c.giveBack p n).pwr = c.pwr := rfl
@[simp] theorem Chip.giveBack_aon (p n : Nat) : (c.giveBack p n).aon = c.aon := rfl
@[simp] theorem Chip.giveBack_out (p n : Nat) : (c.giveBack p n).out = c.out := rfl
@[simp] theorem Chip.giveBack_free (p n : Nat) : (c.giveBack p n).free = c.free := rfl

@[simp] theorem Chip.dropMoving_blocks (p : Nat) : (c.dropMoving p).blocks = c.blocks := rfl
@[simp] theorem Chip.dropMoving_group (p : Nat) : (c.dropMoving p).group = c.group := rfl
@[simp] theorem Chip.dropMoving_tmb (p : Nat) : (c.dropMoving p).tmb = c.tmb := rfl
@[simp] theorem Chip.dropMoving_admNext (p : Nat) : (c.dropMoving p).admNext = c.admNext := rfl
@[simp] theorem Chip.dropMoving_funcs (p : Nat) : (c.dropMoving p).funcs = c.funcs := rfl
@[simp] theorem Chip.dropMoving_raised (p : Nat) : (c.dropMoving p).raised = c.raised := rfl
@[simp] theorem Chip.dropMoving_pulses (p : Nat) : (c.dropMoving p).pulses = c.pulses := rfl
@[simp] theorem Chip.dropMoving_evr (p : Nat) : (c.dropMoving p).evr = c.evr := rfl
@[simp] theorem Chip.dropMoving_snp (p : Nat) : (c.dropMoving p).snp = c.snp := rfl
@[simp] theorem Chip.dropMoving_grd (p : Nat) : (c.dropMoving p).grd = c.grd := rfl
@[simp] theorem Chip.dropMoving_age (p : Nat) : (c.dropMoving p).age = c.age := rfl
@[simp] theorem Chip.dropMoving_engines (p : Nat) : (c.dropMoving p).engines = c.engines := rfl
@[simp] theorem Chip.dropMoving_channels (p : Nat) : (c.dropMoving p).channels = c.channels := rfl
@[simp] theorem Chip.dropMoving_nextHandle (p : Nat) : (c.dropMoving p).nextHandle = c.nextHandle := rfl
@[simp] theorem Chip.dropMoving_stg (p : Nat) : (c.dropMoving p).stg = c.stg := rfl
@[simp] theorem Chip.dropMoving_hbm (p : Nat) : (c.dropMoving p).hbm = c.hbm := rfl
@[simp] theorem Chip.dropMoving_pkt (p : Nat) : (c.dropMoving p).pkt = c.pkt := rfl
@[simp] theorem Chip.dropMoving_arrays (p : Nat) : (c.dropMoving p).arrays = c.arrays := rfl
@[simp] theorem Chip.dropMoving_volumes (p : Nat) : (c.dropMoving p).volumes = c.volumes := rfl
@[simp] theorem Chip.dropMoving_members (p : Nat) : (c.dropMoving p).members = c.members := rfl
@[simp] theorem Chip.dropMoving_trust (p : Nat) : (c.dropMoving p).trust = c.trust := rfl
@[simp] theorem Chip.dropMoving_cache (p : Nat) : (c.dropMoving p).cache = c.cache := rfl
@[simp] theorem Chip.dropMoving_vault (p : Nat) : (c.dropMoving p).vault = c.vault := rfl
@[simp] theorem Chip.dropMoving_par (p : Nat) : (c.dropMoving p).par = c.par := rfl
@[simp] theorem Chip.dropMoving_ports (p : Nat) : (c.dropMoving p).ports = c.ports := rfl
@[simp] theorem Chip.dropMoving_streams (p : Nat) : (c.dropMoving p).streams = c.streams := rfl
@[simp] theorem Chip.dropMoving_meters (p : Nat) : (c.dropMoving p).meters = c.meters := rfl
@[simp] theorem Chip.dropMoving_wins (p : Nat) : (c.dropMoving p).wins = c.wins := rfl
@[simp] theorem Chip.dropMoving_held (p : Nat) : (c.dropMoving p).held = c.held := rfl
@[simp] theorem Chip.dropMoving_rma (p : Nat) : (c.dropMoving p).rma = c.rma := rfl
@[simp] theorem Chip.dropMoving_cfl (p : Nat) : (c.dropMoving p).cfl = c.cfl := rfl
@[simp] theorem Chip.dropMoving_sec (p : Nat) : (c.dropMoving p).sec = c.sec := rfl
@[simp] theorem Chip.dropMoving_pwr (p : Nat) : (c.dropMoving p).pwr = c.pwr := rfl
@[simp] theorem Chip.dropMoving_aon (p : Nat) : (c.dropMoving p).aon = c.aon := rfl
@[simp] theorem Chip.dropMoving_out (p : Nat) : (c.dropMoving p).out = c.out := rfl
@[simp] theorem Chip.dropMoving_free (p : Nat) : (c.dropMoving p).free = c.free := rfl

@[simp] theorem Chip.setEng_blocks (e : Nat) (x : Engine) : (c.setEng e x).blocks = c.blocks := rfl
@[simp] theorem Chip.setEng_group (e : Nat) (x : Engine) : (c.setEng e x).group = c.group := rfl
@[simp] theorem Chip.setEng_tmb (e : Nat) (x : Engine) : (c.setEng e x).tmb = c.tmb := rfl
@[simp] theorem Chip.setEng_admNext (e : Nat) (x : Engine) : (c.setEng e x).admNext = c.admNext := rfl
@[simp] theorem Chip.setEng_funcs (e : Nat) (x : Engine) : (c.setEng e x).funcs = c.funcs := rfl
@[simp] theorem Chip.setEng_raised (e : Nat) (x : Engine) : (c.setEng e x).raised = c.raised := rfl
@[simp] theorem Chip.setEng_pulses (e : Nat) (x : Engine) : (c.setEng e x).pulses = c.pulses := rfl
@[simp] theorem Chip.setEng_pools (e : Nat) (x : Engine) : (c.setEng e x).pools = c.pools := rfl
@[simp] theorem Chip.setEng_evr (e : Nat) (x : Engine) : (c.setEng e x).evr = c.evr := rfl
@[simp] theorem Chip.setEng_snp (e : Nat) (x : Engine) : (c.setEng e x).snp = c.snp := rfl
@[simp] theorem Chip.setEng_grd (e : Nat) (x : Engine) : (c.setEng e x).grd = c.grd := rfl
@[simp] theorem Chip.setEng_age (e : Nat) (x : Engine) : (c.setEng e x).age = c.age := rfl
@[simp] theorem Chip.setEng_channels (e : Nat) (x : Engine) : (c.setEng e x).channels = c.channels := rfl
@[simp] theorem Chip.setEng_nextHandle (e : Nat) (x : Engine) : (c.setEng e x).nextHandle = c.nextHandle := rfl
@[simp] theorem Chip.setEng_stg (e : Nat) (x : Engine) : (c.setEng e x).stg = c.stg := rfl
@[simp] theorem Chip.setEng_hbm (e : Nat) (x : Engine) : (c.setEng e x).hbm = c.hbm := rfl
@[simp] theorem Chip.setEng_pkt (e : Nat) (x : Engine) : (c.setEng e x).pkt = c.pkt := rfl
@[simp] theorem Chip.setEng_arrays (e : Nat) (x : Engine) : (c.setEng e x).arrays = c.arrays := rfl
@[simp] theorem Chip.setEng_volumes (e : Nat) (x : Engine) : (c.setEng e x).volumes = c.volumes := rfl
@[simp] theorem Chip.setEng_members (e : Nat) (x : Engine) : (c.setEng e x).members = c.members := rfl
@[simp] theorem Chip.setEng_trust (e : Nat) (x : Engine) : (c.setEng e x).trust = c.trust := rfl
@[simp] theorem Chip.setEng_cache (e : Nat) (x : Engine) : (c.setEng e x).cache = c.cache := rfl
@[simp] theorem Chip.setEng_vault (e : Nat) (x : Engine) : (c.setEng e x).vault = c.vault := rfl
@[simp] theorem Chip.setEng_par (e : Nat) (x : Engine) : (c.setEng e x).par = c.par := rfl
@[simp] theorem Chip.setEng_ports (e : Nat) (x : Engine) : (c.setEng e x).ports = c.ports := rfl
@[simp] theorem Chip.setEng_streams (e : Nat) (x : Engine) : (c.setEng e x).streams = c.streams := rfl
@[simp] theorem Chip.setEng_meters (e : Nat) (x : Engine) : (c.setEng e x).meters = c.meters := rfl
@[simp] theorem Chip.setEng_wins (e : Nat) (x : Engine) : (c.setEng e x).wins = c.wins := rfl
@[simp] theorem Chip.setEng_held (e : Nat) (x : Engine) : (c.setEng e x).held = c.held := rfl
@[simp] theorem Chip.setEng_rma (e : Nat) (x : Engine) : (c.setEng e x).rma = c.rma := rfl
@[simp] theorem Chip.setEng_cfl (e : Nat) (x : Engine) : (c.setEng e x).cfl = c.cfl := rfl
@[simp] theorem Chip.setEng_sec (e : Nat) (x : Engine) : (c.setEng e x).sec = c.sec := rfl
@[simp] theorem Chip.setEng_pwr (e : Nat) (x : Engine) : (c.setEng e x).pwr = c.pwr := rfl
@[simp] theorem Chip.setEng_aon (e : Nat) (x : Engine) : (c.setEng e x).aon = c.aon := rfl
@[simp] theorem Chip.setEng_out (e : Nat) (x : Engine) : (c.setEng e x).out = c.out := rfl
@[simp] theorem Chip.setEng_free (e : Nat) (x : Engine) : (c.setEng e x).free = c.free := rfl

@[simp] theorem Chip.modEng_blocks (e : Nat) (f : Engine → Engine) : (c.modEng e f).blocks = c.blocks := rfl
@[simp] theorem Chip.modEng_group (e : Nat) (f : Engine → Engine) : (c.modEng e f).group = c.group := rfl
@[simp] theorem Chip.modEng_tmb (e : Nat) (f : Engine → Engine) : (c.modEng e f).tmb = c.tmb := rfl
@[simp] theorem Chip.modEng_admNext (e : Nat) (f : Engine → Engine) : (c.modEng e f).admNext = c.admNext := rfl
@[simp] theorem Chip.modEng_funcs (e : Nat) (f : Engine → Engine) : (c.modEng e f).funcs = c.funcs := rfl
@[simp] theorem Chip.modEng_raised (e : Nat) (f : Engine → Engine) : (c.modEng e f).raised = c.raised := rfl
@[simp] theorem Chip.modEng_pulses (e : Nat) (f : Engine → Engine) : (c.modEng e f).pulses = c.pulses := rfl
@[simp] theorem Chip.modEng_pools (e : Nat) (f : Engine → Engine) : (c.modEng e f).pools = c.pools := rfl
@[simp] theorem Chip.modEng_evr (e : Nat) (f : Engine → Engine) : (c.modEng e f).evr = c.evr := rfl
@[simp] theorem Chip.modEng_snp (e : Nat) (f : Engine → Engine) : (c.modEng e f).snp = c.snp := rfl
@[simp] theorem Chip.modEng_grd (e : Nat) (f : Engine → Engine) : (c.modEng e f).grd = c.grd := rfl
@[simp] theorem Chip.modEng_age (e : Nat) (f : Engine → Engine) : (c.modEng e f).age = c.age := rfl
@[simp] theorem Chip.modEng_channels (e : Nat) (f : Engine → Engine) : (c.modEng e f).channels = c.channels := rfl
@[simp] theorem Chip.modEng_nextHandle (e : Nat) (f : Engine → Engine) : (c.modEng e f).nextHandle = c.nextHandle := rfl
@[simp] theorem Chip.modEng_stg (e : Nat) (f : Engine → Engine) : (c.modEng e f).stg = c.stg := rfl
@[simp] theorem Chip.modEng_hbm (e : Nat) (f : Engine → Engine) : (c.modEng e f).hbm = c.hbm := rfl
@[simp] theorem Chip.modEng_pkt (e : Nat) (f : Engine → Engine) : (c.modEng e f).pkt = c.pkt := rfl
@[simp] theorem Chip.modEng_arrays (e : Nat) (f : Engine → Engine) : (c.modEng e f).arrays = c.arrays := rfl
@[simp] theorem Chip.modEng_volumes (e : Nat) (f : Engine → Engine) : (c.modEng e f).volumes = c.volumes := rfl
@[simp] theorem Chip.modEng_members (e : Nat) (f : Engine → Engine) : (c.modEng e f).members = c.members := rfl
@[simp] theorem Chip.modEng_trust (e : Nat) (f : Engine → Engine) : (c.modEng e f).trust = c.trust := rfl
@[simp] theorem Chip.modEng_cache (e : Nat) (f : Engine → Engine) : (c.modEng e f).cache = c.cache := rfl
@[simp] theorem Chip.modEng_vault (e : Nat) (f : Engine → Engine) : (c.modEng e f).vault = c.vault := rfl
@[simp] theorem Chip.modEng_par (e : Nat) (f : Engine → Engine) : (c.modEng e f).par = c.par := rfl
@[simp] theorem Chip.modEng_ports (e : Nat) (f : Engine → Engine) : (c.modEng e f).ports = c.ports := rfl
@[simp] theorem Chip.modEng_streams (e : Nat) (f : Engine → Engine) : (c.modEng e f).streams = c.streams := rfl
@[simp] theorem Chip.modEng_meters (e : Nat) (f : Engine → Engine) : (c.modEng e f).meters = c.meters := rfl
@[simp] theorem Chip.modEng_wins (e : Nat) (f : Engine → Engine) : (c.modEng e f).wins = c.wins := rfl
@[simp] theorem Chip.modEng_held (e : Nat) (f : Engine → Engine) : (c.modEng e f).held = c.held := rfl
@[simp] theorem Chip.modEng_rma (e : Nat) (f : Engine → Engine) : (c.modEng e f).rma = c.rma := rfl
@[simp] theorem Chip.modEng_cfl (e : Nat) (f : Engine → Engine) : (c.modEng e f).cfl = c.cfl := rfl
@[simp] theorem Chip.modEng_sec (e : Nat) (f : Engine → Engine) : (c.modEng e f).sec = c.sec := rfl
@[simp] theorem Chip.modEng_pwr (e : Nat) (f : Engine → Engine) : (c.modEng e f).pwr = c.pwr := rfl
@[simp] theorem Chip.modEng_aon (e : Nat) (f : Engine → Engine) : (c.modEng e f).aon = c.aon := rfl
@[simp] theorem Chip.modEng_out (e : Nat) (f : Engine → Engine) : (c.modEng e f).out = c.out := rfl
@[simp] theorem Chip.modEng_free (e : Nat) (f : Engine → Engine) : (c.modEng e f).free = c.free := rfl

@[simp] theorem Chip.setChan_blocks (n : Nat) (x : Channel) : (c.setChan n x).blocks = c.blocks := rfl
@[simp] theorem Chip.setChan_group (n : Nat) (x : Channel) : (c.setChan n x).group = c.group := rfl
@[simp] theorem Chip.setChan_tmb (n : Nat) (x : Channel) : (c.setChan n x).tmb = c.tmb := rfl
@[simp] theorem Chip.setChan_admNext (n : Nat) (x : Channel) : (c.setChan n x).admNext = c.admNext := rfl
@[simp] theorem Chip.setChan_funcs (n : Nat) (x : Channel) : (c.setChan n x).funcs = c.funcs := rfl
@[simp] theorem Chip.setChan_raised (n : Nat) (x : Channel) : (c.setChan n x).raised = c.raised := rfl
@[simp] theorem Chip.setChan_pulses (n : Nat) (x : Channel) : (c.setChan n x).pulses = c.pulses := rfl
@[simp] theorem Chip.setChan_pools (n : Nat) (x : Channel) : (c.setChan n x).pools = c.pools := rfl
@[simp] theorem Chip.setChan_evr (n : Nat) (x : Channel) : (c.setChan n x).evr = c.evr := rfl
@[simp] theorem Chip.setChan_snp (n : Nat) (x : Channel) : (c.setChan n x).snp = c.snp := rfl
@[simp] theorem Chip.setChan_grd (n : Nat) (x : Channel) : (c.setChan n x).grd = c.grd := rfl
@[simp] theorem Chip.setChan_age (n : Nat) (x : Channel) : (c.setChan n x).age = c.age := rfl
@[simp] theorem Chip.setChan_engines (n : Nat) (x : Channel) : (c.setChan n x).engines = c.engines := rfl
@[simp] theorem Chip.setChan_nextHandle (n : Nat) (x : Channel) : (c.setChan n x).nextHandle = c.nextHandle := rfl
@[simp] theorem Chip.setChan_stg (n : Nat) (x : Channel) : (c.setChan n x).stg = c.stg := rfl
@[simp] theorem Chip.setChan_hbm (n : Nat) (x : Channel) : (c.setChan n x).hbm = c.hbm := rfl
@[simp] theorem Chip.setChan_pkt (n : Nat) (x : Channel) : (c.setChan n x).pkt = c.pkt := rfl
@[simp] theorem Chip.setChan_arrays (n : Nat) (x : Channel) : (c.setChan n x).arrays = c.arrays := rfl
@[simp] theorem Chip.setChan_volumes (n : Nat) (x : Channel) : (c.setChan n x).volumes = c.volumes := rfl
@[simp] theorem Chip.setChan_members (n : Nat) (x : Channel) : (c.setChan n x).members = c.members := rfl
@[simp] theorem Chip.setChan_trust (n : Nat) (x : Channel) : (c.setChan n x).trust = c.trust := rfl
@[simp] theorem Chip.setChan_cache (n : Nat) (x : Channel) : (c.setChan n x).cache = c.cache := rfl
@[simp] theorem Chip.setChan_vault (n : Nat) (x : Channel) : (c.setChan n x).vault = c.vault := rfl
@[simp] theorem Chip.setChan_par (n : Nat) (x : Channel) : (c.setChan n x).par = c.par := rfl
@[simp] theorem Chip.setChan_ports (n : Nat) (x : Channel) : (c.setChan n x).ports = c.ports := rfl
@[simp] theorem Chip.setChan_streams (n : Nat) (x : Channel) : (c.setChan n x).streams = c.streams := rfl
@[simp] theorem Chip.setChan_meters (n : Nat) (x : Channel) : (c.setChan n x).meters = c.meters := rfl
@[simp] theorem Chip.setChan_wins (n : Nat) (x : Channel) : (c.setChan n x).wins = c.wins := rfl
@[simp] theorem Chip.setChan_held (n : Nat) (x : Channel) : (c.setChan n x).held = c.held := rfl
@[simp] theorem Chip.setChan_rma (n : Nat) (x : Channel) : (c.setChan n x).rma = c.rma := rfl
@[simp] theorem Chip.setChan_cfl (n : Nat) (x : Channel) : (c.setChan n x).cfl = c.cfl := rfl
@[simp] theorem Chip.setChan_sec (n : Nat) (x : Channel) : (c.setChan n x).sec = c.sec := rfl
@[simp] theorem Chip.setChan_pwr (n : Nat) (x : Channel) : (c.setChan n x).pwr = c.pwr := rfl
@[simp] theorem Chip.setChan_aon (n : Nat) (x : Channel) : (c.setChan n x).aon = c.aon := rfl
@[simp] theorem Chip.setChan_out (n : Nat) (x : Channel) : (c.setChan n x).out = c.out := rfl
@[simp] theorem Chip.setChan_free (n : Nat) (x : Channel) : (c.setChan n x).free = c.free := rfl

@[simp] theorem Chip.modChan_blocks (n : Nat) (f : Channel → Channel) : (c.modChan n f).blocks = c.blocks := rfl
@[simp] theorem Chip.modChan_group (n : Nat) (f : Channel → Channel) : (c.modChan n f).group = c.group := rfl
@[simp] theorem Chip.modChan_tmb (n : Nat) (f : Channel → Channel) : (c.modChan n f).tmb = c.tmb := rfl
@[simp] theorem Chip.modChan_admNext (n : Nat) (f : Channel → Channel) : (c.modChan n f).admNext = c.admNext := rfl
@[simp] theorem Chip.modChan_funcs (n : Nat) (f : Channel → Channel) : (c.modChan n f).funcs = c.funcs := rfl
@[simp] theorem Chip.modChan_raised (n : Nat) (f : Channel → Channel) : (c.modChan n f).raised = c.raised := rfl
@[simp] theorem Chip.modChan_pulses (n : Nat) (f : Channel → Channel) : (c.modChan n f).pulses = c.pulses := rfl
@[simp] theorem Chip.modChan_pools (n : Nat) (f : Channel → Channel) : (c.modChan n f).pools = c.pools := rfl
@[simp] theorem Chip.modChan_evr (n : Nat) (f : Channel → Channel) : (c.modChan n f).evr = c.evr := rfl
@[simp] theorem Chip.modChan_snp (n : Nat) (f : Channel → Channel) : (c.modChan n f).snp = c.snp := rfl
@[simp] theorem Chip.modChan_grd (n : Nat) (f : Channel → Channel) : (c.modChan n f).grd = c.grd := rfl
@[simp] theorem Chip.modChan_age (n : Nat) (f : Channel → Channel) : (c.modChan n f).age = c.age := rfl
@[simp] theorem Chip.modChan_engines (n : Nat) (f : Channel → Channel) : (c.modChan n f).engines = c.engines := rfl
@[simp] theorem Chip.modChan_nextHandle (n : Nat) (f : Channel → Channel) : (c.modChan n f).nextHandle = c.nextHandle := rfl
@[simp] theorem Chip.modChan_stg (n : Nat) (f : Channel → Channel) : (c.modChan n f).stg = c.stg := rfl
@[simp] theorem Chip.modChan_hbm (n : Nat) (f : Channel → Channel) : (c.modChan n f).hbm = c.hbm := rfl
@[simp] theorem Chip.modChan_pkt (n : Nat) (f : Channel → Channel) : (c.modChan n f).pkt = c.pkt := rfl
@[simp] theorem Chip.modChan_arrays (n : Nat) (f : Channel → Channel) : (c.modChan n f).arrays = c.arrays := rfl
@[simp] theorem Chip.modChan_volumes (n : Nat) (f : Channel → Channel) : (c.modChan n f).volumes = c.volumes := rfl
@[simp] theorem Chip.modChan_members (n : Nat) (f : Channel → Channel) : (c.modChan n f).members = c.members := rfl
@[simp] theorem Chip.modChan_trust (n : Nat) (f : Channel → Channel) : (c.modChan n f).trust = c.trust := rfl
@[simp] theorem Chip.modChan_cache (n : Nat) (f : Channel → Channel) : (c.modChan n f).cache = c.cache := rfl
@[simp] theorem Chip.modChan_vault (n : Nat) (f : Channel → Channel) : (c.modChan n f).vault = c.vault := rfl
@[simp] theorem Chip.modChan_par (n : Nat) (f : Channel → Channel) : (c.modChan n f).par = c.par := rfl
@[simp] theorem Chip.modChan_ports (n : Nat) (f : Channel → Channel) : (c.modChan n f).ports = c.ports := rfl
@[simp] theorem Chip.modChan_streams (n : Nat) (f : Channel → Channel) : (c.modChan n f).streams = c.streams := rfl
@[simp] theorem Chip.modChan_meters (n : Nat) (f : Channel → Channel) : (c.modChan n f).meters = c.meters := rfl
@[simp] theorem Chip.modChan_wins (n : Nat) (f : Channel → Channel) : (c.modChan n f).wins = c.wins := rfl
@[simp] theorem Chip.modChan_held (n : Nat) (f : Channel → Channel) : (c.modChan n f).held = c.held := rfl
@[simp] theorem Chip.modChan_rma (n : Nat) (f : Channel → Channel) : (c.modChan n f).rma = c.rma := rfl
@[simp] theorem Chip.modChan_cfl (n : Nat) (f : Channel → Channel) : (c.modChan n f).cfl = c.cfl := rfl
@[simp] theorem Chip.modChan_sec (n : Nat) (f : Channel → Channel) : (c.modChan n f).sec = c.sec := rfl
@[simp] theorem Chip.modChan_pwr (n : Nat) (f : Channel → Channel) : (c.modChan n f).pwr = c.pwr := rfl
@[simp] theorem Chip.modChan_aon (n : Nat) (f : Channel → Channel) : (c.modChan n f).aon = c.aon := rfl
@[simp] theorem Chip.modChan_out (n : Nat) (f : Channel → Channel) : (c.modChan n f).out = c.out := rfl
@[simp] theorem Chip.modChan_free (n : Nat) (f : Channel → Channel) : (c.modChan n f).free = c.free := rfl

@[simp] theorem Chip.setArr_blocks (a : Nat) (x : RaidArray) : (c.setArr a x).blocks = c.blocks := rfl
@[simp] theorem Chip.setArr_group (a : Nat) (x : RaidArray) : (c.setArr a x).group = c.group := rfl
@[simp] theorem Chip.setArr_tmb (a : Nat) (x : RaidArray) : (c.setArr a x).tmb = c.tmb := rfl
@[simp] theorem Chip.setArr_admNext (a : Nat) (x : RaidArray) : (c.setArr a x).admNext = c.admNext := rfl
@[simp] theorem Chip.setArr_funcs (a : Nat) (x : RaidArray) : (c.setArr a x).funcs = c.funcs := rfl
@[simp] theorem Chip.setArr_raised (a : Nat) (x : RaidArray) : (c.setArr a x).raised = c.raised := rfl
@[simp] theorem Chip.setArr_pulses (a : Nat) (x : RaidArray) : (c.setArr a x).pulses = c.pulses := rfl
@[simp] theorem Chip.setArr_pools (a : Nat) (x : RaidArray) : (c.setArr a x).pools = c.pools := rfl
@[simp] theorem Chip.setArr_evr (a : Nat) (x : RaidArray) : (c.setArr a x).evr = c.evr := rfl
@[simp] theorem Chip.setArr_snp (a : Nat) (x : RaidArray) : (c.setArr a x).snp = c.snp := rfl
@[simp] theorem Chip.setArr_grd (a : Nat) (x : RaidArray) : (c.setArr a x).grd = c.grd := rfl
@[simp] theorem Chip.setArr_age (a : Nat) (x : RaidArray) : (c.setArr a x).age = c.age := rfl
@[simp] theorem Chip.setArr_engines (a : Nat) (x : RaidArray) : (c.setArr a x).engines = c.engines := rfl
@[simp] theorem Chip.setArr_channels (a : Nat) (x : RaidArray) : (c.setArr a x).channels = c.channels := rfl
@[simp] theorem Chip.setArr_nextHandle (a : Nat) (x : RaidArray) : (c.setArr a x).nextHandle = c.nextHandle := rfl
@[simp] theorem Chip.setArr_stg (a : Nat) (x : RaidArray) : (c.setArr a x).stg = c.stg := rfl
@[simp] theorem Chip.setArr_hbm (a : Nat) (x : RaidArray) : (c.setArr a x).hbm = c.hbm := rfl
@[simp] theorem Chip.setArr_pkt (a : Nat) (x : RaidArray) : (c.setArr a x).pkt = c.pkt := rfl
@[simp] theorem Chip.setArr_volumes (a : Nat) (x : RaidArray) : (c.setArr a x).volumes = c.volumes := rfl
@[simp] theorem Chip.setArr_members (a : Nat) (x : RaidArray) : (c.setArr a x).members = c.members := rfl
@[simp] theorem Chip.setArr_trust (a : Nat) (x : RaidArray) : (c.setArr a x).trust = c.trust := rfl
@[simp] theorem Chip.setArr_cache (a : Nat) (x : RaidArray) : (c.setArr a x).cache = c.cache := rfl
@[simp] theorem Chip.setArr_vault (a : Nat) (x : RaidArray) : (c.setArr a x).vault = c.vault := rfl
@[simp] theorem Chip.setArr_par (a : Nat) (x : RaidArray) : (c.setArr a x).par = c.par := rfl
@[simp] theorem Chip.setArr_ports (a : Nat) (x : RaidArray) : (c.setArr a x).ports = c.ports := rfl
@[simp] theorem Chip.setArr_streams (a : Nat) (x : RaidArray) : (c.setArr a x).streams = c.streams := rfl
@[simp] theorem Chip.setArr_meters (a : Nat) (x : RaidArray) : (c.setArr a x).meters = c.meters := rfl
@[simp] theorem Chip.setArr_wins (a : Nat) (x : RaidArray) : (c.setArr a x).wins = c.wins := rfl
@[simp] theorem Chip.setArr_held (a : Nat) (x : RaidArray) : (c.setArr a x).held = c.held := rfl
@[simp] theorem Chip.setArr_rma (a : Nat) (x : RaidArray) : (c.setArr a x).rma = c.rma := rfl
@[simp] theorem Chip.setArr_cfl (a : Nat) (x : RaidArray) : (c.setArr a x).cfl = c.cfl := rfl
@[simp] theorem Chip.setArr_sec (a : Nat) (x : RaidArray) : (c.setArr a x).sec = c.sec := rfl
@[simp] theorem Chip.setArr_pwr (a : Nat) (x : RaidArray) : (c.setArr a x).pwr = c.pwr := rfl
@[simp] theorem Chip.setArr_aon (a : Nat) (x : RaidArray) : (c.setArr a x).aon = c.aon := rfl
@[simp] theorem Chip.setArr_out (a : Nat) (x : RaidArray) : (c.setArr a x).out = c.out := rfl
@[simp] theorem Chip.setArr_free (a : Nat) (x : RaidArray) : (c.setArr a x).free = c.free := rfl

@[simp] theorem Chip.modArr_blocks (a : Nat) (f : RaidArray → RaidArray) : (c.modArr a f).blocks = c.blocks := rfl
@[simp] theorem Chip.modArr_group (a : Nat) (f : RaidArray → RaidArray) : (c.modArr a f).group = c.group := rfl
@[simp] theorem Chip.modArr_tmb (a : Nat) (f : RaidArray → RaidArray) : (c.modArr a f).tmb = c.tmb := rfl
@[simp] theorem Chip.modArr_admNext (a : Nat) (f : RaidArray → RaidArray) : (c.modArr a f).admNext = c.admNext := rfl
@[simp] theorem Chip.modArr_funcs (a : Nat) (f : RaidArray → RaidArray) : (c.modArr a f).funcs = c.funcs := rfl
@[simp] theorem Chip.modArr_raised (a : Nat) (f : RaidArray → RaidArray) : (c.modArr a f).raised = c.raised := rfl
@[simp] theorem Chip.modArr_pulses (a : Nat) (f : RaidArray → RaidArray) : (c.modArr a f).pulses = c.pulses := rfl
@[simp] theorem Chip.modArr_pools (a : Nat) (f : RaidArray → RaidArray) : (c.modArr a f).pools = c.pools := rfl
@[simp] theorem Chip.modArr_evr (a : Nat) (f : RaidArray → RaidArray) : (c.modArr a f).evr = c.evr := rfl
@[simp] theorem Chip.modArr_snp (a : Nat) (f : RaidArray → RaidArray) : (c.modArr a f).snp = c.snp := rfl
@[simp] theorem Chip.modArr_grd (a : Nat) (f : RaidArray → RaidArray) : (c.modArr a f).grd = c.grd := rfl
@[simp] theorem Chip.modArr_age (a : Nat) (f : RaidArray → RaidArray) : (c.modArr a f).age = c.age := rfl
@[simp] theorem Chip.modArr_engines (a : Nat) (f : RaidArray → RaidArray) : (c.modArr a f).engines = c.engines := rfl
@[simp] theorem Chip.modArr_channels (a : Nat) (f : RaidArray → RaidArray) : (c.modArr a f).channels = c.channels := rfl
@[simp] theorem Chip.modArr_nextHandle (a : Nat) (f : RaidArray → RaidArray) : (c.modArr a f).nextHandle = c.nextHandle := rfl
@[simp] theorem Chip.modArr_stg (a : Nat) (f : RaidArray → RaidArray) : (c.modArr a f).stg = c.stg := rfl
@[simp] theorem Chip.modArr_hbm (a : Nat) (f : RaidArray → RaidArray) : (c.modArr a f).hbm = c.hbm := rfl
@[simp] theorem Chip.modArr_pkt (a : Nat) (f : RaidArray → RaidArray) : (c.modArr a f).pkt = c.pkt := rfl
@[simp] theorem Chip.modArr_volumes (a : Nat) (f : RaidArray → RaidArray) : (c.modArr a f).volumes = c.volumes := rfl
@[simp] theorem Chip.modArr_members (a : Nat) (f : RaidArray → RaidArray) : (c.modArr a f).members = c.members := rfl
@[simp] theorem Chip.modArr_trust (a : Nat) (f : RaidArray → RaidArray) : (c.modArr a f).trust = c.trust := rfl
@[simp] theorem Chip.modArr_cache (a : Nat) (f : RaidArray → RaidArray) : (c.modArr a f).cache = c.cache := rfl
@[simp] theorem Chip.modArr_vault (a : Nat) (f : RaidArray → RaidArray) : (c.modArr a f).vault = c.vault := rfl
@[simp] theorem Chip.modArr_par (a : Nat) (f : RaidArray → RaidArray) : (c.modArr a f).par = c.par := rfl
@[simp] theorem Chip.modArr_ports (a : Nat) (f : RaidArray → RaidArray) : (c.modArr a f).ports = c.ports := rfl
@[simp] theorem Chip.modArr_streams (a : Nat) (f : RaidArray → RaidArray) : (c.modArr a f).streams = c.streams := rfl
@[simp] theorem Chip.modArr_meters (a : Nat) (f : RaidArray → RaidArray) : (c.modArr a f).meters = c.meters := rfl
@[simp] theorem Chip.modArr_wins (a : Nat) (f : RaidArray → RaidArray) : (c.modArr a f).wins = c.wins := rfl
@[simp] theorem Chip.modArr_held (a : Nat) (f : RaidArray → RaidArray) : (c.modArr a f).held = c.held := rfl
@[simp] theorem Chip.modArr_rma (a : Nat) (f : RaidArray → RaidArray) : (c.modArr a f).rma = c.rma := rfl
@[simp] theorem Chip.modArr_cfl (a : Nat) (f : RaidArray → RaidArray) : (c.modArr a f).cfl = c.cfl := rfl
@[simp] theorem Chip.modArr_sec (a : Nat) (f : RaidArray → RaidArray) : (c.modArr a f).sec = c.sec := rfl
@[simp] theorem Chip.modArr_pwr (a : Nat) (f : RaidArray → RaidArray) : (c.modArr a f).pwr = c.pwr := rfl
@[simp] theorem Chip.modArr_aon (a : Nat) (f : RaidArray → RaidArray) : (c.modArr a f).aon = c.aon := rfl
@[simp] theorem Chip.modArr_out (a : Nat) (f : RaidArray → RaidArray) : (c.modArr a f).out = c.out := rfl
@[simp] theorem Chip.modArr_free (a : Nat) (f : RaidArray → RaidArray) : (c.modArr a f).free = c.free := rfl

@[simp] theorem Chip.setVol_blocks (v : Nat) (x : Volume) : (c.setVol v x).blocks = c.blocks := rfl
@[simp] theorem Chip.setVol_group (v : Nat) (x : Volume) : (c.setVol v x).group = c.group := rfl
@[simp] theorem Chip.setVol_tmb (v : Nat) (x : Volume) : (c.setVol v x).tmb = c.tmb := rfl
@[simp] theorem Chip.setVol_admNext (v : Nat) (x : Volume) : (c.setVol v x).admNext = c.admNext := rfl
@[simp] theorem Chip.setVol_funcs (v : Nat) (x : Volume) : (c.setVol v x).funcs = c.funcs := rfl
@[simp] theorem Chip.setVol_raised (v : Nat) (x : Volume) : (c.setVol v x).raised = c.raised := rfl
@[simp] theorem Chip.setVol_pulses (v : Nat) (x : Volume) : (c.setVol v x).pulses = c.pulses := rfl
@[simp] theorem Chip.setVol_pools (v : Nat) (x : Volume) : (c.setVol v x).pools = c.pools := rfl
@[simp] theorem Chip.setVol_evr (v : Nat) (x : Volume) : (c.setVol v x).evr = c.evr := rfl
@[simp] theorem Chip.setVol_snp (v : Nat) (x : Volume) : (c.setVol v x).snp = c.snp := rfl
@[simp] theorem Chip.setVol_grd (v : Nat) (x : Volume) : (c.setVol v x).grd = c.grd := rfl
@[simp] theorem Chip.setVol_age (v : Nat) (x : Volume) : (c.setVol v x).age = c.age := rfl
@[simp] theorem Chip.setVol_engines (v : Nat) (x : Volume) : (c.setVol v x).engines = c.engines := rfl
@[simp] theorem Chip.setVol_channels (v : Nat) (x : Volume) : (c.setVol v x).channels = c.channels := rfl
@[simp] theorem Chip.setVol_nextHandle (v : Nat) (x : Volume) : (c.setVol v x).nextHandle = c.nextHandle := rfl
@[simp] theorem Chip.setVol_stg (v : Nat) (x : Volume) : (c.setVol v x).stg = c.stg := rfl
@[simp] theorem Chip.setVol_hbm (v : Nat) (x : Volume) : (c.setVol v x).hbm = c.hbm := rfl
@[simp] theorem Chip.setVol_pkt (v : Nat) (x : Volume) : (c.setVol v x).pkt = c.pkt := rfl
@[simp] theorem Chip.setVol_arrays (v : Nat) (x : Volume) : (c.setVol v x).arrays = c.arrays := rfl
@[simp] theorem Chip.setVol_members (v : Nat) (x : Volume) : (c.setVol v x).members = c.members := rfl
@[simp] theorem Chip.setVol_trust (v : Nat) (x : Volume) : (c.setVol v x).trust = c.trust := rfl
@[simp] theorem Chip.setVol_cache (v : Nat) (x : Volume) : (c.setVol v x).cache = c.cache := rfl
@[simp] theorem Chip.setVol_vault (v : Nat) (x : Volume) : (c.setVol v x).vault = c.vault := rfl
@[simp] theorem Chip.setVol_par (v : Nat) (x : Volume) : (c.setVol v x).par = c.par := rfl
@[simp] theorem Chip.setVol_ports (v : Nat) (x : Volume) : (c.setVol v x).ports = c.ports := rfl
@[simp] theorem Chip.setVol_streams (v : Nat) (x : Volume) : (c.setVol v x).streams = c.streams := rfl
@[simp] theorem Chip.setVol_meters (v : Nat) (x : Volume) : (c.setVol v x).meters = c.meters := rfl
@[simp] theorem Chip.setVol_wins (v : Nat) (x : Volume) : (c.setVol v x).wins = c.wins := rfl
@[simp] theorem Chip.setVol_held (v : Nat) (x : Volume) : (c.setVol v x).held = c.held := rfl
@[simp] theorem Chip.setVol_rma (v : Nat) (x : Volume) : (c.setVol v x).rma = c.rma := rfl
@[simp] theorem Chip.setVol_cfl (v : Nat) (x : Volume) : (c.setVol v x).cfl = c.cfl := rfl
@[simp] theorem Chip.setVol_sec (v : Nat) (x : Volume) : (c.setVol v x).sec = c.sec := rfl
@[simp] theorem Chip.setVol_pwr (v : Nat) (x : Volume) : (c.setVol v x).pwr = c.pwr := rfl
@[simp] theorem Chip.setVol_aon (v : Nat) (x : Volume) : (c.setVol v x).aon = c.aon := rfl
@[simp] theorem Chip.setVol_out (v : Nat) (x : Volume) : (c.setVol v x).out = c.out := rfl
@[simp] theorem Chip.setVol_free (v : Nat) (x : Volume) : (c.setVol v x).free = c.free := rfl

@[simp] theorem Chip.modVol_blocks (v : Nat) (f : Volume → Volume) : (c.modVol v f).blocks = c.blocks := rfl
@[simp] theorem Chip.modVol_group (v : Nat) (f : Volume → Volume) : (c.modVol v f).group = c.group := rfl
@[simp] theorem Chip.modVol_tmb (v : Nat) (f : Volume → Volume) : (c.modVol v f).tmb = c.tmb := rfl
@[simp] theorem Chip.modVol_admNext (v : Nat) (f : Volume → Volume) : (c.modVol v f).admNext = c.admNext := rfl
@[simp] theorem Chip.modVol_funcs (v : Nat) (f : Volume → Volume) : (c.modVol v f).funcs = c.funcs := rfl
@[simp] theorem Chip.modVol_raised (v : Nat) (f : Volume → Volume) : (c.modVol v f).raised = c.raised := rfl
@[simp] theorem Chip.modVol_pulses (v : Nat) (f : Volume → Volume) : (c.modVol v f).pulses = c.pulses := rfl
@[simp] theorem Chip.modVol_pools (v : Nat) (f : Volume → Volume) : (c.modVol v f).pools = c.pools := rfl
@[simp] theorem Chip.modVol_evr (v : Nat) (f : Volume → Volume) : (c.modVol v f).evr = c.evr := rfl
@[simp] theorem Chip.modVol_snp (v : Nat) (f : Volume → Volume) : (c.modVol v f).snp = c.snp := rfl
@[simp] theorem Chip.modVol_grd (v : Nat) (f : Volume → Volume) : (c.modVol v f).grd = c.grd := rfl
@[simp] theorem Chip.modVol_age (v : Nat) (f : Volume → Volume) : (c.modVol v f).age = c.age := rfl
@[simp] theorem Chip.modVol_engines (v : Nat) (f : Volume → Volume) : (c.modVol v f).engines = c.engines := rfl
@[simp] theorem Chip.modVol_channels (v : Nat) (f : Volume → Volume) : (c.modVol v f).channels = c.channels := rfl
@[simp] theorem Chip.modVol_nextHandle (v : Nat) (f : Volume → Volume) : (c.modVol v f).nextHandle = c.nextHandle := rfl
@[simp] theorem Chip.modVol_stg (v : Nat) (f : Volume → Volume) : (c.modVol v f).stg = c.stg := rfl
@[simp] theorem Chip.modVol_hbm (v : Nat) (f : Volume → Volume) : (c.modVol v f).hbm = c.hbm := rfl
@[simp] theorem Chip.modVol_pkt (v : Nat) (f : Volume → Volume) : (c.modVol v f).pkt = c.pkt := rfl
@[simp] theorem Chip.modVol_arrays (v : Nat) (f : Volume → Volume) : (c.modVol v f).arrays = c.arrays := rfl
@[simp] theorem Chip.modVol_members (v : Nat) (f : Volume → Volume) : (c.modVol v f).members = c.members := rfl
@[simp] theorem Chip.modVol_trust (v : Nat) (f : Volume → Volume) : (c.modVol v f).trust = c.trust := rfl
@[simp] theorem Chip.modVol_cache (v : Nat) (f : Volume → Volume) : (c.modVol v f).cache = c.cache := rfl
@[simp] theorem Chip.modVol_vault (v : Nat) (f : Volume → Volume) : (c.modVol v f).vault = c.vault := rfl
@[simp] theorem Chip.modVol_par (v : Nat) (f : Volume → Volume) : (c.modVol v f).par = c.par := rfl
@[simp] theorem Chip.modVol_ports (v : Nat) (f : Volume → Volume) : (c.modVol v f).ports = c.ports := rfl
@[simp] theorem Chip.modVol_streams (v : Nat) (f : Volume → Volume) : (c.modVol v f).streams = c.streams := rfl
@[simp] theorem Chip.modVol_meters (v : Nat) (f : Volume → Volume) : (c.modVol v f).meters = c.meters := rfl
@[simp] theorem Chip.modVol_wins (v : Nat) (f : Volume → Volume) : (c.modVol v f).wins = c.wins := rfl
@[simp] theorem Chip.modVol_held (v : Nat) (f : Volume → Volume) : (c.modVol v f).held = c.held := rfl
@[simp] theorem Chip.modVol_rma (v : Nat) (f : Volume → Volume) : (c.modVol v f).rma = c.rma := rfl
@[simp] theorem Chip.modVol_cfl (v : Nat) (f : Volume → Volume) : (c.modVol v f).cfl = c.cfl := rfl
@[simp] theorem Chip.modVol_sec (v : Nat) (f : Volume → Volume) : (c.modVol v f).sec = c.sec := rfl
@[simp] theorem Chip.modVol_pwr (v : Nat) (f : Volume → Volume) : (c.modVol v f).pwr = c.pwr := rfl
@[simp] theorem Chip.modVol_aon (v : Nat) (f : Volume → Volume) : (c.modVol v f).aon = c.aon := rfl
@[simp] theorem Chip.modVol_out (v : Nat) (f : Volume → Volume) : (c.modVol v f).out = c.out := rfl
@[simp] theorem Chip.modVol_free (v : Nat) (f : Volume → Volume) : (c.modVol v f).free = c.free := rfl

@[simp] theorem Chip.setMbr_blocks (m : Nat) (x : Member) : (c.setMbr m x).blocks = c.blocks := rfl
@[simp] theorem Chip.setMbr_group (m : Nat) (x : Member) : (c.setMbr m x).group = c.group := rfl
@[simp] theorem Chip.setMbr_tmb (m : Nat) (x : Member) : (c.setMbr m x).tmb = c.tmb := rfl
@[simp] theorem Chip.setMbr_admNext (m : Nat) (x : Member) : (c.setMbr m x).admNext = c.admNext := rfl
@[simp] theorem Chip.setMbr_funcs (m : Nat) (x : Member) : (c.setMbr m x).funcs = c.funcs := rfl
@[simp] theorem Chip.setMbr_raised (m : Nat) (x : Member) : (c.setMbr m x).raised = c.raised := rfl
@[simp] theorem Chip.setMbr_pulses (m : Nat) (x : Member) : (c.setMbr m x).pulses = c.pulses := rfl
@[simp] theorem Chip.setMbr_pools (m : Nat) (x : Member) : (c.setMbr m x).pools = c.pools := rfl
@[simp] theorem Chip.setMbr_evr (m : Nat) (x : Member) : (c.setMbr m x).evr = c.evr := rfl
@[simp] theorem Chip.setMbr_snp (m : Nat) (x : Member) : (c.setMbr m x).snp = c.snp := rfl
@[simp] theorem Chip.setMbr_grd (m : Nat) (x : Member) : (c.setMbr m x).grd = c.grd := rfl
@[simp] theorem Chip.setMbr_age (m : Nat) (x : Member) : (c.setMbr m x).age = c.age := rfl
@[simp] theorem Chip.setMbr_engines (m : Nat) (x : Member) : (c.setMbr m x).engines = c.engines := rfl
@[simp] theorem Chip.setMbr_channels (m : Nat) (x : Member) : (c.setMbr m x).channels = c.channels := rfl
@[simp] theorem Chip.setMbr_nextHandle (m : Nat) (x : Member) : (c.setMbr m x).nextHandle = c.nextHandle := rfl
@[simp] theorem Chip.setMbr_stg (m : Nat) (x : Member) : (c.setMbr m x).stg = c.stg := rfl
@[simp] theorem Chip.setMbr_hbm (m : Nat) (x : Member) : (c.setMbr m x).hbm = c.hbm := rfl
@[simp] theorem Chip.setMbr_pkt (m : Nat) (x : Member) : (c.setMbr m x).pkt = c.pkt := rfl
@[simp] theorem Chip.setMbr_arrays (m : Nat) (x : Member) : (c.setMbr m x).arrays = c.arrays := rfl
@[simp] theorem Chip.setMbr_volumes (m : Nat) (x : Member) : (c.setMbr m x).volumes = c.volumes := rfl
@[simp] theorem Chip.setMbr_trust (m : Nat) (x : Member) : (c.setMbr m x).trust = c.trust := rfl
@[simp] theorem Chip.setMbr_cache (m : Nat) (x : Member) : (c.setMbr m x).cache = c.cache := rfl
@[simp] theorem Chip.setMbr_vault (m : Nat) (x : Member) : (c.setMbr m x).vault = c.vault := rfl
@[simp] theorem Chip.setMbr_par (m : Nat) (x : Member) : (c.setMbr m x).par = c.par := rfl
@[simp] theorem Chip.setMbr_ports (m : Nat) (x : Member) : (c.setMbr m x).ports = c.ports := rfl
@[simp] theorem Chip.setMbr_streams (m : Nat) (x : Member) : (c.setMbr m x).streams = c.streams := rfl
@[simp] theorem Chip.setMbr_meters (m : Nat) (x : Member) : (c.setMbr m x).meters = c.meters := rfl
@[simp] theorem Chip.setMbr_wins (m : Nat) (x : Member) : (c.setMbr m x).wins = c.wins := rfl
@[simp] theorem Chip.setMbr_held (m : Nat) (x : Member) : (c.setMbr m x).held = c.held := rfl
@[simp] theorem Chip.setMbr_rma (m : Nat) (x : Member) : (c.setMbr m x).rma = c.rma := rfl
@[simp] theorem Chip.setMbr_cfl (m : Nat) (x : Member) : (c.setMbr m x).cfl = c.cfl := rfl
@[simp] theorem Chip.setMbr_sec (m : Nat) (x : Member) : (c.setMbr m x).sec = c.sec := rfl
@[simp] theorem Chip.setMbr_pwr (m : Nat) (x : Member) : (c.setMbr m x).pwr = c.pwr := rfl
@[simp] theorem Chip.setMbr_aon (m : Nat) (x : Member) : (c.setMbr m x).aon = c.aon := rfl
@[simp] theorem Chip.setMbr_out (m : Nat) (x : Member) : (c.setMbr m x).out = c.out := rfl
@[simp] theorem Chip.setMbr_free (m : Nat) (x : Member) : (c.setMbr m x).free = c.free := rfl

@[simp] theorem Chip.modMbr_blocks (m : Nat) (f : Member → Member) : (c.modMbr m f).blocks = c.blocks := rfl
@[simp] theorem Chip.modMbr_group (m : Nat) (f : Member → Member) : (c.modMbr m f).group = c.group := rfl
@[simp] theorem Chip.modMbr_tmb (m : Nat) (f : Member → Member) : (c.modMbr m f).tmb = c.tmb := rfl
@[simp] theorem Chip.modMbr_admNext (m : Nat) (f : Member → Member) : (c.modMbr m f).admNext = c.admNext := rfl
@[simp] theorem Chip.modMbr_funcs (m : Nat) (f : Member → Member) : (c.modMbr m f).funcs = c.funcs := rfl
@[simp] theorem Chip.modMbr_raised (m : Nat) (f : Member → Member) : (c.modMbr m f).raised = c.raised := rfl
@[simp] theorem Chip.modMbr_pulses (m : Nat) (f : Member → Member) : (c.modMbr m f).pulses = c.pulses := rfl
@[simp] theorem Chip.modMbr_pools (m : Nat) (f : Member → Member) : (c.modMbr m f).pools = c.pools := rfl
@[simp] theorem Chip.modMbr_evr (m : Nat) (f : Member → Member) : (c.modMbr m f).evr = c.evr := rfl
@[simp] theorem Chip.modMbr_snp (m : Nat) (f : Member → Member) : (c.modMbr m f).snp = c.snp := rfl
@[simp] theorem Chip.modMbr_grd (m : Nat) (f : Member → Member) : (c.modMbr m f).grd = c.grd := rfl
@[simp] theorem Chip.modMbr_age (m : Nat) (f : Member → Member) : (c.modMbr m f).age = c.age := rfl
@[simp] theorem Chip.modMbr_engines (m : Nat) (f : Member → Member) : (c.modMbr m f).engines = c.engines := rfl
@[simp] theorem Chip.modMbr_channels (m : Nat) (f : Member → Member) : (c.modMbr m f).channels = c.channels := rfl
@[simp] theorem Chip.modMbr_nextHandle (m : Nat) (f : Member → Member) : (c.modMbr m f).nextHandle = c.nextHandle := rfl
@[simp] theorem Chip.modMbr_stg (m : Nat) (f : Member → Member) : (c.modMbr m f).stg = c.stg := rfl
@[simp] theorem Chip.modMbr_hbm (m : Nat) (f : Member → Member) : (c.modMbr m f).hbm = c.hbm := rfl
@[simp] theorem Chip.modMbr_pkt (m : Nat) (f : Member → Member) : (c.modMbr m f).pkt = c.pkt := rfl
@[simp] theorem Chip.modMbr_arrays (m : Nat) (f : Member → Member) : (c.modMbr m f).arrays = c.arrays := rfl
@[simp] theorem Chip.modMbr_volumes (m : Nat) (f : Member → Member) : (c.modMbr m f).volumes = c.volumes := rfl
@[simp] theorem Chip.modMbr_trust (m : Nat) (f : Member → Member) : (c.modMbr m f).trust = c.trust := rfl
@[simp] theorem Chip.modMbr_cache (m : Nat) (f : Member → Member) : (c.modMbr m f).cache = c.cache := rfl
@[simp] theorem Chip.modMbr_vault (m : Nat) (f : Member → Member) : (c.modMbr m f).vault = c.vault := rfl
@[simp] theorem Chip.modMbr_par (m : Nat) (f : Member → Member) : (c.modMbr m f).par = c.par := rfl
@[simp] theorem Chip.modMbr_ports (m : Nat) (f : Member → Member) : (c.modMbr m f).ports = c.ports := rfl
@[simp] theorem Chip.modMbr_streams (m : Nat) (f : Member → Member) : (c.modMbr m f).streams = c.streams := rfl
@[simp] theorem Chip.modMbr_meters (m : Nat) (f : Member → Member) : (c.modMbr m f).meters = c.meters := rfl
@[simp] theorem Chip.modMbr_wins (m : Nat) (f : Member → Member) : (c.modMbr m f).wins = c.wins := rfl
@[simp] theorem Chip.modMbr_held (m : Nat) (f : Member → Member) : (c.modMbr m f).held = c.held := rfl
@[simp] theorem Chip.modMbr_rma (m : Nat) (f : Member → Member) : (c.modMbr m f).rma = c.rma := rfl
@[simp] theorem Chip.modMbr_cfl (m : Nat) (f : Member → Member) : (c.modMbr m f).cfl = c.cfl := rfl
@[simp] theorem Chip.modMbr_sec (m : Nat) (f : Member → Member) : (c.modMbr m f).sec = c.sec := rfl
@[simp] theorem Chip.modMbr_pwr (m : Nat) (f : Member → Member) : (c.modMbr m f).pwr = c.pwr := rfl
@[simp] theorem Chip.modMbr_aon (m : Nat) (f : Member → Member) : (c.modMbr m f).aon = c.aon := rfl
@[simp] theorem Chip.modMbr_out (m : Nat) (f : Member → Member) : (c.modMbr m f).out = c.out := rfl
@[simp] theorem Chip.modMbr_free (m : Nat) (f : Member → Member) : (c.modMbr m f).free = c.free := rfl

@[simp] theorem Chip.setPort_blocks (p : Nat) (x : NetPort) : (c.setPort p x).blocks = c.blocks := rfl
@[simp] theorem Chip.setPort_group (p : Nat) (x : NetPort) : (c.setPort p x).group = c.group := rfl
@[simp] theorem Chip.setPort_tmb (p : Nat) (x : NetPort) : (c.setPort p x).tmb = c.tmb := rfl
@[simp] theorem Chip.setPort_admNext (p : Nat) (x : NetPort) : (c.setPort p x).admNext = c.admNext := rfl
@[simp] theorem Chip.setPort_funcs (p : Nat) (x : NetPort) : (c.setPort p x).funcs = c.funcs := rfl
@[simp] theorem Chip.setPort_raised (p : Nat) (x : NetPort) : (c.setPort p x).raised = c.raised := rfl
@[simp] theorem Chip.setPort_pulses (p : Nat) (x : NetPort) : (c.setPort p x).pulses = c.pulses := rfl
@[simp] theorem Chip.setPort_pools (p : Nat) (x : NetPort) : (c.setPort p x).pools = c.pools := rfl
@[simp] theorem Chip.setPort_evr (p : Nat) (x : NetPort) : (c.setPort p x).evr = c.evr := rfl
@[simp] theorem Chip.setPort_snp (p : Nat) (x : NetPort) : (c.setPort p x).snp = c.snp := rfl
@[simp] theorem Chip.setPort_grd (p : Nat) (x : NetPort) : (c.setPort p x).grd = c.grd := rfl
@[simp] theorem Chip.setPort_age (p : Nat) (x : NetPort) : (c.setPort p x).age = c.age := rfl
@[simp] theorem Chip.setPort_engines (p : Nat) (x : NetPort) : (c.setPort p x).engines = c.engines := rfl
@[simp] theorem Chip.setPort_channels (p : Nat) (x : NetPort) : (c.setPort p x).channels = c.channels := rfl
@[simp] theorem Chip.setPort_nextHandle (p : Nat) (x : NetPort) : (c.setPort p x).nextHandle = c.nextHandle := rfl
@[simp] theorem Chip.setPort_stg (p : Nat) (x : NetPort) : (c.setPort p x).stg = c.stg := rfl
@[simp] theorem Chip.setPort_hbm (p : Nat) (x : NetPort) : (c.setPort p x).hbm = c.hbm := rfl
@[simp] theorem Chip.setPort_pkt (p : Nat) (x : NetPort) : (c.setPort p x).pkt = c.pkt := rfl
@[simp] theorem Chip.setPort_arrays (p : Nat) (x : NetPort) : (c.setPort p x).arrays = c.arrays := rfl
@[simp] theorem Chip.setPort_volumes (p : Nat) (x : NetPort) : (c.setPort p x).volumes = c.volumes := rfl
@[simp] theorem Chip.setPort_members (p : Nat) (x : NetPort) : (c.setPort p x).members = c.members := rfl
@[simp] theorem Chip.setPort_trust (p : Nat) (x : NetPort) : (c.setPort p x).trust = c.trust := rfl
@[simp] theorem Chip.setPort_cache (p : Nat) (x : NetPort) : (c.setPort p x).cache = c.cache := rfl
@[simp] theorem Chip.setPort_vault (p : Nat) (x : NetPort) : (c.setPort p x).vault = c.vault := rfl
@[simp] theorem Chip.setPort_par (p : Nat) (x : NetPort) : (c.setPort p x).par = c.par := rfl
@[simp] theorem Chip.setPort_streams (p : Nat) (x : NetPort) : (c.setPort p x).streams = c.streams := rfl
@[simp] theorem Chip.setPort_meters (p : Nat) (x : NetPort) : (c.setPort p x).meters = c.meters := rfl
@[simp] theorem Chip.setPort_wins (p : Nat) (x : NetPort) : (c.setPort p x).wins = c.wins := rfl
@[simp] theorem Chip.setPort_held (p : Nat) (x : NetPort) : (c.setPort p x).held = c.held := rfl
@[simp] theorem Chip.setPort_rma (p : Nat) (x : NetPort) : (c.setPort p x).rma = c.rma := rfl
@[simp] theorem Chip.setPort_cfl (p : Nat) (x : NetPort) : (c.setPort p x).cfl = c.cfl := rfl
@[simp] theorem Chip.setPort_sec (p : Nat) (x : NetPort) : (c.setPort p x).sec = c.sec := rfl
@[simp] theorem Chip.setPort_pwr (p : Nat) (x : NetPort) : (c.setPort p x).pwr = c.pwr := rfl
@[simp] theorem Chip.setPort_aon (p : Nat) (x : NetPort) : (c.setPort p x).aon = c.aon := rfl
@[simp] theorem Chip.setPort_out (p : Nat) (x : NetPort) : (c.setPort p x).out = c.out := rfl
@[simp] theorem Chip.setPort_free (p : Nat) (x : NetPort) : (c.setPort p x).free = c.free := rfl

@[simp] theorem Chip.modPort_blocks (p : Nat) (f : NetPort → NetPort) : (c.modPort p f).blocks = c.blocks := rfl
@[simp] theorem Chip.modPort_group (p : Nat) (f : NetPort → NetPort) : (c.modPort p f).group = c.group := rfl
@[simp] theorem Chip.modPort_tmb (p : Nat) (f : NetPort → NetPort) : (c.modPort p f).tmb = c.tmb := rfl
@[simp] theorem Chip.modPort_admNext (p : Nat) (f : NetPort → NetPort) : (c.modPort p f).admNext = c.admNext := rfl
@[simp] theorem Chip.modPort_funcs (p : Nat) (f : NetPort → NetPort) : (c.modPort p f).funcs = c.funcs := rfl
@[simp] theorem Chip.modPort_raised (p : Nat) (f : NetPort → NetPort) : (c.modPort p f).raised = c.raised := rfl
@[simp] theorem Chip.modPort_pulses (p : Nat) (f : NetPort → NetPort) : (c.modPort p f).pulses = c.pulses := rfl
@[simp] theorem Chip.modPort_pools (p : Nat) (f : NetPort → NetPort) : (c.modPort p f).pools = c.pools := rfl
@[simp] theorem Chip.modPort_evr (p : Nat) (f : NetPort → NetPort) : (c.modPort p f).evr = c.evr := rfl
@[simp] theorem Chip.modPort_snp (p : Nat) (f : NetPort → NetPort) : (c.modPort p f).snp = c.snp := rfl
@[simp] theorem Chip.modPort_grd (p : Nat) (f : NetPort → NetPort) : (c.modPort p f).grd = c.grd := rfl
@[simp] theorem Chip.modPort_age (p : Nat) (f : NetPort → NetPort) : (c.modPort p f).age = c.age := rfl
@[simp] theorem Chip.modPort_engines (p : Nat) (f : NetPort → NetPort) : (c.modPort p f).engines = c.engines := rfl
@[simp] theorem Chip.modPort_channels (p : Nat) (f : NetPort → NetPort) : (c.modPort p f).channels = c.channels := rfl
@[simp] theorem Chip.modPort_nextHandle (p : Nat) (f : NetPort → NetPort) : (c.modPort p f).nextHandle = c.nextHandle := rfl
@[simp] theorem Chip.modPort_stg (p : Nat) (f : NetPort → NetPort) : (c.modPort p f).stg = c.stg := rfl
@[simp] theorem Chip.modPort_hbm (p : Nat) (f : NetPort → NetPort) : (c.modPort p f).hbm = c.hbm := rfl
@[simp] theorem Chip.modPort_pkt (p : Nat) (f : NetPort → NetPort) : (c.modPort p f).pkt = c.pkt := rfl
@[simp] theorem Chip.modPort_arrays (p : Nat) (f : NetPort → NetPort) : (c.modPort p f).arrays = c.arrays := rfl
@[simp] theorem Chip.modPort_volumes (p : Nat) (f : NetPort → NetPort) : (c.modPort p f).volumes = c.volumes := rfl
@[simp] theorem Chip.modPort_members (p : Nat) (f : NetPort → NetPort) : (c.modPort p f).members = c.members := rfl
@[simp] theorem Chip.modPort_trust (p : Nat) (f : NetPort → NetPort) : (c.modPort p f).trust = c.trust := rfl
@[simp] theorem Chip.modPort_cache (p : Nat) (f : NetPort → NetPort) : (c.modPort p f).cache = c.cache := rfl
@[simp] theorem Chip.modPort_vault (p : Nat) (f : NetPort → NetPort) : (c.modPort p f).vault = c.vault := rfl
@[simp] theorem Chip.modPort_par (p : Nat) (f : NetPort → NetPort) : (c.modPort p f).par = c.par := rfl
@[simp] theorem Chip.modPort_streams (p : Nat) (f : NetPort → NetPort) : (c.modPort p f).streams = c.streams := rfl
@[simp] theorem Chip.modPort_meters (p : Nat) (f : NetPort → NetPort) : (c.modPort p f).meters = c.meters := rfl
@[simp] theorem Chip.modPort_wins (p : Nat) (f : NetPort → NetPort) : (c.modPort p f).wins = c.wins := rfl
@[simp] theorem Chip.modPort_held (p : Nat) (f : NetPort → NetPort) : (c.modPort p f).held = c.held := rfl
@[simp] theorem Chip.modPort_rma (p : Nat) (f : NetPort → NetPort) : (c.modPort p f).rma = c.rma := rfl
@[simp] theorem Chip.modPort_cfl (p : Nat) (f : NetPort → NetPort) : (c.modPort p f).cfl = c.cfl := rfl
@[simp] theorem Chip.modPort_sec (p : Nat) (f : NetPort → NetPort) : (c.modPort p f).sec = c.sec := rfl
@[simp] theorem Chip.modPort_pwr (p : Nat) (f : NetPort → NetPort) : (c.modPort p f).pwr = c.pwr := rfl
@[simp] theorem Chip.modPort_aon (p : Nat) (f : NetPort → NetPort) : (c.modPort p f).aon = c.aon := rfl
@[simp] theorem Chip.modPort_out (p : Nat) (f : NetPort → NetPort) : (c.modPort p f).out = c.out := rfl
@[simp] theorem Chip.modPort_free (p : Nat) (f : NetPort → NetPort) : (c.modPort p f).free = c.free := rfl

@[simp] theorem Chip.modPar_blocks (f : Par → Par) : (c.modPar f).blocks = c.blocks := rfl
@[simp] theorem Chip.modPar_group (f : Par → Par) : (c.modPar f).group = c.group := rfl
@[simp] theorem Chip.modPar_tmb (f : Par → Par) : (c.modPar f).tmb = c.tmb := rfl
@[simp] theorem Chip.modPar_admNext (f : Par → Par) : (c.modPar f).admNext = c.admNext := rfl
@[simp] theorem Chip.modPar_funcs (f : Par → Par) : (c.modPar f).funcs = c.funcs := rfl
@[simp] theorem Chip.modPar_raised (f : Par → Par) : (c.modPar f).raised = c.raised := rfl
@[simp] theorem Chip.modPar_pulses (f : Par → Par) : (c.modPar f).pulses = c.pulses := rfl
@[simp] theorem Chip.modPar_pools (f : Par → Par) : (c.modPar f).pools = c.pools := rfl
@[simp] theorem Chip.modPar_evr (f : Par → Par) : (c.modPar f).evr = c.evr := rfl
@[simp] theorem Chip.modPar_snp (f : Par → Par) : (c.modPar f).snp = c.snp := rfl
@[simp] theorem Chip.modPar_grd (f : Par → Par) : (c.modPar f).grd = c.grd := rfl
@[simp] theorem Chip.modPar_age (f : Par → Par) : (c.modPar f).age = c.age := rfl
@[simp] theorem Chip.modPar_engines (f : Par → Par) : (c.modPar f).engines = c.engines := rfl
@[simp] theorem Chip.modPar_channels (f : Par → Par) : (c.modPar f).channels = c.channels := rfl
@[simp] theorem Chip.modPar_nextHandle (f : Par → Par) : (c.modPar f).nextHandle = c.nextHandle := rfl
@[simp] theorem Chip.modPar_stg (f : Par → Par) : (c.modPar f).stg = c.stg := rfl
@[simp] theorem Chip.modPar_hbm (f : Par → Par) : (c.modPar f).hbm = c.hbm := rfl
@[simp] theorem Chip.modPar_pkt (f : Par → Par) : (c.modPar f).pkt = c.pkt := rfl
@[simp] theorem Chip.modPar_arrays (f : Par → Par) : (c.modPar f).arrays = c.arrays := rfl
@[simp] theorem Chip.modPar_volumes (f : Par → Par) : (c.modPar f).volumes = c.volumes := rfl
@[simp] theorem Chip.modPar_members (f : Par → Par) : (c.modPar f).members = c.members := rfl
@[simp] theorem Chip.modPar_trust (f : Par → Par) : (c.modPar f).trust = c.trust := rfl
@[simp] theorem Chip.modPar_cache (f : Par → Par) : (c.modPar f).cache = c.cache := rfl
@[simp] theorem Chip.modPar_vault (f : Par → Par) : (c.modPar f).vault = c.vault := rfl
@[simp] theorem Chip.modPar_ports (f : Par → Par) : (c.modPar f).ports = c.ports := rfl
@[simp] theorem Chip.modPar_streams (f : Par → Par) : (c.modPar f).streams = c.streams := rfl
@[simp] theorem Chip.modPar_meters (f : Par → Par) : (c.modPar f).meters = c.meters := rfl
@[simp] theorem Chip.modPar_wins (f : Par → Par) : (c.modPar f).wins = c.wins := rfl
@[simp] theorem Chip.modPar_held (f : Par → Par) : (c.modPar f).held = c.held := rfl
@[simp] theorem Chip.modPar_rma (f : Par → Par) : (c.modPar f).rma = c.rma := rfl
@[simp] theorem Chip.modPar_cfl (f : Par → Par) : (c.modPar f).cfl = c.cfl := rfl
@[simp] theorem Chip.modPar_sec (f : Par → Par) : (c.modPar f).sec = c.sec := rfl
@[simp] theorem Chip.modPar_pwr (f : Par → Par) : (c.modPar f).pwr = c.pwr := rfl
@[simp] theorem Chip.modPar_aon (f : Par → Par) : (c.modPar f).aon = c.aon := rfl
@[simp] theorem Chip.modPar_out (f : Par → Par) : (c.modPar f).out = c.out := rfl
@[simp] theorem Chip.modPar_free (f : Par → Par) : (c.modPar f).free = c.free := rfl

@[simp] theorem Chip.request_blocks (m : Nat) : (c.request m).blocks = c.blocks := rfl
@[simp] theorem Chip.request_group (m : Nat) : (c.request m).group = c.group := rfl
@[simp] theorem Chip.request_tmb (m : Nat) : (c.request m).tmb = c.tmb := rfl
@[simp] theorem Chip.request_admNext (m : Nat) : (c.request m).admNext = c.admNext := rfl
@[simp] theorem Chip.request_funcs (m : Nat) : (c.request m).funcs = c.funcs := rfl
@[simp] theorem Chip.request_raised (m : Nat) : (c.request m).raised = c.raised := rfl
@[simp] theorem Chip.request_pulses (m : Nat) : (c.request m).pulses = c.pulses := rfl
@[simp] theorem Chip.request_pools (m : Nat) : (c.request m).pools = c.pools := rfl
@[simp] theorem Chip.request_evr (m : Nat) : (c.request m).evr = c.evr := rfl
@[simp] theorem Chip.request_snp (m : Nat) : (c.request m).snp = c.snp := rfl
@[simp] theorem Chip.request_grd (m : Nat) : (c.request m).grd = c.grd := rfl
@[simp] theorem Chip.request_age (m : Nat) : (c.request m).age = c.age := rfl
@[simp] theorem Chip.request_engines (m : Nat) : (c.request m).engines = c.engines := rfl
@[simp] theorem Chip.request_channels (m : Nat) : (c.request m).channels = c.channels := rfl
@[simp] theorem Chip.request_nextHandle (m : Nat) : (c.request m).nextHandle = c.nextHandle := rfl
@[simp] theorem Chip.request_stg (m : Nat) : (c.request m).stg = c.stg := rfl
@[simp] theorem Chip.request_hbm (m : Nat) : (c.request m).hbm = c.hbm := rfl
@[simp] theorem Chip.request_pkt (m : Nat) : (c.request m).pkt = c.pkt := rfl
@[simp] theorem Chip.request_arrays (m : Nat) : (c.request m).arrays = c.arrays := rfl
@[simp] theorem Chip.request_volumes (m : Nat) : (c.request m).volumes = c.volumes := rfl
@[simp] theorem Chip.request_members (m : Nat) : (c.request m).members = c.members := rfl
@[simp] theorem Chip.request_trust (m : Nat) : (c.request m).trust = c.trust := rfl
@[simp] theorem Chip.request_cache (m : Nat) : (c.request m).cache = c.cache := rfl
@[simp] theorem Chip.request_vault (m : Nat) : (c.request m).vault = c.vault := rfl
@[simp] theorem Chip.request_par (m : Nat) : (c.request m).par = c.par := rfl
@[simp] theorem Chip.request_ports (m : Nat) : (c.request m).ports = c.ports := rfl
@[simp] theorem Chip.request_streams (m : Nat) : (c.request m).streams = c.streams := rfl
@[simp] theorem Chip.request_meters (m : Nat) : (c.request m).meters = c.meters := rfl
@[simp] theorem Chip.request_wins (m : Nat) : (c.request m).wins = c.wins := rfl
@[simp] theorem Chip.request_held (m : Nat) : (c.request m).held = c.held := rfl
@[simp] theorem Chip.request_rma (m : Nat) : (c.request m).rma = c.rma := rfl
@[simp] theorem Chip.request_cfl (m : Nat) : (c.request m).cfl = c.cfl := rfl
@[simp] theorem Chip.request_sec (m : Nat) : (c.request m).sec = c.sec := rfl
@[simp] theorem Chip.request_aon (m : Nat) : (c.request m).aon = c.aon := rfl
@[simp] theorem Chip.request_out (m : Nat) : (c.request m).out = c.out := rfl
@[simp] theorem Chip.request_free (m : Nat) : (c.request m).free = c.free := rfl

@[simp] theorem Chip.blk_setBlk_self (r : Nat) (x : Block) : (c.setBlk r x).blk r = x := tget_put_self _ _ _ _
theorem Chip.blk_setBlk_ne {r j : Nat} (x : Block) (h : j ≠ r) : (c.setBlk r x).blk j = c.blk j := tget_put_ne _ _ _ h
@[simp] theorem Chip.blk_modBlk_self (r : Nat) (f : Block → Block) : (c.modBlk r f).blk r = f (c.blk r) := tget_put_self _ _ _ _
theorem Chip.blk_modBlk_ne {r j : Nat} (f : Block → Block) (h : j ≠ r) : (c.modBlk r f).blk j = c.blk j := tget_put_ne _ _ _ h
@[simp] theorem Chip.setBlk_setBlk (r : Nat) (x y : Block) : (c.setBlk r x).setBlk r y = c.setBlk r y := by simp [Chip.setBlk]

@[simp] theorem Chip.fn_setFn_self (f : Nat) (x : Func) : (c.setFn f x).fn f = x := tget_put_self _ _ _ _
theorem Chip.fn_setFn_ne {f j : Nat} (x : Func) (h : j ≠ f) : (c.setFn f x).fn j = c.fn j := tget_put_ne _ _ _ h
@[simp] theorem Chip.fn_modFn_self (f : Nat) (g : Func → Func) : (c.modFn f g).fn f = g (c.fn f) := tget_put_self _ _ _ _
theorem Chip.fn_modFn_ne {f j : Nat} (g : Func → Func) (h : j ≠ f) : (c.modFn f g).fn j = c.fn j := tget_put_ne _ _ _ h
@[simp] theorem Chip.setFn_setFn (f : Nat) (x y : Func) : (c.setFn f x).setFn f y = c.setFn f y := by simp [Chip.setFn]

@[simp] theorem Chip.eng_setEng_self (e : Nat) (x : Engine) : (c.setEng e x).eng e = x := tget_put_self _ _ _ _
theorem Chip.eng_setEng_ne {e j : Nat} (x : Engine) (h : j ≠ e) : (c.setEng e x).eng j = c.eng j := tget_put_ne _ _ _ h
@[simp] theorem Chip.eng_modEng_self (e : Nat) (f : Engine → Engine) : (c.modEng e f).eng e = f (c.eng e) := tget_put_self _ _ _ _
theorem Chip.eng_modEng_ne {e j : Nat} (f : Engine → Engine) (h : j ≠ e) : (c.modEng e f).eng j = c.eng j := tget_put_ne _ _ _ h
@[simp] theorem Chip.setEng_setEng (e : Nat) (x y : Engine) : (c.setEng e x).setEng e y = c.setEng e y := by simp [Chip.setEng]

@[simp] theorem Chip.chan_setChan_self (n : Nat) (x : Channel) : (c.setChan n x).chan n = x := tget_put_self _ _ _ _
theorem Chip.chan_setChan_ne {n j : Nat} (x : Channel) (h : j ≠ n) : (c.setChan n x).chan j = c.chan j := tget_put_ne _ _ _ h
@[simp] theorem Chip.chan_modChan_self (n : Nat) (f : Channel → Channel) : (c.modChan n f).chan n = f (c.chan n) := tget_put_self _ _ _ _
theorem Chip.chan_modChan_ne {n j : Nat} (f : Channel → Channel) (h : j ≠ n) : (c.modChan n f).chan j = c.chan j := tget_put_ne _ _ _ h
@[simp] theorem Chip.setChan_setChan (n : Nat) (x y : Channel) : (c.setChan n x).setChan n y = c.setChan n y := by simp [Chip.setChan]

@[simp] theorem Chip.arr_setArr_self (a : Nat) (x : RaidArray) : (c.setArr a x).arr a = x := tget_put_self _ _ _ _
theorem Chip.arr_setArr_ne {a j : Nat} (x : RaidArray) (h : j ≠ a) : (c.setArr a x).arr j = c.arr j := tget_put_ne _ _ _ h
@[simp] theorem Chip.arr_modArr_self (a : Nat) (f : RaidArray → RaidArray) : (c.modArr a f).arr a = f (c.arr a) := tget_put_self _ _ _ _
theorem Chip.arr_modArr_ne {a j : Nat} (f : RaidArray → RaidArray) (h : j ≠ a) : (c.modArr a f).arr j = c.arr j := tget_put_ne _ _ _ h
@[simp] theorem Chip.setArr_setArr (a : Nat) (x y : RaidArray) : (c.setArr a x).setArr a y = c.setArr a y := by simp [Chip.setArr]

@[simp] theorem Chip.vol_setVol_self (v : Nat) (x : Volume) : (c.setVol v x).vol v = x := tget_put_self _ _ _ _
theorem Chip.vol_setVol_ne {v j : Nat} (x : Volume) (h : j ≠ v) : (c.setVol v x).vol j = c.vol j := tget_put_ne _ _ _ h
@[simp] theorem Chip.vol_modVol_self (v : Nat) (f : Volume → Volume) : (c.modVol v f).vol v = f (c.vol v) := tget_put_self _ _ _ _
theorem Chip.vol_modVol_ne {v j : Nat} (f : Volume → Volume) (h : j ≠ v) : (c.modVol v f).vol j = c.vol j := tget_put_ne _ _ _ h
@[simp] theorem Chip.setVol_setVol (v : Nat) (x y : Volume) : (c.setVol v x).setVol v y = c.setVol v y := by simp [Chip.setVol]

@[simp] theorem Chip.mbr_setMbr_self (m : Nat) (x : Member) : (c.setMbr m x).mbr m = x := tget_put_self _ _ _ _
theorem Chip.mbr_setMbr_ne {m j : Nat} (x : Member) (h : j ≠ m) : (c.setMbr m x).mbr j = c.mbr j := tget_put_ne _ _ _ h
@[simp] theorem Chip.mbr_modMbr_self (m : Nat) (f : Member → Member) : (c.modMbr m f).mbr m = f (c.mbr m) := tget_put_self _ _ _ _
theorem Chip.mbr_modMbr_ne {m j : Nat} (f : Member → Member) (h : j ≠ m) : (c.modMbr m f).mbr j = c.mbr j := tget_put_ne _ _ _ h
@[simp] theorem Chip.setMbr_setMbr (m : Nat) (x y : Member) : (c.setMbr m x).setMbr m y = c.setMbr m y := by simp [Chip.setMbr]

@[simp] theorem Chip.port_setPort_self (p : Nat) (x : NetPort) : (c.setPort p x).port p = x := tget_put_self _ _ _ _
theorem Chip.port_setPort_ne {p j : Nat} (x : NetPort) (h : j ≠ p) : (c.setPort p x).port j = c.port j := tget_put_ne _ _ _ h
@[simp] theorem Chip.port_modPort_self (p : Nat) (f : NetPort → NetPort) : (c.modPort p f).port p = f (c.port p) := tget_put_self _ _ _ _
theorem Chip.port_modPort_ne {p j : Nat} (f : NetPort → NetPort) (h : j ≠ p) : (c.modPort p f).port j = c.port j := tget_put_ne _ _ _ h
@[simp] theorem Chip.setPort_setPort (p : Nat) (x y : NetPort) : (c.setPort p x).setPort p y = c.setPort p y := by simp [Chip.setPort]

end Sys2Proof.Machine
end

