-- ==== Sys2Proof/Laws/Lanibex.lean ====
section
/-! SUPPORT. What an instruction does that stands at the PC of an engine that executes: its own effect, with the anchored run closed. -/

namespace Sys2Proof.Machine

@[simp] theorem State.put_chip (s : State) (c : Chip) : (s.put c).chip = c := rfl
@[simp] theorem State.put_pending (s : State) (c : Chip) : (s.put c).pending = s.pending := rfl

/-- An engine that executes has its clock. -/
theorem Chip.executes_clocked {c : Chip} {e : Eng} (h : c.executes e = true) : c.clocked = true := by
  simp only [Chip.executes, Bool.and_eq_true] at h
  exact h.1.2

/-- Issue at a ready instruction: the instruction's own effect on the machine, with the anchored run closed unless the instruction keeps one open; a fault where
the effect is one. -/
theorem Chip.issue_ready {c : Chip} {e : Eng} {r : Run} {i : Instr} (h : c.ready e r i) (f : Run → Chip → Lx) :
    c.issue e i f =
      match f r (if anchorable i then c else c.modEng e fun x => { x with anchor := none }) with
      | .ok c => c
      | .error (code, soft) =>
        (if anchorable i then c else c.modEng e fun x => { x with anchor := none }).engineFault e code soft
          (match encodeLx i with | some w => w.toNat | none => 0) := by
  obtain ⟨h1, h2, h3, h4, h5, h6⟩ := h
  simp only [Chip.issue, h1, h2, h3, h5, h6, Nat.not_le.mpr h4, Bool.not_true, Bool.false_eq_true, if_false] <;> rfl

/-- A ready instruction that only changes its engine's registers retires. -/
theorem Chip.issueReg_ready {s : State} {e : Eng} {r : Run} {i : Instr} (h : s.chip.ready e r i) (ha : anchorable i = false) (f : Engine → Engine) :
    onChip (fun c => c.issueReg e i f) s = .next (s.retire e f) := by
  unfold onChip
  rw [Chip.executes_clocked h.2.1]
  simp only [if_true, Chip.issueReg]
  rw [Chip.issue_ready h]
  simp [ha, Chip.modEng, Chip.setEng, State.retire, State.put, Chip.eng]

/-- The anchored run that issue closes makes no difference to a fault, which closes it too. -/
theorem Chip.engineFault_anchor (c : Chip) (e code soft word : Nat) :
    (c.modEng e fun x => { x with anchor := none }).engineFault e code soft word = c.engineFault e code soft word := by
  simp [Chip.engineFault, Chip.modEng, Chip.setEng, Chip.eng]

/-- A ready instruction whose own checks fail faults (R225, R227). -/
theorem Chip.issue_fault {s : State} {e : Eng} {r : Run} {i : Instr} (h : s.chip.ready e r i) (f : Run → Chip → Lx) (code soft : Nat)
    (hf : f r (if anchorable i then s.chip else s.chip.modEng e fun x => { x with anchor := none }) = .error (code, soft)) :
    onChip (fun c => c.issue e i f) s = .next (s.faults e i code soft) := by
  unfold onChip
  rw [Chip.executes_clocked h.2.1]
  simp only [if_true]
  rw [Chip.issue_ready h, hf]
  simp only [State.faults, State.put]
  split
  · rfl
  · rw [Chip.engineFault_anchor] <;> rfl

/-- A ready instruction that closes the anchored run and changes the machine. -/
theorem Chip.issue_ok {s : State} {e : Eng} {r : Run} {i : Instr} (h : s.chip.ready e r i) (ha : anchorable i = false) (f : Run → Chip → Lx) (c : Chip)
    (hf : f r (s.chip.setEng e { s.chip.eng e with anchor := none }) = .ok c) :
    onChip (fun c => c.issue e i f) s = .next (s.put c) := by
  unfold onChip
  rw [Chip.executes_clocked h.2.1]
  simp only [if_true]
  rw [Chip.issue_ready h, ha]
  simp only [Bool.false_eq_true, if_false, Chip.modEng, hf, State.put]

end Sys2Proof.Machine
end

