-- ==== Sys2Proof/Laws/Ops.lean ====
section
/-! SUPPORT. For each shared operation one lemma that says once everything it can do: how a command reaches the machine, the step, the places of the admission
order, records, events, entries' commands, and writes to HBM. -/

namespace Sys2Proof.Machine

/-! ## How a command reaches the machine -/

/-- A command of the clocked unit: its operation while the clocks run, nothing otherwise. -/
theorem onChip_eq (h : Chip → Chip) (s : State) : onChip h s = .next (s.put (if s.chip.clocked then h s.chip else s.chip)) := rfl

theorem onChip_clocked (h : Chip → Chip) {s : State} (k : s.chip.clocked = true) : onChip h s = .next (s.put (h s.chip)) := by
  rw [onChip_eq, k, if_pos rfl]

theorem onChip_stopped (h : Chip → Chip) {s : State} (k : s.chip.clocked = false) : onChip h s = .next s := by
  rw [onChip_eq, k]; rfl

/-- A command of the always-on domain, in every power state. -/
theorem onAon_eq (h : Chip → Chip) (s : State) : onAon h s = .next (s.put (h s.chip)) := rfl

/-- A register write: its operation while the clocks run and where its writer reaches the register space, nothing otherwise (R57). -/
theorem onWrite_cases (w : Who) (h : Chip → Chip) (s : State) :
    (s.chip.clocked = true ∧ Who.mayWrite w s.chip = true ∧ onWrite w h s = .next (s.put (h s.chip))) ∨
      ((s.chip.clocked = false ∨ Who.mayWrite w s.chip = false) ∧ onWrite w h s = .next s) := by
  cases k : s.chip.clocked with
  | false => exact .inr ⟨.inl rfl, onChip_stopped _ k⟩
  | true =>
    have e : onWrite w h s = .next (s.put (s.chip.asked w h)) := onChip_clocked _ k
    cases m : Who.mayWrite w s.chip with
    | false => exact .inr ⟨.inr rfl, by rw [e, Chip.asked, m]; rfl⟩
    | true => exact .inl ⟨rfl, rfl, by rw [e, Chip.asked, m]; rfl⟩

/-- A step takes the command at the front of the queue, or lets a tick pass. -/
theorem step_cases {s : State} : (s.pending = [] ∧ step s = .next (s.put (tickOp s.chip))) ∨
    ∃ i r, s.pending = i :: r ∧ step s = exec i { s with pending := r } := by
  rcases s with ⟨c, _ | ⟨i, r⟩⟩
  · exact .inl ⟨rfl, rfl⟩
  · exact .inr ⟨i, r, rfl, rfl⟩

/-! ## Places, records and events -/

/-- An admission takes the next place of the block granted to a unit without the token, or of the unit's own order; nothing but the order changes (R30, R687). -/
theorem Chip.takeSeq_cases (c : Chip) :
    (((c.par.role = .standby ∨ c.par.role = .fenced) ∧ 0 < c.par.blockLeft) ∧ c.takeSeq = (c.par.blockNext,
      { c with par := { c.par with blockNext := (c.par.blockNext + 1) % 2 ^ 48, blockLeft := c.par.blockLeft - 1, lastTaken := c.par.blockNext } })) ∨
    (¬ ((c.par.role = .standby ∨ c.par.role = .fenced) ∧ 0 < c.par.blockLeft) ∧
      c.takeSeq = (c.admNext, { c with admNext := (c.admNext + 1) % 2 ^ 48, par := { c.par with lastTaken := c.admNext } })) := by
  by_cases h : (c.par.role = .standby ∨ c.par.role = .fenced) ∧ 0 < c.par.blockLeft
  · exact .inl ⟨h, by rw [Chip.takeSeq, if_pos h]⟩
  · exact .inr ⟨h, by rw [Chip.takeSeq, if_neg h]⟩

/-- A happening changes the recorder alone (R758). -/
theorem Chip.record_evr (c : Chip) (kind blk code a b : Nat) : ∃ e, c.record kind blk code a b = { c with evr := e } := by
  unfold Chip.record
  split
  · exact ⟨_, rfl⟩
  · exact ⟨c.evr, rfl⟩

/-- A frozen recorder, or a full one that stops when full, counts the record as dropped and keeps its ring (R758–R767). -/
theorem Evr.store_dropped (e : Evr) (stopFull : Bool) (x : EvrRec) (h : e.frozen = true ∨ (stopFull = true ∧ e.wrapped = true)) :
    e.store stopFull x = { e with dropped := satAdd 32 e.dropped 1 } := if_pos h

/-- Otherwise the record takes the next place of the ring (R758). -/
theorem Evr.store_ring (e : Evr) (stopFull : Bool) (x : EvrRec) (h : ¬ (e.frozen = true ∨ (stopFull = true ∧ e.wrapped = true))) :
    (e.store stopFull x).ring = tput e.ring {} e.next { x with rseq := e.rseq } ∧ (e.store stopFull x).next = (e.next + 1) % 65536 ∧
      (e.store stopFull x).rseq = (e.rseq + 1) % 2 ^ 32 ∧ (e.store stopFull x).dropped = e.dropped := by
  unfold Evr.store
  rw [if_neg h]
  cases p : e.post with
  | none => exact ⟨rfl, rfl, rfl, rfl⟩
  | some n =>
    by_cases k : n ≤ 1
    · simp [k]
    · simp [k]

/-- An event on its way: it waits among the raised ones, and pool 5 grants a unit for each function it reaches (R320). -/
theorem Chip.raiseTo_eq (c : Chip) (ev : Ev) (fs : List Nat) :
    c.raiseTo ev fs = { c with
      pools := tput c.pools {} 5 { c.pool 5 with granted := (c.pool 5).granted + fs.length, inFlight := (c.pool 5).inFlight + fs.length }
      raised := c.raised ++ [{ ev := ev, targets := fs }] } := rfl

/-- An event that is not raised inside an admission takes a place of its own (R32). -/
theorem Chip.happen_eq (c : Chip) (type info data : Nat) :
    c.happen type info data = c.takeSeq.2.raise { type := type, info := info, data := data % 2 ^ 32, seq := c.takeSeq.1 } := rfl

/-! ## Entries -/

/-- An operation on an admitted entry runs where the entry stands in its slot with the opcode and neither runs nor has ended; otherwise nothing happens. -/
theorem Chip.onEntry_cases (c : Chip) (f g ix op : Nat) (h : Adm → Chip → Chip) :
    (∃ a, c.adm f g ix = some a ∧ a.status = none ∧ a.begun = false ∧ eOpcode a.entry = op ∧ c.onEntry f g ix op h = h a c) ∨
      c.onEntry f g ix op h = c := by
  unfold Chip.onEntry
  cases c.adm f g ix with
  | none => exact .inr rfl
  | some a =>
    by_cases k : (a.status.isNone && !a.begun && eOpcode a.entry == op) = true
    · left
      simp only [k, if_true]
      simp only [Bool.and_eq_true, Option.isNone_iff_eq_none, Bool.not_eq_true', beq_iff_eq] at k
      exact ⟨a, rfl, k.1.1, k.1.2, k.2, rfl⟩
    · exact .inr (if_neg k)

/-! ## HBM -/

/-- A write to HBM puts its bytes, and changes nothing else but the audit counters of pool 2 (R34–R41, R426). -/
theorem Chip.hbmWrite_eq (c : Chip) (a : Nat) (l : List Byte) :
    ∃ p, c.hbmWrite a l = { c with hbm := mwrite hbmInit c.hbm a l, pools := p } := by
  have fold : ∀ (ps : List Nat) (f : Chip → Nat → Chip), (∀ s n, ∃ p, f s n = { s with pools := p }) → ∀ s : Chip,
      ∃ p, ps.foldl f s = { s with pools := p } := by
    intro ps f hf
    induction ps with
    | nil => exact fun s => ⟨s.pools, rfl⟩
    | cons n r ih =>
      intro s
      obtain ⟨p, e⟩ := hf s n
      obtain ⟨q, e'⟩ := ih (f s n)
      exact ⟨q, by rw [List.foldl_cons, e', e]⟩
  unfold Chip.hbmWrite
  refine fold _ _ (fun s n => ?_) _
  dsimp only
  split
  · exact ⟨_, rfl⟩
  · split
    · exact ⟨_, rfl⟩
    · exact ⟨s.pools, rfl⟩

/-- A byte of HBM outside the bytes written reads as before. -/
theorem Chip.hbmWrite_out (c : Chip) (a : Nat) (l : List Byte) {x : Nat} (h : x < a ∨ a + l.length ≤ x) :
    mget hbmInit (c.hbmWrite a l).hbm x = mget hbmInit c.hbm x := by
  obtain ⟨p, e⟩ := c.hbmWrite_eq a l
  rw [e]; exact mget_write_out hbmInit l c.hbm a x h

/-- A write to HBM keeps its canonical form. -/
theorem Chip.hbmWrite_wf (c : Chip) (a : Nat) (l : List Byte) (h : Memory.wf hbmInit c.hbm = true) : Memory.wf hbmInit (c.hbmWrite a l).hbm = true := by
  obtain ⟨p, e⟩ := c.hbmWrite_eq a l
  rw [e]; exact memory_wf_write hbmInit l c.hbm a h

/-- A write to code flash keeps its canonical form, and leaves every other byte. -/
theorem Chip.flashWrite_wf (c : Chip) (a : Nat) (l : List Byte) (h : Memory.wf flashInit c.cfl.flash = true) :
    Memory.wf flashInit (c.flashWrite a l).cfl.flash = true := memory_wf_write flashInit l c.cfl.flash a h

theorem Chip.flashWrite_out (c : Chip) (a : Nat) (l : List Byte) {x : Nat} (h : x < a ∨ a + l.length ≤ x) :
    mget flashInit (c.flashWrite a l).cfl.flash x = mget flashInit c.cfl.flash x := mget_write_out flashInit l c.cfl.flash a x h

end Sys2Proof.Machine
end

