-- ==== Sys2Proof/Laws/PerInstr.lean ====
section
/-! SUPPORT. Statements that are made of every command, one lemma for each constructor. -/

namespace Sys2Proof.Laws

/-- Only a Lanibex word can be ill-formed: a command that has no word passes every check of its fields (R153, R154). -/
def Wf.Statement (i : Instr) : Prop := encodeLx i = none → i.wf = true

/-- A command with a word. -/
theorem Wf.of_word {i : Instr} {w : W32} (h : encodeLx i = some w) : Wf.Statement i := fun n => by simp [h] at n

theorem Wf.registerWrite (a : Access) : Wf.Statement (.registerWrite a) := fun _ => rfl
theorem Wf.rwsWrite (a : Access) : Wf.Statement (.rwsWrite a) := fun _ => rfl
theorem Wf.lowerHalfWrite (a : Access) : Wf.Statement (.lowerHalfWrite a) := fun _ => rfl
theorem Wf.upperHalfWrite (a : Access) : Wf.Statement (.upperHalfWrite a) := fun _ => rfl
theorem Wf.nowLowerRead (w : Who) (pps : Bool) : Wf.Statement (.nowLowerRead w pps) := fun _ => rfl
theorem Wf.go (w : Who) (r : Rec) (useKey : Bool) (key : BitVec 16) : Wf.Statement (.go w r useKey key) := fun _ => rfl
theorem Wf.discard (w : Who) (r : Rec) : Wf.Statement (.discard w r) := fun _ => rfl
theorem Wf.commitChecksDone (r : Rec) : Wf.Statement (.commitChecksDone r) := fun _ => rfl
theorem Wf.setApply (r : Rec) : Wf.Statement (.setApply r) := fun _ => rfl
theorem Wf.groupCommitGo (w : Who) : Wf.Statement (.groupCommitGo w) := fun _ => rfl
theorem Wf.groupCommitApply : Wf.Statement .groupCommitApply := fun _ => rfl
theorem Wf.clampLogClear (w : Who) (r : Rec) : Wf.Statement (.clampLogClear w r) := fun _ => rfl
theorem Wf.syncReceive (p : Port) (offset : Int) : Wf.Statement (.syncReceive p offset) := fun _ => rfl
theorem Wf.ppsInEdge : Wf.Statement .ppsInEdge := fun _ => rfl
theorem Wf.freeMeasurement : Wf.Statement .freeMeasurement := fun _ => rfl
theorem Wf.sourceLost : Wf.Statement .sourceLost := fun _ => rfl
theorem Wf.timeReepoch (w : Who) : Wf.Statement (.timeReepoch w) := fun _ => rfl
theorem Wf.ppsOutRise : Wf.Statement .ppsOutRise := fun _ => rfl
theorem Wf.ppsOutFall : Wf.Statement .ppsOutFall := fun _ => rfl
theorem Wf.ptpMessageSend (p : Port) : Wf.Statement (.ptpMessageSend p) := fun _ => rfl
theorem Wf.wholeSecond : Wf.Statement .wholeSecond := fun _ => rfl
theorem Wf.add (e : Eng) (d a b : BitVec 5) : Wf.Statement (.add e d a b) := Wf.of_word rfl
theorem Wf.sub (e : Eng) (d a b : BitVec 5) : Wf.Statement (.sub e d a b) := Wf.of_word rfl
theorem Wf.and (e : Eng) (d a b : BitVec 5) : Wf.Statement (.and e d a b) := Wf.of_word rfl
theorem Wf.or (e : Eng) (d a b : BitVec 5) : Wf.Statement (.or e d a b) := Wf.of_word rfl
theorem Wf.xor (e : Eng) (d a b : BitVec 5) : Wf.Statement (.xor e d a b) := Wf.of_word rfl
theorem Wf.shl (e : Eng) (d a b : BitVec 5) : Wf.Statement (.shl e d a b) := Wf.of_word rfl
theorem Wf.shr (e : Eng) (d a b : BitVec 5) : Wf.Statement (.shr e d a b) := Wf.of_word rfl
theorem Wf.sar (e : Eng) (d a b : BitVec 5) : Wf.Statement (.sar e d a b) := Wf.of_word rfl
theorem Wf.mul (e : Eng) (d a b : BitVec 5) : Wf.Statement (.mul e d a b) := Wf.of_word rfl
theorem Wf.mulhu (e : Eng) (d a b : BitVec 5) : Wf.Statement (.mulhu e d a b) := Wf.of_word rfl
theorem Wf.minu (e : Eng) (d a b : BitVec 5) : Wf.Statement (.minu e d a b) := Wf.of_word rfl
theorem Wf.maxu (e : Eng) (d a b : BitVec 5) : Wf.Statement (.maxu e d a b) := Wf.of_word rfl
theorem Wf.divu (e : Eng) (d a b : BitVec 5) : Wf.Statement (.divu e d a b) := Wf.of_word rfl
theorem Wf.remu (e : Eng) (d a b : BitVec 5) : Wf.Statement (.remu e d a b) := Wf.of_word rfl
theorem Wf.sel (e : Eng) (d a b : BitVec 5) (p : BitVec 3) : Wf.Statement (.sel e d a b p) := Wf.of_word rfl
theorem Wf.eq (e : Eng) (d a b : BitVec 5) : Wf.Statement (.eq e d a b) := Wf.of_word rfl
theorem Wf.ne (e : Eng) (d a b : BitVec 5) : Wf.Statement (.ne e d a b) := Wf.of_word rfl
theorem Wf.ltu (e : Eng) (d a b : BitVec 5) : Wf.Statement (.ltu e d a b) := Wf.of_word rfl
theorem Wf.lt (e : Eng) (d a b : BitVec 5) : Wf.Statement (.lt e d a b) := Wf.of_word rfl
theorem Wf.geu (e : Eng) (d a b : BitVec 5) : Wf.Statement (.geu e d a b) := Wf.of_word rfl
theorem Wf.ge (e : Eng) (d a b : BitVec 5) : Wf.Statement (.ge e d a b) := Wf.of_word rfl
theorem Wf.tlt (e : Eng) (d a b : BitVec 5) : Wf.Statement (.tlt e d a b) := Wf.of_word rfl
theorem Wf.pand (e : Eng) (d a b : BitVec 5) : Wf.Statement (.pand e d a b) := Wf.of_word rfl
theorem Wf.por (e : Eng) (d a b : BitVec 5) : Wf.Statement (.por e d a b) := Wf.of_word rfl
theorem Wf.pnot (e : Eng) (d a b : BitVec 5) : Wf.Statement (.pnot e d a b) := Wf.of_word rfl
theorem Wf.addi (e : Eng) (d a : BitVec 5) (imm : BitVec 16) : Wf.Statement (.addi e d a imm) := Wf.of_word rfl
theorem Wf.andi (e : Eng) (d a : BitVec 5) (imm : BitVec 16) : Wf.Statement (.andi e d a imm) := Wf.of_word rfl
theorem Wf.ori (e : Eng) (d a : BitVec 5) (imm : BitVec 16) : Wf.Statement (.ori e d a imm) := Wf.of_word rfl
theorem Wf.xori (e : Eng) (d a : BitVec 5) (imm : BitVec 16) : Wf.Statement (.xori e d a imm) := Wf.of_word rfl
theorem Wf.shli (e : Eng) (d a : BitVec 5) (imm : BitVec 16) : Wf.Statement (.shli e d a imm) := Wf.of_word rfl
theorem Wf.shri (e : Eng) (d a : BitVec 5) (imm : BitVec 16) : Wf.Statement (.shri e d a imm) := Wf.of_word rfl
theorem Wf.sari (e : Eng) (d a : BitVec 5) (imm : BitVec 16) : Wf.Statement (.sari e d a imm) := Wf.of_word rfl
theorem Wf.movi (e : Eng) (d a : BitVec 5) (imm : BitVec 16) : Wf.Statement (.movi e d a imm) := Wf.of_word rfl
theorem Wf.movk (e : Eng) (d a : BitVec 5) (imm : BitVec 16) : Wf.Statement (.movk e d a imm) := Wf.of_word rfl
theorem Wf.ld (e : Eng) (d a : BitVec 5) (sz : BitVec 2) (off : BitVec 14) : Wf.Statement (.ld e d a sz off) := Wf.of_word rfl
theorem Wf.st (e : Eng) (d a : BitVec 5) (sz : BitVec 2) (off : BitVec 14) : Wf.Statement (.st e d a sz off) := Wf.of_word rfl
theorem Wf.sload (e : Eng) (d a : BitVec 5) (sp : BitVec 2) (off : BitVec 14) : Wf.Statement (.sload e d a sp off) := Wf.of_word rfl
theorem Wf.sstore (e : Eng) (d a : BitVec 5) (sp : BitVec 2) (off : BitVec 14) : Wf.Statement (.sstore e d a sp off) := Wf.of_word rfl
theorem Wf.brp (e : Eng) (sense : Bool) (p : BitVec 3) (off : BitVec 16) : Wf.Statement (.brp e sense p off) := Wf.of_word rfl
theorem Wf.loop (e : Eng) (c : BitVec 5) (bound : BitVec 13) (len : BitVec 8) : Wf.Statement (.loop e c bound len) := Wf.of_word rfl
theorem Wf.pxor (e : Eng) (vd va vb : BitVec 4) (g : BitVec 5) : Wf.Statement (.pxor e vd va vb g) := Wf.of_word rfl
theorem Wf.vzero (e : Eng) (vd va vb : BitVec 4) (g : BitVec 5) : Wf.Statement (.vzero e vd va vb g) := Wf.of_word rfl
theorem Wf.vmov (e : Eng) (vd va vb : BitVec 4) (g : BitVec 5) : Wf.Statement (.vmov e vd va vb g) := Wf.of_word rfl
theorem Wf.gfmul (e : Eng) (vd va vb : BitVec 4) (g : BitVec 5) : Wf.Statement (.gfmul e vd va vb g) := Wf.of_word rfl
theorem Wf.gfmac (e : Eng) (vd va vb : BitVec 4) (g : BitVec 5) : Wf.Statement (.gfmac e vd va vb g) := Wf.of_word rfl
theorem Wf.synd (e : Eng) (vd va vb : BitVec 4) (g : BitVec 5) : Wf.Statement (.synd e vd va vb g) := Wf.of_word rfl
theorem Wf.vext (e : Eng) (vd va vb : BitVec 4) (g : BitVec 5) : Wf.Statement (.vext e vd va vb g) := Wf.of_word rfl
theorem Wf.vins (e : Eng) (vd va vb : BitVec 4) (g : BitVec 5) : Wf.Statement (.vins e vd va vb g) := Wf.of_word rfl
theorem Wf.vbcast (e : Eng) (vd va vb : BitVec 4) (g : BitVec 5) : Wf.Statement (.vbcast e vd va vb g) := Wf.of_word rfl
theorem Wf.gfmuls (e : Eng) (d a b : BitVec 5) : Wf.Statement (.gfmuls e d a b) := Wf.of_word rfl
theorem Wf.gfinv (e : Eng) (d a b : BitVec 5) : Wf.Statement (.gfinv e d a b) := Wf.of_word rfl
theorem Wf.gfexp (e : Eng) (d a b : BitVec 5) : Wf.Statement (.gfexp e d a b) := Wf.of_word rfl
theorem Wf.gflog (e : Eng) (d a b : BitVec 5) : Wf.Statement (.gflog e d a b) := Wf.of_word rfl
theorem Wf.syndb (e : Eng) (d a b c : BitVec 5) (mode : BitVec 2) (ssp dsp : Bool) : Wf.Statement (.syndb e d a b c mode ssp dsp) := Wf.of_word rfl
theorem Wf.shut (e : Eng) (d a b : BitVec 5) : Wf.Statement (.shut e d a b) := Wf.of_word rfl
theorem Wf.take (e : Eng) (d a b : BitVec 5) : Wf.Statement (.take e d a b) := Wf.of_word rfl
theorem Wf.jrnl (e : Eng) (d a b : BitVec 5) : Wf.Statement (.jrnl e d a b) := Wf.of_word rfl
theorem Wf.mirr (e : Eng) (d a b : BitVec 5) : Wf.Statement (.mirr e d a b) := Wf.of_word rfl
theorem Wf.land (e : Eng) (d a : BitVec 5) (lim : BitVec 13) : Wf.Statement (.land e d a lim) := Wf.of_word rfl
theorem Wf.landLimit (e : Se) : Wf.Statement (.landLimit e) := fun _ => rfl
theorem Wf.cmpl (e : Eng) (d a b : BitVec 5) : Wf.Statement (.cmpl e d a b) := Wf.of_word rfl
theorem Wf.waite (e : Eng) (d : BitVec 5) (line : BitVec 8) (lim : BitVec 13) : Wf.Statement (.waite e d line lim) := Wf.of_word rfl
theorem Wf.waiteLimit (e : Eng) : Wf.Statement (.waiteLimit e) := fun _ => rfl
theorem Wf.waitt (e : Eng) (d a : BitVec 5) (lim : BitVec 13) : Wf.Statement (.waitt e d a lim) := Wf.of_word rfl
theorem Wf.waittOnTime (e : Eng) : Wf.Statement (.waittOnTime e) := fun _ => rfl
theorem Wf.waittLimit (e : Eng) : Wf.Statement (.waittLimit e) := fun _ => rfl
theorem Wf.sig (e : Eng) (imm : BitVec 16) : Wf.Statement (.sig e imm) := Wf.of_word rfl
theorem Wf.snapt (e : Eng) (imm : BitVec 16) : Wf.Statement (.snapt e imm) := Wf.of_word rfl
theorem Wf.gate (e : Eng) (imm : BitVec 16) : Wf.Statement (.gate e imm) := Wf.of_word rfl
theorem Wf.hold (e : Eng) (imm : BitVec 16) : Wf.Statement (.hold e imm) := Wf.of_word rfl
theorem Wf.wake (e : Eng) (imm : BitVec 16) : Wf.Statement (.wake e imm) := Wf.of_word rfl
theorem Wf.pend (e : Eng) (d : BitVec 5) (line : BitVec 8) : Wf.Statement (.pend e d line) := Wf.of_word rfl
theorem Wf.clre (e : Eng) (d : BitVec 5) (line : BitVec 8) : Wf.Statement (.clre e d line) := Wf.of_word rfl
theorem Wf.rdt (e : Eng) (d a b : BitVec 5) : Wf.Statement (.rdt e d a b) := Wf.of_word rfl
theorem Wf.csrr (e : Eng) (d a b : BitVec 5) : Wf.Statement (.csrr e d a b) := Wf.of_word rfl
theorem Wf.endP (e : Eng) (imm : BitVec 16) : Wf.Statement (.endP e imm) := Wf.of_word rfl
theorem Wf.faultP (e : Eng) (imm : BitVec 16) : Wf.Statement (.faultP e imm) := Wf.of_word rfl
theorem Wf.nop (e : Eng) (imm : BitVec 16) : Wf.Statement (.nop e imm) := Wf.of_word rfl
theorem Wf.anchoredAction (e : Eng) (devNs : Nat) : Wf.Statement (.anchoredAction e devNs) := fun _ => rfl
theorem Wf.eventPulseArrive : Wf.Statement .eventPulseArrive := fun _ => rfl
theorem Wf.itemDispatch (e : Se) : Wf.Statement (.itemDispatch e) := fun _ => rfl
theorem Wf.wcetExceeded (e : Eng) : Wf.Statement (.wcetExceeded e) := fun _ => rfl
theorem Wf.ticketLocalComplete (e : Se) (t : BitVec 48) : Wf.Statement (.ticketLocalComplete e t) := fun _ => rfl
theorem Wf.progLoad (f : Fn) (ix : BitVec 16) : Wf.Statement (.progLoad f ix) := fun _ => rfl
theorem Wf.progUnload (f : Fn) (ix : BitVec 16) : Wf.Statement (.progUnload f ix) := fun _ => rfl
theorem Wf.ownerKeySet (f : Fn) (ix : BitVec 16) : Wf.Statement (.ownerKeySet f ix) := fun _ => rfl
theorem Wf.ownerKeyRevoke (f : Fn) (ix : BitVec 16) : Wf.Statement (.ownerKeyRevoke f ix) := fun _ => rfl
theorem Wf.oldImageRetire (e : Se) (k : Fin 8) : Wf.Statement (.oldImageRetire e k) := fun _ => rfl
theorem Wf.configRequest (port : Bool) : Wf.Statement (.configRequest port) := fun _ => rfl
theorem Wf.wqTail (f : Fn) (g : Grp) (value : W32) : Wf.Statement (.wqTail f g value) := fun _ => rfl
theorem Wf.wqInval (f : Fn) (g : Grp) (value : W32) : Wf.Statement (.wqInval f g value) := fun _ => rfl
theorem Wf.entryFetch (f : Fn) (g : Grp) (r : FetchResult) : Wf.Statement (.entryFetch f g r) := fun _ => rfl
theorem Wf.entryAdmit (f : Fn) (g : Grp) : Wf.Statement (.entryAdmit f g) := fun _ => rfl
theorem Wf.entryComplete (f : Fn) (g : Grp) : Wf.Statement (.entryComplete f g) := fun _ => rfl
theorem Wf.shadowWrite (f : Fn) (g : Grp) : Wf.Statement (.shadowWrite f g) := fun _ => rfl
theorem Wf.msixMessage (f : Fn) (vector : Fin 64) : Wf.Statement (.msixMessage f vector) := fun _ => rfl
theorem Wf.createIoq (f : Fn) (ix : BitVec 16) : Wf.Statement (.createIoq f ix) := fun _ => rfl
theorem Wf.deleteIoq (f : Fn) (ix : BitVec 16) : Wf.Statement (.deleteIoq f ix) := fun _ => rfl
theorem Wf.setEventRing (f : Fn) (ix : BitVec 16) : Wf.Statement (.setEventRing f ix) := fun _ => rfl
theorem Wf.adminQueueEnable (f : Fn) (value : W32) : Wf.Statement (.adminQueueEnable f value) := fun _ => rfl
theorem Wf.eventPost : Wf.Statement .eventPost := fun _ => rfl
theorem Wf.wqEvtHead (f : Fn) (value : W32) : Wf.Statement (.wqEvtHead f value) := fun _ => rfl
theorem Wf.functionLevelReset (f : Fn) : Wf.Statement (.functionLevelReset f) := fun _ => rfl
theorem Wf.flrComplete (f : Fn) : Wf.Statement (.flrComplete f) := fun _ => rfl
theorem Wf.abort (f : Fn) (ix : BitVec 16) : Wf.Statement (.abort f ix) := fun _ => rfl
theorem Wf.identify (f : Fn) (ix : BitVec 16) : Wf.Statement (.identify f ix) := fun _ => rfl
theorem Wf.getLog (f : Fn) (ix : BitVec 16) : Wf.Statement (.getLog f ix) := fun _ => rfl
theorem Wf.hostDataFetch (f : Fn) (g : Grp) (ix : BitVec 16) (r : DataResult) : Wf.Statement (.hostDataFetch f g ix r) := fun _ => rfl
theorem Wf.descriptorComplete (c : Chan) (hostData : List Byte) : Wf.Statement (.descriptorComplete c hostData) := fun _ => rfl
theorem Wf.pause (w : Who) (c : Chan) : Wf.Statement (.pause w c) := fun _ => rfl
theorem Wf.resume (w : Who) (c : Chan) : Wf.Statement (.resume w c) := fun _ => rfl
theorem Wf.stop (w : Who) (c : Chan) : Wf.Statement (.stop w c) := fun _ => rfl
theorem Wf.cut (w : Who) (c : Chan) : Wf.Statement (.cut w c) := fun _ => rfl
theorem Wf.clear (w : Who) (c : Chan) : Wf.Statement (.clear w c) := fun _ => rfl
theorem Wf.shuttleReadError (c : Chan) (cause : BitVec 3) (addr : W64) : Wf.Statement (.shuttleReadError c cause addr) := fun _ => rfl
theorem Wf.hostReadTimeout (c : Chan) (addr : W64) : Wf.Statement (.hostReadTimeout c addr) := fun _ => rfl
theorem Wf.read (f : Fn) (g : Grp) (ix : BitVec 16) : Wf.Statement (.read f g ix) := fun _ => rfl
theorem Wf.write (f : Fn) (g : Grp) (ix : BitVec 16) : Wf.Statement (.write f g ix) := fun _ => rfl
theorem Wf.stripe2Write (e : Se) (l : LandResult) : Wf.Statement (.stripe2Write e l) := fun _ => rfl
theorem Wf.stripe2Read (e : Se) : Wf.Statement (.stripe2Read e) := fun _ => rfl
theorem Wf.stripe2Destage (e : Se) (l : LandResult) : Wf.Statement (.stripe2Destage e l) := fun _ => rfl
theorem Wf.stripe2Reconstruct (e : Se) (l : LandResult) : Wf.Statement (.stripe2Reconstruct e l) := fun _ => rfl
theorem Wf.memberCommandComplete (m : Mbr) (e : Se) (c : MemberCmd) (r : MemberResult) : Wf.Statement (.memberCommandComplete m e c r) := fun _ => rfl
theorem Wf.memberCommandTimeout (m : Mbr) : Wf.Statement (.memberCommandTimeout m) := fun _ => rfl
theorem Wf.memberFatalStatus (m : Mbr) : Wf.Statement (.memberFatalStatus m) := fun _ => rfl
theorem Wf.memberLinkUp (m : Mbr) (rate : BitVec 4) (width : BitVec 3) : Wf.Statement (.memberLinkUp m rate width) := fun _ => rfl
theorem Wf.memberLinkDown (m : Mbr) : Wf.Statement (.memberLinkDown m) := fun _ => rfl
theorem Wf.memberAttach (m : Mbr) (i : AttachInfo) : Wf.Statement (.memberAttach m i) := fun _ => rfl
theorem Wf.smartPoll (m : Mbr) (pctUsed critWarn : BitVec 8) (log : List Byte) : Wf.Statement (.smartPoll m pctUsed critWarn log) := fun _ => rfl
theorem Wf.memberSanitizeDone (m : Mbr) : Wf.Statement (.memberSanitizeDone m) := fun _ => rfl
theorem Wf.reservationPreemptDone (m : Mbr) : Wf.Statement (.reservationPreemptDone m) := fun _ => rfl
theorem Wf.retirementCopyDone (a : Arr) (pos : Fin 48) : Wf.Statement (.retirementCopyDone a pos) := fun _ => rfl
theorem Wf.createArray (f : Fn) (ix : BitVec 16) : Wf.Statement (.createArray f ix) := fun _ => rfl
theorem Wf.deleteArray (f : Fn) (ix : BitVec 16) : Wf.Statement (.deleteArray f ix) := fun _ => rfl
theorem Wf.createVolume (f : Fn) (ix : BitVec 16) : Wf.Statement (.createVolume f ix) := fun _ => rfl
theorem Wf.deleteVolume (f : Fn) (ix : BitVec 16) : Wf.Statement (.deleteVolume f ix) := fun _ => rfl
theorem Wf.volumeGrant (f : Fn) (ix : BitVec 16) : Wf.Statement (.volumeGrant f ix) := fun _ => rfl
theorem Wf.memberTrust (f : Fn) (ix : BitVec 16) : Wf.Statement (.memberTrust f ix) := fun _ => rfl
theorem Wf.retireMember (f : Fn) (ix : BitVec 16) : Wf.Statement (.retireMember f ix) := fun _ => rfl
theorem Wf.detachMember (f : Fn) (ix : BitVec 16) : Wf.Statement (.detachMember f ix) := fun _ => rfl
theorem Wf.formatVolume (f : Fn) (ix : BitVec 16) : Wf.Statement (.formatVolume f ix) := fun _ => rfl
theorem Wf.sanitize (f : Fn) (ix : BitVec 16) : Wf.Statement (.sanitize f ix) := fun _ => rfl
theorem Wf.replaceMember (f : Fn) (ix : BitVec 16) : Wf.Statement (.replaceMember f ix) := fun _ => rfl
theorem Wf.scrubNow (f : Fn) (ix : BitVec 16) : Wf.Statement (.scrubNow f ix) := fun _ => rfl
theorem Wf.reshape (f : Fn) (ix : BitVec 16) : Wf.Statement (.reshape f ix) := fun _ => rfl
theorem Wf.destageIssue (b : Fin 16384) : Wf.Statement (.destageIssue b) := fun _ => rfl
theorem Wf.planChange : Wf.Statement .planChange := fun _ => rfl
theorem Wf.pwrFailAssert : Wf.Statement .pwrFailAssert := fun _ => rfl
theorem Wf.vaultDumpEnd : Wf.Statement .vaultDumpEnd := fun _ => rfl
theorem Wf.pwrFailDeassert : Wf.Statement .pwrFailDeassert := fun _ => rfl
theorem Wf.vaultEraseDone : Wf.Statement .vaultEraseDone := fun _ => rfl
theorem Wf.startRecovery (a : Arr) (facts : RecoveryFacts) : Wf.Statement (.startRecovery a facts) := fun _ => rfl
theorem Wf.spillCopy (a : Arr) : Wf.Statement (.spillCopy a) := fun _ => rfl
theorem Wf.repairAdmit (a : Arr) : Wf.Statement (.repairAdmit a) := fun _ => rfl
theorem Wf.repairStarved (a : Arr) : Wf.Statement (.repairStarved a) := fun _ => rfl
theorem Wf.rebuild (e : Se) (l : LandResult) : Wf.Statement (.rebuild e l) := fun _ => rfl
theorem Wf.scrub (e : Se) (l : LandResult) : Wf.Statement (.scrub e l) := fun _ => rfl
theorem Wf.scrubPassStart (a : Arr) : Wf.Statement (.scrubPassStart a) := fun _ => rfl
theorem Wf.reshapeStep (a : Arr) : Wf.Statement (.reshapeStep a) := fun _ => rfl
theorem Wf.repairReshape (e : Se) (l : LandResult) : Wf.Statement (.repairReshape e l) := fun _ => rfl
theorem Wf.landFrame (e : Se) (l : LandResult) : Wf.Statement (.landFrame e l) := fun _ => rfl
theorem Wf.triggered (e : Se) : Wf.Statement (.triggered e) := fun _ => rfl
theorem Wf.tgclCycle (p : Port) : Wf.Statement (.tgclCycle p) := fun _ => rfl
theorem Wf.cycleStart (p : Port) : Wf.Statement (.cycleStart p) := fun _ => rfl
theorem Wf.portLinkUp (p : Port) : Wf.Statement (.portLinkUp p) := fun _ => rfl
theorem Wf.portLinkDown (p : Port) : Wf.Statement (.portLinkDown p) := fun _ => rfl
theorem Wf.mmVerifyResult (p : Port) (ok : Bool) : Wf.Statement (.mmVerifyResult p ok) := fun _ => rfl
theorem Wf.frameReceive (fr : Frame) : Wf.Statement (.frameReceive fr) := fun _ => rfl
theorem Wf.frerHoldExpire : Wf.Statement .frerHoldExpire := fun _ => rfl
theorem Wf.frerResetTimeout (h : Fin 1024) : Wf.Statement (.frerResetTimeout h) := fun _ => rfl
theorem Wf.windowClose (x : Fin 256) : Wf.Statement (.windowClose x) := fun _ => rfl
theorem Wf.frameTransmitStart (p : Port) : Wf.Statement (.frameTransmitStart p) := fun _ => rfl
theorem Wf.rmaPacketReceive (pk : Packet) : Wf.Statement (.rmaPacketReceive pk) := fun _ => rfl
theorem Wf.contextFetchDone (qpn : BitVec 18) : Wf.Statement (.contextFetchDone qpn) := fun _ => rfl
theorem Wf.messageAnswer (qpn : BitVec 18) : Wf.Statement (.messageAnswer qpn) := fun _ => rfl
theorem Wf.rmaResponseReceive (qpn : BitVec 18) (r : RmaAnswer) : Wf.Statement (.rmaResponseReceive qpn r) := fun _ => rfl
theorem Wf.rcRetryTimeout (qpn : BitVec 18) : Wf.Statement (.rcRetryTimeout qpn) := fun _ => rfl
theorem Wf.qpCreate (f : Fn) (ix : BitVec 16) : Wf.Statement (.qpCreate f ix) := fun _ => rfl
theorem Wf.qpConnect (f : Fn) (ix : BitVec 16) : Wf.Statement (.qpConnect f ix) := fun _ => rfl
theorem Wf.qpDestroy (f : Fn) (ix : BitVec 16) : Wf.Statement (.qpDestroy f ix) := fun _ => rfl
theorem Wf.qpQuery (f : Fn) (ix : BitVec 16) : Wf.Statement (.qpQuery f ix) := fun _ => rfl
theorem Wf.keyInstall (f : Fn) (ix : BitVec 16) : Wf.Statement (.keyInstall f ix) := fun _ => rfl
theorem Wf.winRegister (f : Fn) (ix : BitVec 16) : Wf.Statement (.winRegister f ix) := fun _ => rfl
theorem Wf.winRevoke (f : Fn) (ix : BitVec 16) : Wf.Statement (.winRevoke f ix) := fun _ => rfl
theorem Wf.winRevokeDrain (index : BitVec 20) : Wf.Statement (.winRevokeDrain index) := fun _ => rfl
theorem Wf.ctxHostArea (f : Fn) (ix : BitVec 16) : Wf.Statement (.ctxHostArea f ix) := fun _ => rfl
theorem Wf.twrPost (f : Fn) (ix : BitVec 16) : Wf.Statement (.twrPost f ix) := fun _ => rfl
theorem Wf.twrCancel (f : Fn) (ix : BitVec 16) : Wf.Statement (.twrCancel f ix) := fun _ => rfl
theorem Wf.heartbeatSend (path : Path) : Wf.Statement (.heartbeatSend path) := fun _ => rfl
theorem Wf.heartbeat (path : Path) (hb : Heartbeat) : Wf.Statement (.heartbeat path hb) := fun _ => rfl
theorem Wf.pathDown (path : Path) : Wf.Statement (.pathDown path) := fun _ => rfl
theorem Wf.pathDegradedClear (path : Path) : Wf.Statement (.pathDegradedClear path) := fun _ => rfl
theorem Wf.leaseExpire : Wf.Statement .leaseExpire := fun _ => rfl
theorem Wf.takeover : Wf.Statement .takeover := fun _ => rfl
theorem Wf.reclaim (silent lossOfSignal : Bool) : Wf.Statement (.reclaim silent lossOfSignal) := fun _ => rfl
theorem Wf.announceSend : Wf.Statement .announceSend := fun _ => rfl
theorem Wf.couplerSend : Wf.Statement .couplerSend := fun _ => rfl
theorem Wf.confirm (e : Se) (t : BitVec 48) : Wf.Statement (.confirm e t) := fun _ => rfl
theorem Wf.handover (next : BitVec 48) : Wf.Statement (.handover next) := fun _ => rfl
theorem Wf.timeSend : Wf.Statement .timeSend := fun _ => rfl
theorem Wf.time (t1 t2 t4 : W64) : Wf.Statement (.time t1 t2 t4) := fun _ => rfl
theorem Wf.mirror (off : BitVec 40) (bytes : List Byte) (e : Se) (t : BitVec 48) : Wf.Statement (.mirror off bytes e t) := fun _ => rfl
theorem Wf.journal (off : BitVec 40) (bytes : List Byte) (e : Se) (t : BitVec 48) : Wf.Statement (.journal off bytes e t) := fun _ => rfl
theorem Wf.state (m : PairStateMsg) : Wf.Statement (.state m) := fun _ => rfl
theorem Wf.copy (off : BitVec 40) (bytes : List Byte) : Wf.Statement (.copy off bytes) := fun _ => rfl
theorem Wf.credit (n : W32) : Wf.Statement (.credit n) := fun _ => rfl
theorem Wf.copyComplete : Wf.Statement .copyComplete := fun _ => rfl
theorem Wf.proofCycle (failStep : Fin 9) : Wf.Statement (.proofCycle failStep) := fun _ => rfl
theorem Wf.plannedHandover (w : Who) : Wf.Statement (.plannedHandover w) := fun _ => rfl
theorem Wf.handoverDrainDone : Wf.Statement .handoverDrainDone := fun _ => rfl
theorem Wf.handoverInstant : Wf.Statement .handoverInstant := fun _ => rfl
theorem Wf.electWaitExpire : Wf.Statement .electWaitExpire := fun _ => rfl
theorem Wf.forceAlone (w : Who) : Wf.Statement (.forceAlone w) := fun _ => rfl
theorem Wf.statusW1C (w : Who) (r : Rec) (value : W32) : Wf.Statement (.statusW1C w r value) := fun _ => rfl
theorem Wf.handleTimeout (r : Rec) : Wf.Statement (.handleTimeout r) := fun _ => rfl
theorem Wf.errOutTest (w : Who) : Wf.Statement (.errOutTest w) := fun _ => rfl
theorem Wf.errOutHoldEnd : Wf.Statement .errOutHoldEnd := fun _ => rfl
theorem Wf.configScrub (upset : Option Rec) : Wf.Statement (.configScrub upset) := fun _ => rfl
theorem Wf.audit : Wf.Statement .audit := fun _ => rfl
theorem Wf.aloneSelfProof (failStep : Fin 9) : Wf.Statement (.aloneSelfProof failStep) := fun _ => rfl
theorem Wf.blockResetDone (r : Rec) : Wf.Statement (.blockResetDone r) := fun _ => rfl
theorem Wf.supplyExcursion : Wf.Statement .supplyExcursion := fun _ => rfl
theorem Wf.clockFault (c : Fin 6) (t : ClockTrouble) : Wf.Statement (.clockFault c t) := fun _ => rfl
theorem Wf.overTemperature : Wf.Statement .overTemperature := fun _ => rfl
theorem Wf.slackSample (slackPs : BitVec 10) : Wf.Statement (.slackSample slackPs) := fun _ => rfl
theorem Wf.thermalIntegrate (tjC : Int) : Wf.Statement (.thermalIntegrate tjC) := fun _ => rfl
theorem Wf.lifeSave : Wf.Statement .lifeSave := fun _ => rfl
theorem Wf.xtalReset (w : Who) : Wf.Statement (.xtalReset w) := fun _ => rfl
theorem Wf.hupNow (w : Who) : Wf.Statement (.hupNow w) := fun _ => rfl
theorem Wf.hupTestStart (v0 : BitVec 16) : Wf.Statement (.hupTestStart v0) := fun _ => rfl
theorem Wf.hupTestEnd (v1 : BitVec 16) : Wf.Statement (.hupTestEnd v1) := fun _ => rfl
theorem Wf.snapIn : Wf.Statement .snapIn := fun _ => rfl
theorem Wf.fire (w : Who) : Wf.Statement (.fire w) := fun _ => rfl
theorem Wf.snapPeriod : Wf.Statement .snapPeriod := fun _ => rfl
theorem Wf.snapTrigger : Wf.Statement .snapTrigger := fun _ => rfl
theorem Wf.snapOutEnd : Wf.Statement .snapOutEnd := fun _ => rfl
theorem Wf.freeze (w : Who) : Wf.Statement (.freeze w) := fun _ => rfl
theorem Wf.unfreeze (w : Who) : Wf.Statement (.unfreeze w) := fun _ => rfl
theorem Wf.evrClear (w : Who) : Wf.Statement (.evrClear w) := fun _ => rfl
theorem Wf.mark (w : Who) : Wf.Statement (.mark w) := fun _ => rfl
theorem Wf.cflKey (w : Who) (port : Bool) (value : W32) : Wf.Statement (.cflKey w port value) := fun _ => rfl
theorem Wf.cflRead (w : Who) (port : Bool) (addr : BitVec 26) (bitErrors : Nat) : Wf.Statement (.cflRead w port addr bitErrors) := fun _ => rfl
theorem Wf.program (w : Who) (port : Bool) (d15 : W32) : Wf.Statement (.program w port d15) := fun _ => rfl
theorem Wf.erase (w : Who) (port : Bool) (addr : BitVec 26) : Wf.Statement (.erase w port addr) := fun _ => rfl
theorem Wf.eraseSuspend (w : Who) (port : Bool) : Wf.Statement (.eraseSuspend w port) := fun _ => rfl
theorem Wf.eraseResume (w : Who) (port : Bool) : Wf.Statement (.eraseResume w port) := fun _ => rfl
theorem Wf.cflData (w : Who) (port : Bool) (i : Fin 16) (value : W32) : Wf.Statement (.cflData w port i value) := fun _ => rfl
theorem Wf.sequenceTimeout (port : Bool) : Wf.Statement (.sequenceTimeout port) := fun _ => rfl
theorem Wf.programComplete (bank : Bool) : Wf.Statement (.programComplete bank) := fun _ => rfl
theorem Wf.eraseComplete (bank : Bool) : Wf.Statement (.eraseComplete bank) := fun _ => rfl
theorem Wf.suspendReached (bank : Bool) : Wf.Statement (.suspendReached bank) := fun _ => rfl
theorem Wf.xoLock (w : Who) (r : Fin 8) : Wf.Statement (.xoLock w r) := fun _ => rfl
theorem Wf.stage1Start : Wf.Statement .stage1Start := fun _ => rfl
theorem Wf.stage2Start : Wf.Statement .stage2Start := fun _ => rfl
theorem Wf.fwConfirm (w : Who) : Wf.Statement (.fwConfirm w) := fun _ => rfl
theorem Wf.attGo (w : Who) : Wf.Statement (.attGo w) := fun _ => rfl
theorem Wf.attestDone : Wf.Statement .attestDone := fun _ => rfl
theorem Wf.extend6 (w : Who) : Wf.Statement (.extend6 w) := fun _ => rfl
theorem Wf.extend7 (w : Who) : Wf.Statement (.extend7 w) := fun _ => rfl
theorem Wf.secFloorWrite (w : Who) (value : W32) : Wf.Statement (.secFloorWrite w value) := fun _ => rfl
theorem Wf.jtagChipReset : Wf.Statement .jtagChipReset := fun _ => rfl
theorem Wf.siding (w : Who) : Wf.Statement (.siding w) := fun _ => rfl
theorem Wf.sidingReached : Wf.Statement .sidingReached := fun _ => rfl
theorem Wf.sidingWake (src : WakeSrc) : Wf.Statement (.sidingWake src) := fun _ => rfl
theorem Wf.sidingExitDone (sidingNs : Nat) : Wf.Statement (.sidingExitDone sidingNs) := fun _ => rfl
theorem Wf.aonCmpArm (w : Who) (n : Fin 8) (value : W64) : Wf.Statement (.aonCmpArm w n value) := fun _ => rfl
theorem Wf.comparatorMatch (n : Fin 8) : Wf.Statement (.comparatorMatch n) := fun _ => rfl
theorem Wf.wakeInEdge (i : Fin 4) (widthNs : Nat) : Wf.Statement (.wakeInEdge i widthNs) := fun _ => rfl
theorem Wf.unitAwake (u : Fin 28) : Wf.Statement (.unitAwake u) := fun _ => rfl
theorem Wf.unitGate (u : Fin 28) : Wf.Statement (.unitGate u) := fun _ => rfl
theorem Wf.modeEffective : Wf.Statement .modeEffective := fun _ => rfl
theorem Wf.calStep (p : Port) : Wf.Statement (.calStep p) := fun _ => rfl
theorem Wf.calStarved (p : Port) : Wf.Statement (.calStarved p) := fun _ => rfl
theorem Wf.powerOnReset (unitId pref : Bool) : Wf.Statement (.powerOnReset unitId pref) := fun _ => rfl
theorem Wf.chipReset (w : Who) : Wf.Statement (.chipReset w) := fun _ => rfl
theorem Wf.perstAssert (port : Bool) : Wf.Statement (.perstAssert port) := fun _ => rfl
theorem Wf.memberGroupTrain (g : Fin 12) : Wf.Statement (.memberGroupTrain g) := fun _ => rfl
theorem Wf.vidFrame : Wf.Statement .vidFrame := fun _ => rfl
theorem Wf.junctionTemperature100C : Wf.Statement .junctionTemperature100C := fun _ => rfl
theorem Wf.railsRemoved : Wf.Statement .railsRemoved := fun _ => rfl
theorem Wf.perstDeassert (port : Bool) : Wf.Statement (.perstDeassert port) := fun _ => rfl
theorem Wf.couplerTrained (credits : W32) : Wf.Statement (.couplerTrained credits) := fun _ => rfl
theorem Wf.guardSelfTest : Wf.Statement .guardSelfTest := fun _ => rfl
theorem Wf.eccUncorr (r : Rec) : Wf.Statement (.eccUncorr r) := fun _ => rfl
theorem Wf.checkerMismatch (r : Rec) : Wf.Statement (.checkerMismatch r) := fun _ => rfl

end Sys2Proof.Laws
end

