-- ==== Sys2Proof/Tests/Setup.lean ====
section
/-! SUPPORT. Small machines for the tests. -/

namespace Sys2Proof.Tests
open Sys2Proof.Machine

/-- an unknown-code image -/
def tImg : Image := { progId := 1, version := 0, keySlot := 0, channels := 3, entries := [(0, 100), (3, 50)], codeWords := 64, windows := [⟨1, 0, 0x10000, true, true⟩, ⟨2, 0x20000, 0x10000, true, true⟩, ⟨3, 0, 0x1000, true, true⟩], params := [11, 12, 13, 14] }
def tRun : Run := { slot := 0, ep := 0, image := tImg }
def upPwr : Pwr := { state := .running, hostReady := true }
def tChip : Chip := { pwr := upPwr }
def tE (e : Nat) (x : Engine) : State := { chip := { tChip with engines := [(e, x)] } }
def mk (c : Chip) : State := { chip := c, pending := [.snapIn] }
def memAt (d : Nat → Byte) : Nat → List Byte → Mem
  | _, [] => []
  | a, b :: r => if b = d a then memAt d (a + 1) r else (a, b) :: memAt d (a + 1) r
def memOf (a : Nat) (l : List Byte) : Mem := memAt zeros a l
def tRunL : Run := { tRun with image := { tImg with windows := ⟨0, 0x1000, 0x1000, true, true⟩ :: tImg.windows } }
def x0 : Engine := { g := [(1, 0x1000), (2, 0x1010),(3, 0x1122334455667788)], p := 5, pc := 4, run := some tRunL, w := [(0,0x123456789ABCDEF),(3, 0xFFFFFFFF)], lm := [(0x1008, 9), (0x1010, 8)] }
def sW (x : Engine) (c : Chip := tChip) : State := mk { c with engines := [(3, x), (18, x)] }
def xw : Engine := { x0 with g := [(1, BitVec.ofNat 64 (1000 * 65536)), (2, 9)], pend := [(9, 3)] }
def cT (now : Nat) (st : TimeState := .locked) : Chip := { tChip with tmb := { now := now * 65536 + 77, up := 5, state := st } }
def setE (r : Nat) (l : List (Nat × Nat)) (c : Chip) (b : Block := {}) : Chip := { c with blocks := Tab.put' c.blocks r { b with effective := l } }
where Tab.put' (t : Tab Block) (r : Nat) (b : Block) := tinsert (terase t r) r b
def dis (r : Nat) (c : Chip) (b : Block := {}) : Chip := setE r [(8 * 0x48, 0)] c b
def hb (a : Nat) (l : List Byte) : Mem := memAt hbmInit a l
def mkE (op flags : Nat) (l : List (Nat × Nat) := []) : BitVec 512 := BitVec.ofNat 512 (op + 256 * flags + (l.map fun x => x.2 * 2 ^ (8 * x.1)).sum + 2^511)
def act : Par := { role := .active }
def qS (f g : Nat) (q : Queue) (x : Func := {}) (h : Chip → Chip := id) : State := mk (h { tChip with par := act, funcs := [(f, { x with enable := true, queues := [(g, { q with created := true })] })], pools := [(5, {held := 9, granted := 9})] })
def gq : Geom := ⟨5, 4, 1, stripesPerRow 5 4 1⟩
def arr2 : RaidArray := { made := true, geom := gq, stripLog2 := 16, rows := 10, prog := 0x10001, uid := 5, pos := (List.range 5).map fun i => { member := some (10 + i), id := 100 + i }, capacity := 100000000 }
def vol3 : Volume := { state := .ready, array := 2, first := 1, count := 6, grants := [(5, 3), (6, 1)] }
def mbrs : Tab Member := (List.range 5).map fun i => (10 + i, { state := .bound, array := 2, position := some i, capacity := 200000000, nguid := 100 + i })
def st0 : Image := { tImg with progId := 0x10001, entries := [(0,1000),(5,1000),(9,1000),(12,1000)] }
def cs (c : Chip) : Chip := { c with arrays := [(2, arr2)], volumes := [(3, vol3)], members := mbrs, cache := { pairQ := 8 }, engines := (List.range 16).map fun e => (e, { slots := [(0, { cur := some st0 })] }) }
def ad (op : Nat) (l : List (Nat × Nat)) (f : Adm → Adm := id) : Adm := f { pos := 15, entry := mkE op 3 l, seq := 77 }
def aG (f g : Nat) (a : Adm) (h : Chip → Chip := id) : State := mk (h (cs { tChip with par := act, funcs := [(f, { enable := true, queues := [(g, { created := true, size := 16, tail := 20, done := 14, nextPos := 17, work := [a] })] })], pools := [(5, {held := 9, granted := 9})] }))
/-- Blocks in two runs. -/
theorem sm3Blocks_add : ∀ (m n : Nat) (v : List Nat) (l : List Byte), sm3Blocks (m + n) v l = sm3Blocks n (sm3Blocks m v l) (l.drop (64 * m))
  | 0, n, v, l => by simp [sm3Blocks]
  | m + 1, n, v, l => by
    rw [show m + 1 + n = (m + n) + 1 by omega]
    simp only [sm3Blocks]
    rw [sm3Blocks_add m n, List.drop_drop, show 64 + 64 * m = 64 * (m + 1) by omega]
theorem sm3_eq (l m : List Byte) (n : Nat)
    (h : m = l ++ [0x80] ++ List.replicate ((55 + 64 - l.length % 64) % 64) 0 ++ beBytes 8 (8 * l.length)) (k : m.length / 64 = n) :
    sm3 l = (sm3Blocks n sm3Iv m).flatMap fun w => beBytes 4 w := by
  subst h; rw [sm3, k]

/-- A run of bytes from an address on, each listed. -/
def listAt : Nat → List Byte → Mem
  | _, [] => []
  | a, b :: r => (a, b) :: listAt (a + 1) r
theorem tget_listAt (d : Byte) (r : Mem) : ∀ (l : List Byte) (a o : Nat), o < l.length → tget (listAt a l ++ r) d (a + o) = l.getD o 0
  | [], _, _, h => absurd h (by simp)
  | b :: l, a, 0, _ => by simp [listAt, tget]
  | b :: l, a, o + 1, h => by
    have := tget_listAt d r l (a + 1) o (by simpa using h)
    rw [show a + (o + 1) = a + 1 + o by omega]
    have n : ¬ a = a + 1 + o := by omega
    simpa [listAt, tget, n] using this
theorem tget_beyond (d : Byte) (r : Mem) : ∀ (l : List Byte) (a k : Nat), a + l.length ≤ k → tget (listAt a l ++ r) d k = tget r d k
  | [], _, _, _ => rfl
  | b :: l, a, k, h => by
    have n : ¬ a = k := by simp at h; omega
    simpa [listAt, tget, n] using tget_beyond d r l (a + 1) k (by simp at h ⊢; omega)
theorem mread_listAt (f : Nat → Byte) (r : Mem) (l : List Byte) : ∀ (n o : Nat), o + n ≤ l.length → mread f (listAt 0 l ++ r) o n = (l.drop o).take n
  | 0, _, _ => by simp [mread]
  | n + 1, o, h => by
    have t := tget_listAt (f o) r l 0 o (by omega)
    have e : l.drop o = l[o]'(by omega) :: l.drop (o + 1) := List.drop_eq_getElem_cons (by omega)
    rw [e, List.take_succ_cons, ← mread_listAt f r l n (o + 1) (by omega)]
    simp only [mread, mget, Nat.zero_add] at t ⊢
    rw [t]; simp [List.getD, List.getElem?_eq_getElem (show o < l.length by omega)]

/-- An answer exists where an option holds one. -/
theorem ex_mid {α : Type} {A B : Prop} {o : Option α} (h : A ∧ B ∧ o.isSome = true) : ∃ d, A ∧ B ∧ o = some d := by
  obtain ⟨a, b, c⟩ := h; exact (Option.isSome_iff_exists.mp c).elim fun d e => ⟨d, a, b, e⟩
theorem ex_three {α : Type} {A B C D : Prop} {o : Option α} (h : A ∧ B ∧ C ∧ o.isSome = true ∧ D) : ∃ d, A ∧ B ∧ C ∧ o = some d ∧ D := by
  obtain ⟨a, b, c, e, f⟩ := h; exact (Option.isSome_iff_exists.mp e).elim fun d e => ⟨d, a, b, c, e, f⟩
theorem ex_two {α β : Type} {o : Option α} {p : α → Option β} (h : (o.any fun v => (p v).isSome) = true) : ∃ v d, o = some v ∧ p v = some d := by
  cases o with
  | none => exact nomatch h
  | some v => exact (Option.isSome_iff_exists.mp h).elim fun d e => ⟨v, d, rfl, e⟩
theorem ex_pair {α β : Type} {A B : Prop} {o : Option (α × β)} (h : A ∧ B ∧ o.isSome = true) : ∃ d r, A ∧ B ∧ o = some (d, r) := by
  obtain ⟨a, b, c⟩ := h; exact (Option.isSome_iff_exists.mp c).elim fun d e => ⟨d.1, d.2, a, b, e⟩
theorem ex_two_mid {α β : Type} {A B : Prop} {o : Option α} {p : α → Option β} (h : A ∧ B ∧ (o.any fun v => (p v).isSome) = true) :
    ∃ v d, A ∧ o = some v ∧ B ∧ p v = some d := by
  obtain ⟨a, b, c⟩ := h; obtain ⟨v, d, e, f⟩ := ex_two c; exact ⟨v, d, a, e, b, f⟩


end Sys2Proof.Tests
end

