-- ==== Sys2Proof/Tests/Slice0.lean ====
section
/-! SUPPORT. Small tests. Ill-formed Lanibex instructions that WellFormed refuses, words written out from the encoding tables of 04, and the worked
examples of the chapters. Every expected value stands in the chapter that the test names. -/

namespace Sys2Proof.Tests
open Sys2Proof.Machine
set_option maxRecDepth 100000
set_option Elab.async false

/-! ## WellFormed refuses (R153, R154) -/

theorem test_wf_predicate_number : Instr.wf (.eq 0 8 1 2) = false := by decide
theorem test_wf_predicate_operand : Instr.wf (.pand 0 1 8 2) = false := by decide
theorem test_wf_pnot_b : Instr.wf (.pnot 0 1 2 1) = false := by decide
theorem test_wf_shift_amount : Instr.wf (.shli 0 1 2 64) = false := by decide
theorem test_wf_movi_a : Instr.wf (.movi 0 1 1 5) = false := by decide
theorem test_wf_movk_half : Instr.wf (.movk 0 1 4 5) = false := by decide
theorem test_wf_sload_d : Instr.wf (.sload 0 16 1 0 0) = false := by decide
theorem test_wf_sload_treadle : Instr.wf (.sload 16 1 1 0 0) = false := by decide
theorem test_wf_brp_self : Instr.wf (.brp 0 true 1 0) = false := by decide
theorem test_wf_loop_bound : Instr.wf (.loop 0 5 0 3) = false := by decide
theorem test_wf_loop_len : Instr.wf (.loop 0 5 30 0) = false := by decide
theorem test_wf_pxor_g : Instr.wf (.pxor 0 1 2 3 1) = false := by decide
theorem test_wf_vzero_va : Instr.wf (.vzero 0 1 2 0 0) = false := by decide
theorem test_wf_vmov_vb : Instr.wf (.vmov 0 1 2 3 0) = false := by decide
theorem test_wf_gfmul_vb : Instr.wf (.gfmul 0 1 2 3 4) = false := by decide
theorem test_wf_synd_same : Instr.wf (.synd 0 3 1 3 4) = false := by decide
theorem test_wf_vext_lane : Instr.wf (.vext 0 0 1 8 4) = false := by decide
theorem test_wf_vins_va : Instr.wf (.vins 0 1 1 2 4) = false := by decide
theorem test_wf_vbcast_vb : Instr.wf (.vbcast 0 1 0 2 4) = false := by decide
theorem test_wf_gfinv_b : Instr.wf (.gfinv 0 1 2 3) = false := by decide
theorem test_wf_gfmuls_treadle : Instr.wf (.gfmuls 17 1 2 3) = false := by decide
theorem test_wf_syndb_d : Instr.wf (.syndb 0 31 1 2 3 0 false false) = false := by decide
theorem test_wf_shut_treadle : Instr.wf (.shut 16 1 2 3) = false := by decide
theorem test_wf_take_b : Instr.wf (.take 0 1 2 3) = false := by decide
theorem test_wf_cmpl_d : Instr.wf (.cmpl 0 1 2 3) = false := by decide
theorem test_wf_sig_stripe : Instr.wf (.sig 0 4) = false := by decide
theorem test_wf_sig_treadle : Instr.wf (.sig 16 8) = false := by decide
theorem test_wf_snapt_tag : Instr.wf (.snapt 0 256) = false := by decide
theorem test_wf_gate_stripe : Instr.wf (.gate 0 1) = false := by decide
theorem test_wf_hold_imm : Instr.wf (.hold 16 2) = false := by decide
theorem test_wf_wake_group : Instr.wf (.wake 16 16) = false := by decide
theorem test_wf_wake_imm : Instr.wf (.wake 16 512) = false := by decide
theorem test_wf_rdt_a : Instr.wf (.rdt 0 1 1 0) = false := by decide
theorem test_wf_csrr_selector : Instr.wf (.csrr 0 1 12 0) = false := by decide
theorem test_wf_end_imm : Instr.wf (.endP 0 1) = false := by decide

/-! ## Words written out bit by bit -/

/-- 04, "Worked example: encoding and cycle count": its seven words. -/
theorem test_words_of_the_worked_example :
    [0x29C00001#32, 0x29E00002#32, 0x68A01E03#32, 0x8A8A696E#32, 0x054A5800#32, 0x85CE7800#32, 0xF0000000#32].map (decodeLx 0) =
      [some (.movi 0 14 0 1), some (.movi 0 15 0 2), some (.loop 0 5 30 3), some (.syndb 0 20 10 13 14 3 false true), some (.add 0 10 10 11),
       some (.gfmuls 0 14 14 15), some (.endP 0 0)] := by decide +kernel

/-- Formats G, I and M: CMP EQ p3, g1, g2; ADDI g5, g1, −1; LD g2, g1, size 3, offset 1; MOVK g5, quarter 2. -/
theorem test_words_of_g_i_m :
    decodeLx 3 0b000010_00011_00001_00010_00000000000#32 = some (.eq 3 3 1 2) ∧
    decodeLx 3 0b000011_00101_00001_1111111111111111#32 = some (.addi 3 5 1 0xFFFF) ∧
    decodeLx 3 0b010000_00010_00001_11_00000000000001#32 = some (.ld 3 2 1 3 1) ∧
    decodeLx 3 0b001011_00101_00010_0001001000110100#32 = some (.movk 3 5 2 0x1234) := by decide +kernel

/-- Formats J and V: BRP with SENSE 1, p2, −2; PXOR w1, w2, w3; GFMAC w1, w2, g4; VEXT g4, w2, lane 5. -/
theorem test_words_of_j_v :
    decodeLx 3 0b011000_1_010_000000_1111111111111110#32 = some (.brp 3 true 2 0xFFFE) ∧
    decodeLx 3 0b100000_0001_0010_0011_00000_000000000#32 = some (.pxor 3 1 2 3 0) ∧
    decodeLx 3 0b100000_0001_0010_0000_00100_000000100#32 = some (.gfmac 3 1 2 0 4) ∧
    decodeLx 3 0b100000_0000_0010_0101_00100_000000110#32 = some (.vext 3 0 2 5 4) := by decide +kernel

/-- Formats E, W and T: WAITE, CLRE, LAND, WAITT, SIG, GATE and CSRR. -/
theorem test_words_of_e_w_t :
    decodeLx 3 0b110000_00101_11101111_0000000000101#32 = some (.waite 3 5 0xEF 5) ∧
    decodeLx 3 0b110111_00101_11101111_0000000000001#32 = some (.clre 3 5 0xEF) ∧
    decodeLx 3 0b101100_00101_00110_000_0000000010100#32 = some (.land 3 5 6 20) ∧
    decodeLx 17 0b110001_00101_00110_000_0000000010100#32 = some (.waitt 17 5 6 20) ∧
    decodeLx 17 0b110010_0000000000_0000000000000111#32 = some (.sig 17 7) ∧
    decodeLx 17 0b110100_0000000000_0000000010101010#32 = some (.gate 17 0xAA) ∧
    decodeLx 3 0b111000_00101_00001_00000_00000000001#32 = some (.csrr 3 5 1 0) := by decide +kernel

/-- R153, R154: an unassigned OP, an unassigned FN, a reserved bit of format T, and SHUT on a Treadle engine decode as ILLEGAL. -/
theorem test_illegal_words :
    decodeLx 0 0xFC000000#32 = none ∧ decodeLx 0 0x04000700#32 = none ∧ decodeLx 0 0xF0010000#32 = none ∧
    decodeLx 0 0xA0220800#32 = some (.shut 0 1 2 1) ∧ decodeLx 16 0xA0220800#32 = none := by decide +kernel

/-! ## Arithmetic of the chapters -/

/-- 00: the difference of wrapping times, on 03's worked example. -/
theorem test_time_diff_wraps : timeDiff 0x000000000800 0xFFFFFFFFF000 = 6144 ∧ timeDiff 0xFFFFFFFFF000 0x000000000800 = -6144 := by decide

/-- 04, R165: gf_mul(0x80, 2) and gf_exp(8); 08: gf_inv(0x06). -/
theorem test_gf_examples : gfMul 0x80 2 = 0x1D ∧ gfExp 8 = 0x1D ∧ gfInv 6 = 0x7A := by decide +kernel

/-- 08, "Worked example: one byte column": P and Q, and the recovery of D1 and D2, and of D2 and P. -/
theorem test_one_byte_column :
    pOf [0x5A, 0xC3, 0x80, 0x1F] = 0x06 ∧ qOf [0x5A, 0xC3, 0x80, 0x1F] = 0x03 ∧
    reconstruct [some 0x5A, none, none, some 0x1F, some 0x06, some 0x03] = some [0x5A, 0xC3, 0x80, 0x1F, 0x06, 0x03] ∧
    reconstruct [some 0x5A, some 0xC3, none, some 0x1F, none, some 0x03] = some [0x5A, 0xC3, 0x80, 0x1F, 0x06, 0x03] := by decide +kernel

/-- 08, "Worked example": stripe 7 of A2. -/
theorem test_placement_of_stripe_7 :
    (List.range 6).map (fun i => (locate ⟨14, 6, 2, 2⟩ 7 i).1) = [1, 10, 5, 0, 9, 4] ∧
    (List.range 6).map (fun i => (locate ⟨14, 6, 2, 2⟩ 6 i).1) = [3, 12, 7, 2, 11, 6] ∧ ownerOf 2 7 = 13 := by decide +kernel

/-- 10, "Worked example": position 10 on spare slot 0. -/
theorem test_spare_holders :
    holder [15, 15, 15, 15, 15, 15, 15, 15, 15, 15, 0, 15, 15, 15] ⟨14, 6, 2, 2⟩ 2 3 = some 9 ∧
    holder [15, 15, 15, 15, 15, 15, 15, 15, 15, 15, 0, 15, 15, 15] ⟨14, 6, 2, 2⟩ 7 1 = some 13 := by decide +kernel

/-- R365: the check values over ASCII "123456789". -/
theorem test_crc_check_values :
    crc32c (ascii "123456789") = 0xE3069283 ∧ crc64 (ascii "123456789") = 0xAE8B14860A799888 ∧ t10 (ascii "123456789") = 0xD0DB := by
  decide +kernel

/-- 05 and 04: the worked program's proven count, 5 + 30 × 2,122. -/
theorem test_proven_count :
    (⟨instrsOf 0 [0x29C00001#32, 0x29E00002#32, 0x68A01E03#32, 0x8A8A696E#32, 0x054A5800#32, 0x85CE7800#32, 0xF0000000#32],
      [(3, 65536)], false⟩ : Proof).count 0 = 63665 := by decide +kernel

/-- 16 and 09: the measured energies 18.34 J and 19.60 J and their plans. -/
theorem test_energy_and_plan :
    hupEnergy 24000 23952 12000 1000 85 = some 1834 ∧ planQ 1834 32 = 22 ∧ planQ 1960 32 = 24 ∧ planPages 24 = 93184 := by decide +kernel

/-- GB/T 32905, its first example: SM3 of "abc". -/
theorem test_sm3_abc : ofBe (sm3 (ascii "abc")) = 0x66C7F0F462EEEDD9D1F2D46BDC10E4E24167C4875CF2F7A2297DA02B8F4BA8E0 := by decide +kernel

/-- 13, R627's worked example: the nonce of SEQ 258 in epoch 3 on side 1. -/
theorem test_nonce :
    SealKey.nonce { alg := 0, side := true, salt := 0x5A17C0DE, txKey := [], rxKey := [], txEpoch := 3, txSeq := 258, rxEpoch := 3 } =
      [0x5A, 0x17, 0xC0, 0xDE, 0x80, 0x00, 0x00, 0x03, 0x00, 0x00, 0x01, 0x02] := by decide +kernel

/-! ## Reset, the queue, and the statements over all instructions -/

theorem test_reset_memories : State.reset.chip.memWf = true ∧ State.reset.pending = [] := by decide +kernel

/-- Each clause of QueueStaysWellFormed: a machine that meets its hypotheses and steps. -/
theorem test_meets_QueueStaysWellFormed : ∃ s t : State, s.queueWf = true ∧ step s = .next t :=
  ⟨{ pending := [.snapIn] }, _, by decide, rfl⟩

/-- LanibexDecodeOfEncode: an instruction and its word that meet the hypotheses. -/
theorem test_meets_LanibexDecodeOfEncode : ∃ (i : Instr) (w : W32), encodeLx i = some w ∧ i.wf = true :=
  ⟨.loop 0 5 30 3, 0x68A01E03, by decide +kernel, by decide⟩

/-- ReadTimeAndStatus: CSRR with each selector of its table stands ready on an engine. -/
theorem test_meets_csrr_selectors :
    ∀ k ∈ List.range 12, (tE 3 { x0 with run := some tRun }).chip.ready 3 tRun (.csrr 3 5 (BitVec.ofNat 5 k) 0) := by decide +kernel

/-- StepRunsTheFrontCommand at the queue's front. -/
theorem test_front_command : (step { pending := [.snapIn] }) = exec .snapIn { pending := [] } := rfl

end Sys2Proof.Tests
end

