-- ==== Sys2Proof/Tests/Witness01.lean ====
section
/-! SUPPORT. Machines and operands that meet the hypotheses of the statements, clause by clause. -/

namespace Sys2Proof.Tests.W01
open Sys2Proof.Machine
set_option maxRecDepth 100000
set_option Elab.async false

def x1 : Engine := { x0 with g := [(1, 0x8000000000000007), (2, 3), (3, 0), (10, 0xFFFFFFFFFFFFFFFF), (14, 0x1D)], run := some tRun }

def s0 : State := tE 3 x1

def s1 : State := tE 3 { x1 with g := [(1, 0x40040), (2, 0x40048),(3, 0x1122334455667788)], lm := [(0x40048, 9), (0x40050, 8)] }

def s2 : State := mk { tChip with engines := [(3, { x1 with g := [(1, 0x40), (2, 0x20040),(3, 0x40080)] })], stg := [(0x41, 3)], hbm := [(0x20100, 5)] }

def s3 : State := tE 3 { x1 with g := [(1, 5), (2, 0)], loops := [⟨2, 6, 2, 0⟩, ⟨1, 20, 1, 0⟩] }

/-- Each clause of AluGroup (obligation IntegerArithmetic): a machine and operands that meet its hypotheses. -/
theorem test_meets_AluGroup :
    (∃ (s : State) (e : Eng) (r : Run) (d a b : BitVec 5),
     (s.chip.ready e r (.add e d a b))) ∧
    (∃ (s : State) (e : Eng) (r : Run) (d a b : BitVec 5),
     (s.chip.ready e r (.sub e d a b))) ∧
    (∃ (s : State) (e : Eng) (r : Run) (d a b : BitVec 5),
     (s.chip.ready e r (.and e d a b))) ∧
    (∃ (s : State) (e : Eng) (r : Run) (d a b : BitVec 5),
     (s.chip.ready e r (.or e d a b))) ∧
    (∃ (s : State) (e : Eng) (r : Run) (d a b : BitVec 5),
     (s.chip.ready e r (.xor e d a b))) ∧
    (∃ (s : State) (e : Eng) (r : Run) (d a b : BitVec 5),
     (s.chip.ready e r (.shl e d a b))) ∧
    (∃ (s : State) (e : Eng) (r : Run) (d a b : BitVec 5),
     (s.chip.ready e r (.shr e d a b))) ∧
    (∃ (s : State) (e : Eng) (r : Run) (d a b : BitVec 5),
     (s.chip.ready e r (.sar e d a b))) ∧
    (∃ (s : State) (e : Eng) (r : Run) (d a b : BitVec 5),
     (s.chip.ready e r (.mul e d a b))) ∧
    (∃ (s : State) (e : Eng) (r : Run) (d a b : BitVec 5),
     (s.chip.ready e r (.mulhu e d a b))) ∧
    (∃ (s : State) (e : Eng) (r : Run) (d a b : BitVec 5),
     (s.chip.ready e r (.minu e d a b))) ∧
    (∃ (s : State) (e : Eng) (r : Run) (d a b : BitVec 5),
     (s.chip.ready e r (.maxu e d a b))) ∧
    (∃ (s : State) (e : Eng) (r : Run) (d a b : BitVec 5),
     (s.chip.ready e r (.divu e d a b))) ∧
    (∃ (s : State) (e : Eng) (r : Run) (d a b : BitVec 5),
     (s.chip.ready e r (.remu e d a b))) ∧
    (∃ (s : State) (e : Eng) (r : Run) (d a b : BitVec 5) (p : BitVec 3),
     (s.chip.ready e r (.sel e d a b p))) :=
  ⟨⟨s0, 3, tRun, 5, 1, 2, by decide +kernel⟩,
   ⟨s0, 3, tRun, 5, 1, 2, by decide +kernel⟩,
   ⟨s0, 3, tRun, 5, 1, 2, by decide +kernel⟩,
   ⟨s0, 3, tRun, 5, 1, 2, by decide +kernel⟩,
   ⟨s0, 3, tRun, 5, 1, 2, by decide +kernel⟩,
   ⟨s0, 3, tRun, 5, 1, 2, by decide +kernel⟩,
   ⟨s0, 3, tRun, 5, 1, 2, by decide +kernel⟩,
   ⟨s0, 3, tRun, 5, 1, 2, by decide +kernel⟩,
   ⟨s0, 3, tRun, 5, 1, 2, by decide +kernel⟩,
   ⟨s0, 3, tRun, 5, 1, 2, by decide +kernel⟩,
   ⟨s0, 3, tRun, 5, 1, 2, by decide +kernel⟩,
   ⟨s0, 3, tRun, 5, 1, 2, by decide +kernel⟩,
   ⟨s0, 3, tRun, 5, 1, 2, by decide +kernel⟩,
   ⟨s0, 3, tRun, 5, 1, 2, by decide +kernel⟩,
   ⟨s0, 3, tRun, 5, 1, 2, 0, by decide +kernel⟩⟩

/-- Each clause of CmpGroup (obligation Predicates): a machine and operands that meet its hypotheses. -/
theorem test_meets_CmpGroup :
    (∃ (s : State) (e : Eng) (r : Run) (d a b : BitVec 5),
     (s.chip.ready e r (.eq e d a b))) ∧
    (∃ (s : State) (e : Eng) (r : Run) (d a b : BitVec 5),
     (s.chip.ready e r (.ne e d a b))) ∧
    (∃ (s : State) (e : Eng) (r : Run) (d a b : BitVec 5),
     (s.chip.ready e r (.ltu e d a b))) ∧
    (∃ (s : State) (e : Eng) (r : Run) (d a b : BitVec 5),
     (s.chip.ready e r (.lt e d a b))) ∧
    (∃ (s : State) (e : Eng) (r : Run) (d a b : BitVec 5),
     (s.chip.ready e r (.geu e d a b))) ∧
    (∃ (s : State) (e : Eng) (r : Run) (d a b : BitVec 5),
     (s.chip.ready e r (.ge e d a b))) ∧
    (∃ (s : State) (e : Eng) (r : Run) (d a b : BitVec 5),
     (s.chip.ready e r (.tlt e d a b))) ∧
    (∃ (s : State) (e : Eng) (r : Run) (d a b : BitVec 5),
     (s.chip.ready e r (.pand e d a b))) ∧
    (∃ (s : State) (e : Eng) (r : Run) (d a b : BitVec 5),
     (s.chip.ready e r (.por e d a b))) ∧
    (∃ (s : State) (e : Eng) (r : Run) (d a b : BitVec 5),
     (s.chip.ready e r (.pnot e d a b))) ∧
    (∃ (d : BitVec 5),
     (8 ≤ d.toNat)) ∧
    (∃ (a : BitVec 5),
     (8 ≤ a.toNat)) ∧
    (∃ (b : BitVec 5),
     (8 ≤ b.toNat)) ∧
    (∃ (b : BitVec 5),
     (b ≠ 0)) :=
  ⟨⟨s0, 3, tRun, 5, 1, 2, by decide +kernel⟩,
   ⟨s0, 3, tRun, 5, 1, 2, by decide +kernel⟩,
   ⟨s0, 3, tRun, 5, 1, 2, by decide +kernel⟩,
   ⟨s0, 3, tRun, 5, 1, 2, by decide +kernel⟩,
   ⟨s0, 3, tRun, 5, 1, 2, by decide +kernel⟩,
   ⟨s0, 3, tRun, 5, 1, 2, by decide +kernel⟩,
   ⟨s0, 3, tRun, 5, 1, 2, by decide +kernel⟩,
   ⟨s0, 3, tRun, 5, 1, 2, by decide +kernel⟩,
   ⟨s0, 3, tRun, 5, 1, 2, by decide +kernel⟩,
   ⟨s0, 3, tRun, 1, 1, 0, by decide +kernel⟩,
   ⟨9, by decide +kernel⟩,
   ⟨10, by decide +kernel⟩,
   ⟨9, by decide +kernel⟩,
   ⟨2, by decide +kernel⟩⟩

/-- Each clause of ImmediateInstructions (obligation IntegerArithmetic): a machine and operands that meet its hypotheses. -/
theorem test_meets_ImmediateInstructions :
    (∃ (s : State) (e : Eng) (r : Run) (d a : BitVec 5) (imm : BitVec 16),
     (s.chip.ready e r (.addi e d a imm))) ∧
    (∃ (s : State) (e : Eng) (r : Run) (d a : BitVec 5) (imm : BitVec 16),
     (s.chip.ready e r (.andi e d a imm))) ∧
    (∃ (s : State) (e : Eng) (r : Run) (d a : BitVec 5) (imm : BitVec 16),
     (s.chip.ready e r (.ori e d a imm))) ∧
    (∃ (s : State) (e : Eng) (r : Run) (d a : BitVec 5) (imm : BitVec 16),
     (s.chip.ready e r (.xori e d a imm))) ∧
    (∃ (s : State) (e : Eng) (r : Run) (d a : BitVec 5) (imm : BitVec 16),
     (s.chip.ready e r (.shli e d a imm))) ∧
    (∃ (s : State) (e : Eng) (r : Run) (d a : BitVec 5) (imm : BitVec 16),
     (s.chip.ready e r (.shri e d a imm))) ∧
    (∃ (s : State) (e : Eng) (r : Run) (d a : BitVec 5) (imm : BitVec 16),
     (s.chip.ready e r (.sari e d a imm))) ∧
    (∃ (s : State) (e : Eng) (r : Run) (d a : BitVec 5) (imm : BitVec 16),
     (s.chip.ready e r (.movi e d a imm))) ∧
    (∃ (s : State) (e : Eng) (r : Run) (d a : BitVec 5) (imm : BitVec 16),
     (s.chip.ready e r (.movk e d a imm))) ∧
    (∃ (imm : BitVec 16),
     (64 ≤ imm.toNat)) ∧
    (∃ (a : BitVec 5),
     (a ≠ 0)) ∧
    (∃ (a : BitVec 5),
     (4 ≤ a.toNat)) :=
  ⟨⟨s0, 3, tRun, 1, 1, 0xFFFF, by decide +kernel⟩,
   ⟨s0, 3, tRun, 1, 1, 0xFFFF, by decide +kernel⟩,
   ⟨s0, 3, tRun, 1, 1, 0xFFFF, by decide +kernel⟩,
   ⟨s0, 3, tRun, 1, 1, 0xFFFF, by decide +kernel⟩,
   ⟨s0, 3, tRun, 1, 0, 5, by decide +kernel⟩,
   ⟨s0, 3, tRun, 1, 0, 5, by decide +kernel⟩,
   ⟨s0, 3, tRun, 1, 0, 5, by decide +kernel⟩,
   ⟨s0, 3, tRun, 1, 0, 5, by decide +kernel⟩,
   ⟨s0, 3, tRun, 1, 1, 0xFFFF, by decide +kernel⟩,
   ⟨0xFFFF, by decide +kernel⟩,
   ⟨1, by decide +kernel⟩,
   ⟨4, by decide +kernel⟩⟩

/-- Each clause of WritingG (obligation IntegerArithmetic): a machine and operands that meet its hypotheses. -/
theorem test_meets_WritingG :
    (∃ (d : BitVec 5),
     (d ≠ 0)) ∧
    (∃ (d : BitVec 5),
     ∃ k,
     (k ≠ d.toNat)) ∧
    (∃ (e : Eng),
     ∃ o : Nat,
     (o ≠ e.val)) :=
  ⟨⟨1, by decide +kernel⟩,
   ⟨1, 2, by decide +kernel⟩,
   ⟨3, 4, by decide +kernel⟩⟩

/-- Each clause of WritingP (obligation Predicates): a machine and operands that meet its hypotheses. -/
theorem test_meets_WritingP :
    (∃ (d : BitVec 5),
     (d.toNat < 8)) ∧
    (∃ (d : BitVec 5),
     (d.toNat < 8) ∧
     (d ≠ 0)) ∧
    (∃ (d : BitVec 5),
     (d.toNat < 8) ∧
     ∃ k,
     (k ≠ d.toNat)) ∧
    (∃ (e : Eng) (d : BitVec 5),
     (d.toNat < 8) ∧
     ∃ o : Nat,
     (o ≠ e.val)) :=
  ⟨⟨1, by decide +kernel⟩,
   ⟨1, by decide +kernel⟩,
   ⟨1, by decide +kernel, 2, by decide +kernel⟩,
   ⟨3, 1, by decide +kernel, 4, by decide +kernel⟩⟩

/-- Each clause of LoadAndStore (obligation LoadsAndStores): a machine and operands that meet its hypotheses. -/
theorem test_meets_LoadAndStore_01 :
    ∃ (s : State) (e : Eng) (r : Run) (d a : BitVec 5) (sz : BitVec 2) (off : BitVec 14),
    let n : Nat := 2 ^ sz.toNat
    let ad := ((s.chip.eng e).getG a.toNat + BitVec.ofInt 64 (off.toInt * n)).toNat
    (s.chip.ready e r (.ld e d a sz off)) ∧
    (ad % n = 0) ∧
    (r.inside e 0 ad n false = true) :=
  ⟨s1, 3, tRun, 3, 1, 3, 1, by decide +kernel⟩

/-- Each clause of VectorLoadAndStore (obligation LoadsAndStores): a machine and operands that meet its hypotheses. -/
theorem test_meets_VectorLoadAndStore :
    (∃ (s : State) (e : Eng) (r : Run) (d a : BitVec 5) (sp : BitVec 2) (off : BitVec 14),
     let ad := ((s.chip.eng e).getG a.toNat + BitVec.ofInt 64 (off.toInt * 64)).toNat
     (s.chip.ready e r (.sload e d a sp off)) ∧
     (ad % 64 = 0) ∧
     (r.inside e sp.toNat ad 64 false = true)) ∧
    (∃ (s : State) (e : Eng) (r : Run) (d a : BitVec 5) (sp : BitVec 2) (off : BitVec 14),
     let ad := ((s.chip.eng e).getG a.toNat + BitVec.ofInt 64 (off.toInt * 64)).toNat
     (s.chip.ready e r (.sstore e d a sp off)) ∧
     (ad % 64 = 0) ∧
     (sp.toNat ≠ 3) ∧
     (r.inside e sp.toNat ad 64 true = true)) ∧
    (∃ (s : State) (e : Eng) (r : Run) (d a : BitVec 5) (off : BitVec 14),
     let ad := ((s.chip.eng e).getG a.toNat + BitVec.ofInt 64 (off.toInt * 64)).toNat
     (s.chip.ready e r (.sstore e d a 3 off)) ∧
     (ad % 64 = 0)) ∧
    (∃ (d : BitVec 5),
     (16 ≤ d.toNat)) :=
  ⟨⟨s2, 3, tRun, 3, 1, 1, 0, by decide +kernel⟩,
   ⟨s2, 3, tRun, 3, 1, 1, 0, by decide +kernel⟩,
   ⟨s2, 3, tRun, 3, 1, 0, by decide +kernel⟩,
   ⟨18, by decide +kernel⟩⟩

/-- Each clause of Branch (obligation ControlFlow): a machine and operands that meet its hypotheses. -/
theorem test_meets_Branch :
    (∃ (s : State) (e : Eng) (r : Run) (sense : Bool) (p : BitVec 3) (off : BitVec 16),
     let x := s.chip.eng e
     (s.chip.ready e r (.brp e sense p off)) ∧
     (x.getP p.toNat = sense)) ∧
    (∃ (s : State) (e : Eng) (r : Run) (sense : Bool) (p : BitVec 3) (off : BitVec 16),
     let x := s.chip.eng e
     (s.chip.ready e r (.brp e sense p off)) ∧
     (x.getP p.toNat ≠ sense)) :=
  ⟨⟨s3, 3, tRun, true, 0, 1, by decide +kernel⟩,
   ⟨s3, 3, tRun, false, 0, 40, by decide +kernel⟩⟩

/-- Each clause of LoopEntry (obligation ControlFlow): a machine and operands that meet its hypotheses. -/
theorem test_meets_LoopEntry :
    (∃ (s : State) (e : Eng) (r : Run) (k : BitVec 5) (bound : BitVec 13) (len : BitVec 8),
     let x := s.chip.eng e
     (s.chip.ready e r (.loop e k bound len)) ∧
     (x.loops.length = 4 ∨ (x.loops.head?.any fun l => decide (l.stop < x.pc + len.toNat)) = true)) ∧
    (∃ (s : State) (e : Eng) (r : Run) (k : BitVec 5) (bound : BitVec 13) (len : BitVec 8),
     let x := s.chip.eng e
     let n := min (x.getG k.toNat).toNat bound.toNat
     (s.chip.ready e r (.loop e k bound len)) ∧
     (x.loops.length ≠ 4) ∧
     ((x.loops.head?.all fun l => decide (x.pc + len.toNat ≤ l.stop)) = true) ∧
     (n ≠ 0)) ∧
    (∃ (s : State) (e : Eng) (r : Run) (k : BitVec 5) (bound : BitVec 13) (len : BitVec 8),
     let x := s.chip.eng e
     let n := min (x.getG k.toNat).toNat bound.toNat
     (s.chip.ready e r (.loop e k bound len)) ∧
     (x.loops.length ≠ 4) ∧
     ((x.loops.head?.all fun l => decide (x.pc + len.toNat ≤ l.stop)) = true) ∧
     (n = 0)) ∧
    (∃ (bound : BitVec 13) (len : BitVec 8),
     ((bound = 0 ∨ len = 0))) :=
  ⟨⟨s3, 3, tRun, 1, 3, 3, by decide +kernel⟩,
   ⟨s3, 3, tRun, 1, 7, 2, by decide +kernel⟩,
   ⟨s3, 3, tRun, 2, 3, 2, by decide +kernel⟩,
   ⟨0, 3, by decide +kernel⟩⟩

/-- Each clause of WordEnd (obligation ControlFlow): a machine and operands that meet its hypotheses. -/
theorem test_meets_WordEnd :
    (∃ (l : Level) (n : Nat),
     (n ≠ l.stop)) ∧
    (∃ (l : Level),
     (1 < l.left)) ∧
    (∃ (l : Level),
     (l.left ≤ 1)) ∧
    (∃ (ls : List Level) (n : Nat),
     ((∀ l ∈ ls, l.stop = n ∧ l.left ≤ 1))) :=
  ⟨⟨(⟨2, 6, 2, 0⟩ : Level), 5, by decide +kernel⟩,
   ⟨(⟨2, 6, 2, 0⟩ : Level), by decide +kernel⟩,
   ⟨(⟨2, 6, 1, 0⟩ : Level), by decide +kernel⟩,
   ⟨[⟨2, 6, 1, 0⟩, ⟨1, 6, 1, 4⟩], 6, by decide +kernel⟩⟩

/-- Each clause of VectorGroup (obligation VectorsAndSyndromes): a machine and operands that meet its hypotheses. -/
theorem test_meets_VectorGroup :
    (∃ (s : State) (e : Eng) (r : Run) (vd va vb : BitVec 4) (g : BitVec 5),
     (s.chip.ready e r (.pxor e vd va vb g))) ∧
    (∃ (s : State) (e : Eng) (r : Run) (vd va vb : BitVec 4) (g : BitVec 5),
     (s.chip.ready e r (.vzero e vd va vb g))) ∧
    (∃ (s : State) (e : Eng) (r : Run) (vd va vb : BitVec 4) (g : BitVec 5),
     (s.chip.ready e r (.vmov e vd va vb g))) ∧
    (∃ (s : State) (e : Eng) (r : Run) (vd va vb : BitVec 4) (g : BitVec 5),
     (s.chip.ready e r (.gfmul e vd va vb g))) ∧
    (∃ (s : State) (e : Eng) (r : Run) (vd va vb : BitVec 4) (g : BitVec 5),
     (s.chip.ready e r (.gfmac e vd va vb g))) ∧
    (∃ (s : State) (e : Eng) (r : Run) (vd va vb : BitVec 4) (g : BitVec 5),
     (s.chip.ready e r (.synd e vd va vb g))) ∧
    (∃ (s : State) (e : Eng) (r : Run) (vd va vb : BitVec 4) (g : BitVec 5),
     (s.chip.ready e r (.vext e vd va vb g))) ∧
    (∃ (s : State) (e : Eng) (r : Run) (vd va vb : BitVec 4) (g : BitVec 5),
     (s.chip.ready e r (.vins e vd va vb g))) ∧
    (∃ (s : State) (e : Eng) (r : Run) (vd va vb : BitVec 4) (g : BitVec 5),
     (s.chip.ready e r (.vbcast e vd va vb g))) ∧
    (∃ (va vb : BitVec 4) (g : BitVec 5),
     ((va ≠ 0 ∨ vb ≠ 0 ∨ g ≠ 0))) ∧
    (∃ (vd vb : BitVec 4),
     (vd = vb)) ∧
    (∃ (vb : BitVec 4),
     (8 ≤ vb.toNat)) :=
  ⟨⟨s0, 3, tRun, 0, 3, 0, 0, by decide +kernel⟩,
   ⟨s0, 3, tRun, 1, 0, 0, 0, by decide +kernel⟩,
   ⟨s0, 3, tRun, 0, 3, 0, 0, by decide +kernel⟩,
   ⟨s0, 3, tRun, 3, 0, 0, 14, by decide +kernel⟩,
   ⟨s0, 3, tRun, 3, 0, 0, 14, by decide +kernel⟩,
   ⟨s0, 3, tRun, 3, 0, 1, 14, by decide +kernel⟩,
   ⟨s0, 3, tRun, 0, 0, 1, 14, by decide +kernel⟩,
   ⟨s0, 3, tRun, 3, 0, 1, 14, by decide +kernel⟩,
   ⟨s0, 3, tRun, 3, 0, 0, 14, by decide +kernel⟩,
   ⟨0, 1, 14, by decide +kernel⟩,
   ⟨0, 0, by decide +kernel⟩,
   ⟨9, by decide +kernel⟩⟩

/-- Each clause of GfScalarGroup (obligation GaloisField): a machine and operands that meet its hypotheses. -/
theorem test_meets_GfScalarGroup :
    (∃ (s : State) (e : Eng) (r : Run) (d a b : BitVec 5),
     (s.chip.ready e r (.gfmuls e d a b))) ∧
    (∃ (s : State) (e : Eng) (r : Run) (d a b : BitVec 5),
     (s.chip.ready e r (.gfinv e d a b))) ∧
    (∃ (s : State) (e : Eng) (r : Run) (d a b : BitVec 5),
     (s.chip.ready e r (.gfexp e d a b))) ∧
    (∃ (s : State) (e : Eng) (r : Run) (d a b : BitVec 5),
     (s.chip.ready e r (.gflog e d a b))) ∧
    (∃ (b : BitVec 5),
     (b ≠ 0)) :=
  ⟨⟨s0, 3, tRun, 5, 1, 2, by decide +kernel⟩,
   ⟨s0, 3, tRun, 5, 2, 0, by decide +kernel⟩,
   ⟨s0, 3, tRun, 5, 2, 0, by decide +kernel⟩,
   ⟨s0, 3, tRun, 5, 2, 0, by decide +kernel⟩,
   ⟨2, by decide +kernel⟩⟩

/-- Each clause of GfField (obligation GaloisField): a machine and operands that meet its hypotheses. -/
theorem test_meets_GfField :
    ∃ a : Byte,
    (a ≠ 0) :=
  ⟨(0xFF : Byte), by decide +kernel⟩

end Sys2Proof.Tests.W01

namespace Sys2Proof.Tests.W01b
open Sys2Proof.Machine
set_option maxRecDepth 100000
set_option Elab.async false

def s1 : State := tE 3 x0

def s2 : State := mk { tChip with engines := [(3, { x0 with g := [(1, 0x1000), (2, 0x20040),(3, 0x40080)] , run := some tRunL })], stg := [(0x1001, 3)], hbm := [(0x20100, 5)] }

def x5 : Engine := { x0 with g := [(0,0),(1, 0x2000),(2, 0x3000),(5, 0x1000),(6, 128), (7, 3), (8, 0), (9, 65)], run := some tRunL }

def s5 : State := mk { tChip with engines := [(3, x5)], stg := [(0x1001, 3), (0x2003, 7), (0x3077, 9)] }

/-- Each clause of LoadAndStore (obligation LoadsAndStores): a machine and operands that meet its hypotheses. -/
theorem test_meets_LoadAndStore_01b :
    ∃ (s : State) (e : Eng) (r : Run) (d a : BitVec 5) (sz : BitVec 2) (off : BitVec 14),
    let n : Nat := 2 ^ sz.toNat
    let ad := ((s.chip.eng e).getG a.toNat + BitVec.ofInt 64 (off.toInt * n)).toNat
    (s.chip.ready e r (.st e d a sz off)) ∧
    (ad % n = 0) ∧
    (r.inside e 0 ad n true = true) :=
  ⟨s1, 3, tRunL, 3, 1, 3, 1, by decide +kernel⟩

/-- Each clause of SyndromeRun (obligation VectorsAndSyndromes): a machine and operands that meet its hypotheses. -/
theorem test_meets_SyndromeRun :
    (∃ (s : State) (e : Eng) (r : Run) (d a b k : BitVec 5) (mode : BitVec 2) (ssp dsp : Bool),
     let x := s.chip.eng e
     let n := (x.getG b.toNat).toNat
     let i := Instr.syndb e d a b k mode ssp dsp
     (s.chip.ready e r i) ∧
     (r.tooLong x.pc n = false) ∧
     (n % 64 ≠ 0 ∨ 262144 < n)) ∧
    (∃ (s : State) (e : Eng) (r : Run) (d a b k : BitVec 5) (mode : BitVec 2) (ssp dsp : Bool),
     let x := s.chip.eng e
     let p := (x.getG d.toNat).toNat
     let q := (x.getG (d.toNat + 1)).toNat
     let src := (x.getG a.toNat).toNat
     let n := (x.getG b.toNat).toNat
     let i := Instr.syndb e d a b k mode ssp dsp
     (s.chip.ready e r i) ∧
     (r.tooLong x.pc n = false) ∧
     (n = 0) ∧
     (src % 64 = 0) ∧
     (p % 64 = 0) ∧
     (q % 64 = 0)) ∧
    (∃ (s : State) (e : Eng) (r : Run) (d a b k : BitVec 5) (mode : BitVec 2) (ssp dsp : Bool),
     let x := s.chip.eng e
     let p := (x.getG d.toNat).toNat
     let q := (x.getG (d.toNat + 1)).toNat
     let src := (x.getG a.toNat).toNat
     let n := (x.getG b.toNat).toNat
     let ss := if ssp then 2 else 1
     let ds := if dsp then 2 else 1
     let i := Instr.syndb e d a b k mode ssp dsp
     (s.chip.ready e r i) ∧
     (r.tooLong x.pc n = false) ∧
     (n % 64 = 0) ∧
     (n ≤ 262144) ∧
     (src % 64 = 0) ∧
     (p % 64 = 0) ∧
     (q % 64 = 0) ∧
     (r.inside e ss src n false = true) ∧
     (r.inside e ds p n false = true) ∧
     (r.inside e ds p n true = true) ∧
     (r.inside e ds q n false = true) ∧
     (r.inside e ds q n true = true) ∧
     ((p + n ≤ q ∨ q + n ≤ p)) ∧
     ((ss ≠ ds ∨ ((p + n ≤ src ∨ src + n ≤ p) ∧ (q + n ≤ src ∨ src + n ≤ q))))) :=
  ⟨⟨s5, 3, tRunL, 1, 5, 9, 7, 3, true, false, by decide +kernel⟩,
   ⟨s5, 3, tRunL, 1, 5, 8, 7, 3, true, false, by decide +kernel⟩,
   ⟨s5, 3, tRunL, 1, 5, 6, 7, 0, false, false, by decide +kernel⟩⟩

end Sys2Proof.Tests.W01b
end

