-- ==== Sys2Proof/Tests/Witness02.lean ====
section
/-! SUPPORT. Machines and operands that meet the hypotheses of the statements, clause by clause. -/

namespace Sys2Proof.Tests.W02
open Sys2Proof.Machine
set_option maxRecDepth 100000
set_option Elab.async false

def eX (x : Engine) : State := tE 3 x

def descB (last : Bool) (src dst len : Nat) (op := 1) (first := true) : List Byte := [BitVec.ofNat 8 op, BitVec.ofNat 8 (b2n first + 2 * b2n last), BitVec.ofNat 8 (1 + 8*1), 0] ++ leBytes 4 len ++ leBytes 8 src ++ leBytes 8 dst ++ leBytes 8 0

def d1 := descB true 0x100 0x200 64

def d2 := descB false 0x100 0x200 64

def d3 := descB true 0x300 0x400 64 1 false

def d4 := descB true 0x100 0x110 64 2

def xs (l : List Byte) : Engine := { x0 with g := [(1,0x1000),(2,9),(3,10)], lm := memOf 0x1000 l }

def it1 : Item := { seq := 5, handle := 77, source := 0, slot := 0, ep := 0, port := 1, origin := 64 + 3, pos := 2, body := 0x1234 }

def it2 : Item := { it1 with ep := 1 }

def slots0 : Tab Slot := [(0, { cur := some tRunL.image })]

def sT (i : List Item) : State := mk { tChip with engines := [(2, {}), (3, { x0 with queue := i, slots := slots0 })], funcs := [(67, { queues := [(2, { work := [{pos := 2, entry := 0, seq := 5, left := 1}] })]})] }

def jr : List Byte := [1, 1, 2, 0] ++ List.replicate 28 7

def sJ (q h t iss : Nat) : State := mk { tChip with engines := [(3, { x0 with lm := memOf 0x1000 jr, g := [(1, 0x1000), (2, 32)], issued := iss })], arrays := [(2, { made := true })], cache := { pairQ := q }, hbm := hb (ringAt 2) (leBytes 8 h ++ leBytes 8 t), par := { role := .active } }

def sM (r : Role) (n : Nat) : State := mk { tChip with engines := [(3, { x0 with g := [(1, 0x1000), (2, BitVec.ofNat 64 n)], issued := 4 })], cache := { pairQ := 8 }, par := { role := r } }

def sL (r : Role) (t : W64) : State := mk { tChip with engines := [(3, { x0 with g := [(1, t)], issued := 9, confirmed := 4, landed := [(3, 55, true)] })], par := { role := r } }

def sC (h st : W64) : State := mk { tChip with engines := [(3, { x0 with g := [(1, h), (2, st)], run := some { tRunL with taken := [it1] } })] }

def rC : Run := { tRunL with taken := [it1] }

def hc (l : Nat) : Chip := { tChip with funcs := [(67, { queues := [(2, { work := [{pos := 1, entry := 0, seq := 4, left := 1}, {pos := 2, entry := 0, seq := 5, left := l, begun := true}] })]})] }

/-- Each clause of ShuttleIssue (obligation ShuttleIssue): a machine and operands that meet its hypotheses. -/
theorem test_meets_ShuttleIssue :
    (∃ (s : State) (e : Eng) (r : Run) (d a b : BitVec 5),
     let x := s.chip.eng e
     let n := (x.getG b.toNat).toNat
     (s.chip.ready e r (.shut e d a b)) ∧
     (n < 64) ∧
     (r.channelOk e n = true) ∧
     ((s.chip.chan n).state ≠ .idle)) ∧
    (∃ (s : State) (e : Eng) (r : Run) (d a b : BitVec 5) (ds : List Desc),
     let x := s.chip.eng e
     let n := (x.getG b.toNat).toNat
     let ad := (x.getG a.toNat).toNat
     (s.chip.ready e r (.shut e d a b)) ∧
     (n < 64) ∧
     (r.channelOk e n = true) ∧
     ((s.chip.chan n).state = .idle) ∧
     (s.chip.chainAt e 16 ad true = some ds) ∧
     (r.tooLong x.pc ds.length = false) ∧
     (ad % 32 = 0) ∧
     (r.inside e 0 ad (32 * ds.length) false = true) ∧
     ((∀ q ∈ ds, q.fieldsOk = true ∧ q.inside r e = true ∧ q.hostOk r = true)) ∧
     ((∃ q ∈ ds, q.overlaps = true))) ∧
    (∃ (s : State) (e : Eng) (r : Run) (d a b : BitVec 5) (ds : List Desc),
     let x := s.chip.eng e
     let n := (x.getG b.toNat).toNat
     let ad := (x.getG a.toNat).toNat
     (s.chip.ready e r (.shut e d a b)) ∧
     (n < 64) ∧
     (r.channelOk e n = true) ∧
     ((s.chip.chan n).state = .idle) ∧
     (s.chip.chainAt e 16 ad true = some ds) ∧
     (r.tooLong x.pc ds.length = false) ∧
     (ad % 32 = 0) ∧
     (r.inside e 0 ad (32 * ds.length) false = true) ∧
     ((∀ q ∈ ds, q.fieldsOk = true ∧ q.inside r e = true ∧ q.hostOk r = true)) ∧
     ((∀ q ∈ ds, q.overlaps = false))) :=
  ⟨⟨mk { tChip with engines := [(3, xs d1)], channels := [(9, {state := .paused})] }, 3, tRunL, 5, 1, 2, by decide +kernel⟩,
   ⟨eX (xs d4), 3, tRunL, 5, 1, 2, [descOf d4], by decide +kernel⟩,
   ⟨eX (xs d1), 3, tRunL, 5, 1, 2, [descOf d1], by decide +kernel⟩⟩

/-- Each clause of TakeItem (obligation ItemsReachPrograms): a machine and operands that meet its hypotheses. -/
theorem test_meets_TakeItem :
    (∃ (s : State) (e : Eng) (r : Run) (d a b : BitVec 5),
     let x := s.chip.eng e
     let ad := (x.getG a.toNat).toNat
     (s.chip.ready e r (.take e d a b)) ∧
     (ad % 32 = 0) ∧
     (r.inside e 0 ad 96 true = true) ∧
     ((∀ i, s.chip.nextItem e = some i → s.chip.takeable e r i = false))) ∧
    (∃ (s : State) (e : Eng) (r : Run) (d a b : BitVec 5),
     let x := s.chip.eng e
     let ad := (x.getG a.toNat).toNat
     (s.chip.ready e r (.take e d a b)) ∧
     (ad % 32 = 0) ∧
     (r.inside e 0 ad 96 true = true) ∧
     ∃ i,
     (s.chip.nextItem e = some i) ∧
     (s.chip.takeable e r i = true)) :=
  ⟨⟨sT [it2], 3, tRunL, 5, 1, 0, by decide +kernel⟩,
   ⟨sT [it1], 3, tRunL, 5, 1, 0, by decide +kernel, by decide +kernel, by decide +kernel, _, rfl, by decide +kernel⟩⟩

/-- Each clause of JournalAppend (obligation TicketsAreTaken): a machine and operands that meet its hypotheses. -/
theorem test_meets_JournalAppend :
    (∃ (s : State) (e : Eng) (r : Run) (d a b : BitVec 5),
     let x := s.chip.eng e
     let ad := (x.getG a.toNat).toNat
     let n := (x.getG b.toNat).toNat
     let f (o : Nat) : Nat := (x.lmByte (ad + o)).toNat
     let arr := f 2
     (s.chip.ready e r (.jrnl e d a b)) ∧
     (n % 32 = 0) ∧
     (32 ≤ n) ∧
     (n ≤ 256) ∧
     (r.tooLong x.pc n = false) ∧
     (ad % 32 = 0) ∧
     (r.inside e 0 ad n false = true) ∧
     (32 * f 1 = n) ∧
     (arr < 16) ∧
     ((s.chip.arr arr).made = true) ∧
     (jrnlType (f 0) = true) ∧
     ((s.chip.cache.pairQ = 0 ∨ s.chip.ringFree arr < n))) ∧
    (∃ (s : State) (e : Eng) (r : Run) (d a b : BitVec 5),
     let x := s.chip.eng e
     let ad := (x.getG a.toNat).toNat
     let n := (x.getG b.toNat).toNat
     let f (o : Nat) : Nat := (x.lmByte (ad + o)).toNat
     let arr := f 2
     (s.chip.ready e r (.jrnl e d a b)) ∧
     (n % 32 = 0) ∧
     (32 ≤ n) ∧
     (n ≤ 256) ∧
     (r.tooLong x.pc n = false) ∧
     (ad % 32 = 0) ∧
     (r.inside e 0 ad n false = true) ∧
     (32 * f 1 = n) ∧
     (arr < 16) ∧
     ((s.chip.arr arr).made = true) ∧
     (jrnlType (f 0) = true) ∧
     (s.chip.cache.pairQ ≠ 0) ∧
     (n ≤ s.chip.ringFree arr)) :=
  ⟨⟨sJ 0 0x100 0 4, 3, tRunL, 5, 1, 2, by decide +kernel⟩,
   ⟨sJ 8 0x100 0 4, 3, tRunL, 5, 1, 2, by decide +kernel⟩⟩

/-- Each clause of MirrorRange (obligation TicketsAreTaken): a machine and operands that meet its hypotheses. -/
theorem test_meets_MirrorRange :
    (∃ (s : State) (e : Eng) (r : Run) (d a b : BitVec 5),
     let x := s.chip.eng e
     let ad := (x.getG a.toNat).toNat
     let n := (x.getG b.toNat).toNat
     (s.chip.ready e r (.mirr e d a b)) ∧
     (n % 64 = 0) ∧
     (64 ≤ n) ∧
     (n ≤ 0x1000000) ∧
     (ad % 64 = 0) ∧
     (ad + n ≤ s.chip.cache.pairQ * 0x10000000)) ∧
    (∃ x : Engine,
     (x.issued < 2 ^ 48 - 1)) ∧
    (∃ x : Engine,
     (x.issued = 2 ^ 48 - 1)) :=
  ⟨⟨sM .active 0x2000, 3, tRunL, 5, 1, 2, by decide +kernel⟩,
   ⟨{ issued := 2 ^ 48 - 2 }, by decide +kernel⟩,
   ⟨{ issued := 2 ^ 48 - 1 }, by decide +kernel⟩⟩

/-- Each clause of LandOutcomes (obligation TicketsLand): a machine and operands that meet its hypotheses. -/
theorem test_meets_LandOutcomes :
    (∃ (s : State) (e : Eng) (r : Run) (d a : BitVec 5) (lim : BitVec 13),
     let x := s.chip.eng e
     let t := (x.getG a.toNat).toNat
     (s.chip.ready e r (.land e d a lim)) ∧
     (t = 0 ∨ 2 ^ 48 ≤ t ∨ timeDiff x.issued t < 0)) ∧
    (∃ (s : State) (e : Eng) (r : Run) (d a : BitVec 5) (lim : BitVec 13),
     let x := s.chip.eng e
     let t := (x.getG a.toNat).toNat
     (s.chip.ready e r (.land e d a lim)) ∧
     (t ≠ 0) ∧
     (t < 2 ^ 48) ∧
     (0 ≤ timeDiff x.issued t) ∧
     (0 ≤ timeDiff x.confirmed t)) ∧
    (∃ (s : State) (e : Eng) (r : Run) (d a : BitVec 5) (lim : BitVec 13),
     let x := s.chip.eng e
     let t := (x.getG a.toNat).toNat
     (s.chip.ready e r (.land e d a lim)) ∧
     (t ≠ 0) ∧
     (t < 2 ^ 48) ∧
     (0 ≤ timeDiff x.issued t) ∧
     (timeDiff x.confirmed t < 0) ∧
     (s.chip.par.role = .fenced ∨ s.chip.par.role = .standby)) ∧
    (∃ (s : State) (e : Eng) (r : Run) (d a : BitVec 5) (lim : BitVec 13),
     let x := s.chip.eng e
     let t := (x.getG a.toNat).toNat
     (s.chip.ready e r (.land e d a lim)) ∧
     (t ≠ 0) ∧
     (t < 2 ^ 48) ∧
     (0 ≤ timeDiff x.issued t) ∧
     (timeDiff x.confirmed t < 0) ∧
     (s.chip.par.role = .active ∨ s.chip.par.role = .alone) ∧
     (lim = 0)) ∧
    (∃ (s : State) (e : Eng) (r : Run) (d a : BitVec 5) (lim : BitVec 13),
     let x := s.chip.eng e
     let t := (x.getG a.toNat).toNat
     (s.chip.ready e r (.land e d a lim)) ∧
     (t ≠ 0) ∧
     (t < 2 ^ 48) ∧
     (0 ≤ timeDiff x.issued t) ∧
     (timeDiff x.confirmed t < 0) ∧
     (s.chip.par.role = .active ∨ s.chip.par.role = .alone) ∧
     (lim ≠ 0)) ∧
    (∃ (s : State),
     ∃ (n : Se) (k u : Nat),
     (s.chip.clocked = true) ∧
     ((s.chip.eng n).wait = some (.land k u))) :=
  ⟨⟨sL .active 0, 3, tRunL, 5, 1, 0, by decide +kernel⟩,
   ⟨sL .active 3, 3, tRunL, 5, 1, 0, by decide +kernel⟩,
   ⟨sL .fenced 5, 3, tRunL, 5, 1, 0, by decide +kernel⟩,
   ⟨sL .active 5, 3, tRunL, 5, 1, 0, by decide +kernel⟩,
   ⟨sL .alone 5, 3, tRunL, 5, 1, 4, by decide +kernel⟩,
   ⟨mk { tChip with engines := [(3, { x0 with wait := some (.land 7 5) })] }, 3, _, _, by decide +kernel, rfl⟩⟩

/-- Each clause of CompleteItem (obligation ItemsComplete): a machine and operands that meet its hypotheses. -/
theorem test_meets_CompleteItem :
    (∃ (d : BitVec 5),
     (d ≠ 0)) ∧
    (∃ (s : State) (e : Eng) (r : Run) (d a b : BitVec 5),
     let x := s.chip.eng e
     let h := (x.getG a.toNat).toNat
     let st := (x.getG b.toNat).toNat
     (s.chip.ready e r (.cmpl e d a b)) ∧
     ∃ i ∈ r.taken,
     (i.handle = h) ∧
     (r.taken.find? (fun j => j.handle == h) = some i) ∧
     (st < 256) ∧
     (reservedStatus st = false)) ∧
    (∃ (s : State) (e : Eng) (r : Run) (d a b : BitVec 5),
     let x := s.chip.eng e
     let h := (x.getG a.toNat).toNat
     (s.chip.ready e r (.cmpl e d a b)) ∧
     ((∀ i ∈ r.taken, i.handle ≠ h))) ∧
    (∃ (s : State) (e : Eng) (r : Run) (d a b : BitVec 5),
     let x := s.chip.eng e
     let st := (x.getG b.toNat).toNat
     (s.chip.ready e r (.cmpl e d a b)) ∧
     (256 ≤ st)) :=
  ⟨⟨1, by decide +kernel⟩,
   ⟨sC 77 0, 3, rC, 0, 1, 2, by decide +kernel, _, by decide +kernel, by decide +kernel, rfl, by decide +kernel⟩,
   ⟨sC 76 0, 3, rC, 0, 1, 2, by decide +kernel⟩,
   ⟨sC 77 0x100, 3, rC, 0, 1, 2, by decide +kernel⟩⟩

/-- Each clause of HostItemCompletion (obligation ItemsComplete): a machine and operands that meet its hypotheses. -/
theorem test_meets_HostItemCompletion :
    (∃ (i : Item),
     (i.source = 0)) ∧
    (∃ (i : Item),
     (i.source = 0) ∧
     let f := 64 * i.port + i.origin % 64
     ∃ o,
     (o ≠ f)) :=
  ⟨⟨it1, by decide +kernel⟩,
   ⟨it1, by decide +kernel, 0, by decide +kernel⟩⟩

end Sys2Proof.Tests.W02

namespace Sys2Proof.Tests.W02b
open Sys2Proof.Machine
set_option maxRecDepth 100000
set_option Elab.async false

def it1 : Item := { seq := 5, handle := 77, source := 0, slot := 0, ep := 0, port := 1, origin := 64 + 3, pos := 2, body := 0x1234 }

def cA (h : Nat) (hold : Bool) : Chip := { tChip with ports := [(2, { heddles := h, hold := hold, wakes := [(3, 17)], tx := none })] }

def sP : State := mk { tChip with pulses := [8, 9], engines := [(3, { xw with wait := some (.waite 4 8) }), (4, { xw with wait := some (.waite 4 9), pend := [(8, 65534)] }), (5, { xw with wait := some (.land 4 8) })] }

def sI : State := mk { tChip with engines := [(2, {issued := 4}), (3, { xw with run := none, queue := [it1, {it1 with handle := 5, seq := 6}], slots := [(0, { cur := some tImg })], issued := 3, loops := [⟨1,2,3,4⟩] })], funcs := [(67, { queues := [(2, { work := [{pos := 2, entry := 0, seq := 5, left := 1}] })]})] }

def sTk (r : Role) : State := mk { tChip with par := { role := r }, engines := [(3, { xw with tickets := [{num := 6}], confirmed := 5, issued := 6, landed := [(5, (3,false))] })] }

/-- Each clause of EventWaits (obligation EngineWaits): a machine and operands that meet its hypotheses. -/
theorem test_meets_EventWaits :
    (∃ (s : State) (e : Eng) (r : Run) (d : BitVec 5) (line : BitVec 8) (lim : BitVec 13),
     let x := s.chip.eng e
     let n := x.getPend line.toNat
     (s.chip.ready e r (.waite e d line lim)) ∧
     (0 < n)) ∧
    (∃ (s : State) (e : Eng) (r : Run) (d : BitVec 5) (line : BitVec 8) (lim : BitVec 13),
     let x := s.chip.eng e
     let n := x.getPend line.toNat
     (s.chip.ready e r (.waite e d line lim)) ∧
     (n = 0) ∧
     (lim = 0)) ∧
    (∃ (s : State) (e : Eng) (r : Run) (d : BitVec 5) (line : BitVec 8) (lim : BitVec 13),
     let x := s.chip.eng e
     let n := x.getPend line.toNat
     (s.chip.ready e r (.waite e d line lim)) ∧
     (n = 0) ∧
     (lim ≠ 0)) ∧
    (∃ (s : State) (e : Eng),
     let x := s.chip.eng e
     ∃ k l,
     (s.chip.clocked = true) ∧
     (x.wait = some (.waite k l))) ∧
    (∃ (s : State) (e : Eng) (r : Run) (d : BitVec 5) (line : BitVec 8),
     (s.chip.ready e r (.pend e d line))) ∧
    (∃ (s : State) (e : Eng) (r : Run) (d : BitVec 5) (line : BitVec 8),
     (s.chip.ready e r (.clre e d line))) :=
  ⟨⟨sW xw, 3, tRunL, 5, 9, 0, by decide +kernel⟩,
   ⟨sW xw, 3, tRunL, 5, 8, 0, by decide +kernel⟩,
   ⟨sW xw, 18, tRunL, 5, 8, 7, by decide +kernel⟩,
   ⟨sW { xw with wait := some (.waite 4 8) }, 18, _, _, by decide +kernel, rfl⟩,
   ⟨sW xw, 3, tRunL, 5, 9, by decide +kernel⟩,
   ⟨sW xw, 3, tRunL, 5, 9, by decide +kernel⟩⟩

/-- Each clause of TimeWaits (obligation EngineWaits): a machine and operands that meet its hypotheses. -/
theorem test_meets_TimeWaits :
    (∃ (s : State) (e : Eng) (r : Run) (d a : BitVec 5) (lim : BitVec 13),
     let i := Instr.waitt e d a lim
     (s.chip.ready e r i) ∧
     (s.chip.timeValid = false)) ∧
    (∃ (s : State) (e : Eng) (r : Run) (d a : BitVec 5) (lim : BitVec 13),
     let x := s.chip.eng e
     let t := (x.getG a.toNat).toNat / 2 ^ 16
     let df := timeDiff t s.chip.nowNs
     let i := Instr.waitt e d a lim
     (s.chip.ready e r i) ∧
     (s.chip.timeValid = true) ∧
     (df < 0)) ∧
    (∃ (s : State) (e : Eng) (r : Run) (d a : BitVec 5) (lim : BitVec 13),
     let x := s.chip.eng e
     let t := (x.getG a.toNat).toNat / 2 ^ 16
     let df := timeDiff t s.chip.nowNs
     let i := Instr.waitt e d a lim
     (s.chip.ready e r i) ∧
     (s.chip.timeValid = true) ∧
     (df = 0)) ∧
    (∃ (s : State) (e : Eng) (r : Run) (d a : BitVec 5) (lim : BitVec 13),
     let x := s.chip.eng e
     let t := (x.getG a.toNat).toNat / 2 ^ 16
     let df := timeDiff t s.chip.nowNs
     let i := Instr.waitt e d a lim
     (s.chip.ready e r i) ∧
     (s.chip.timeValid = true) ∧
     (0 < df) ∧
     (e.val < 16) ∧
     (lim = 0)) ∧
    (∃ (s : State) (e : Eng) (r : Run) (d a : BitVec 5) (lim : BitVec 13),
     let x := s.chip.eng e
     let t := (x.getG a.toNat).toNat / 2 ^ 16
     let df := timeDiff t s.chip.nowNs
     let i := Instr.waitt e d a lim
     (s.chip.ready e r i) ∧
     (s.chip.timeValid = true) ∧
     (0 < df) ∧
     ((16 ≤ e.val ∨ lim ≠ 0))) ∧
    (∃ (s : State) (e : Eng),
     let x := s.chip.eng e
     ∃ k u,
     (s.chip.clocked = true) ∧
     (x.wait = some (.waitt k u))) ∧
    (∃ (s : State) (e : Eng),
     let x := s.chip.eng e
     ∃ k u,
     (s.chip.clocked = true) ∧
     (x.wait = some (.waitt k u)) ∧
     (e.val < 16)) :=
  ⟨⟨sW xw (cT 1000 .unset), 3, tRunL, 5, 1, 0, by decide +kernel⟩,
   ⟨sW xw (cT 1001), 3, tRunL, 5, 1, 0, by decide +kernel⟩,
   ⟨sW xw (cT 1000), 3, tRunL, 5, 1, 0, by decide +kernel⟩,
   ⟨sW xw (cT 900), 3, tRunL, 5, 1, 0, by decide +kernel⟩,
   ⟨sW xw (cT 900), 3, tRunL, 5, 1, 8, by decide +kernel⟩,
   ⟨sW { xw with wait := some (.waitt 4 1000) } (cT 900), 18, _, _, by decide +kernel, rfl⟩,
   ⟨sW { xw with wait := some (.waitt 4 1000) } (cT 900), 3, _, _, by decide +kernel, rfl, by decide +kernel⟩⟩

/-- Each clause of ReadTimeAndStatus (obligation EngineStatusAndEnd): a machine and operands that meet its hypotheses. -/
theorem test_meets_ReadTimeAndStatus :
    (∃ (s : State) (e : Eng) (r : Run) (d : BitVec 5),
     (s.chip.ready e r (.rdt e d 0 0))) ∧
    (∃ a b : BitVec 5,
     ((12 ≤ a.toNat ∨ b ≠ 0))) :=
  ⟨⟨sW { xw with loops := [⟨1,9,2,5⟩, ⟨1,10,2,6⟩], issued := 5, confirmed := 3, cycleNo := 44 } (cT 1000), 3, tRunL, 5, by decide +kernel⟩,
   ⟨12, 0, by decide +kernel⟩⟩

/-- Each clause of ProgramEnd (obligation EngineStatusAndEnd): a machine and operands that meet its hypotheses. -/
theorem test_meets_ProgramEnd :
    (∃ (s : State) (e : Eng) (r : Run) (imm : BitVec 16),
     (s.chip.ready e r (.endP e imm)) ∧
     (e.val < 16) ∧
     (r.taken = [])) ∧
    (∃ (s : State) (e : Eng) (r : Run) (imm : BitVec 16),
     (s.chip.ready e r (.endP e imm)) ∧
     (e.val < 16) ∧
     (r.taken ≠ [])) ∧
    (∃ (s : State) (e : Eng) (r : Run) (imm : BitVec 16),
     (s.chip.ready e r (.endP e imm)) ∧
     (16 ≤ e.val)) ∧
    (∃ (s : State) (e : Eng) (r : Run) (imm : BitVec 16),
     (s.chip.ready e r (.faultP e imm))) ∧
    (∃ (s : State) (e : Eng) (r : Run) (imm : BitVec 16),
     (s.chip.ready e r (.nop e imm))) :=
  ⟨⟨sW xw, 3, tRunL, 0, by decide +kernel⟩,
   ⟨sW { xw with run := some { tRunL with taken := [it1] } }, 3, { tRunL with taken := [it1] }, 0, by decide +kernel⟩,
   ⟨sW xw, 18, tRunL, 0, by decide +kernel⟩,
   ⟨sW xw, 3, tRunL, 0, by decide +kernel⟩,
   ⟨sW xw, 3, tRunL, 0, by decide +kernel⟩⟩

/-- Each clause of ActionsAtOnce (obligation EngineActions): a machine and operands that meet its hypotheses. -/
theorem test_meets_ActionsAtOnce :
    (∃ (s : State) (e : Eng) (r : Run) (imm : BitVec 16),
     let x := s.chip.eng e
     (((x.anchor.all fun a => decide (8 ≤ a.2)) = true)) ∧
     (s.chip.ready e r (.gate e imm))) ∧
    (∃ (s : State) (e : Eng) (r : Run) (imm : BitVec 16),
     let x := s.chip.eng e
     (((x.anchor.all fun a => decide (8 ≤ a.2)) = true)) ∧
     (s.chip.ready e r (.hold e imm))) ∧
    (∃ (s : State) (e : Eng) (r : Run) (imm : BitVec 16),
     let x := s.chip.eng e
     let n := imm.toNat
     (((x.anchor.all fun a => decide (8 ≤ a.2)) = true)) ∧
     (s.chip.ready e r (.wake e imm)) ∧
     (256 ≤ n)) ∧
    (∃ (s : State) (e : Eng) (r : Run) (imm : BitVec 16),
     let x := s.chip.eng e
     let n := imm.toNat
     (((x.anchor.all fun a => decide (8 ≤ a.2)) = true)) ∧
     (s.chip.ready e r (.wake e imm)) ∧
     (n < 256) ∧
     (s.chip.pwr.waking = 0) ∧
     (s.chip.pwr.gated = 0)) ∧
    (∃ (s : State) (e : Eng) (r : Run) (imm : BitVec 16),
     let x := s.chip.eng e
     (((x.anchor.all fun a => decide (8 ≤ a.2)) = true)) ∧
     (s.chip.ready e r (.sig e imm)) ∧
     (e.val < 16)) ∧
    (∃ (s : State) (e : Eng) (r : Run) (imm : BitVec 16),
     let x := s.chip.eng e
     let n := imm.toNat
     (((x.anchor.all fun a => decide (8 ≤ a.2)) = true)) ∧
     (s.chip.ready e r (.sig e imm)) ∧
     (16 ≤ e.val) ∧
     (n ≠ 7)) ∧
    (∃ (s : State) (e : Eng) (r : Run) (imm : BitVec 16),
     let x := s.chip.eng e
     let n := imm.toNat
     (((x.anchor.all fun a => decide (8 ≤ a.2)) = true)) ∧
     (s.chip.ready e r (.sig e imm)) ∧
     (16 ≤ e.val) ∧
     (n = 7)) ∧
    (∃ (s : State) (e : Eng) (r : Run) (imm : BitVec 16),
     let x := s.chip.eng e
     (((x.anchor.all fun a => decide (8 ≤ a.2)) = true)) ∧
     (s.chip.ready e r (.snapt e imm))) :=
  ⟨⟨sW xw (cA 0xA5 false), 18, tRunL, 0x0F3C, by decide +kernel⟩,
   ⟨sW xw (cA 0xA5 true), 18, tRunL, 1, by decide +kernel⟩,
   ⟨sW xw (cA 0xA5 true), 18, tRunL, 0x103, by decide +kernel⟩,
   ⟨sW xw (cA 0xA5 true), 18, tRunL, 1, by decide +kernel⟩,
   ⟨sW xw (cA 0xA5 true), 3, tRunL, 3, by decide +kernel⟩,
   ⟨sW xw (cA 0xA5 true), 18, tRunL, 1, by decide +kernel⟩,
   ⟨sW xw (cA 0xA5 true), 18, tRunL, 7, by decide +kernel⟩,
   ⟨sW xw (cA 0xA5 true), 18, tRunL, 1, by decide +kernel⟩⟩

/-- Each clause of AnchoredActionsWait (obligation EngineActions): a machine and operands that meet its hypotheses. -/
theorem test_meets_AnchoredActionsWait :
    (∃ (s : State) (e : Eng) (r : Run) (imm : BitVec 16) (t k : Nat),
     let x := s.chip.eng e
     (x.anchor = some (t, k)) ∧
     (k < 8) ∧
     ∃ q ∈ [(Instr.sig e imm, Action.sig imm.toNat), (.snapt e imm, .snapt imm.toNat), (.gate e imm, .gate imm.toNat),
                 (.hold e imm, .hold (imm.toNat % 2 == 1)), (.wake e imm, .wake (imm.toNat % 16) (bitAt imm.toNat 8))],
     (s.chip.ready e r q.1)) ∧
    (∃ (s : State) (e : Eng) (r : Run) (t k : Nat),
     let x := s.chip.eng e
     (x.anchor = some (t, k)) ∧
     (k < 8) ∧
     (s.chip.ready e r (.nop e 0))) :=
  ⟨⟨sW { xw with anchor := some (5, 7) } (cA 0xA5 true), 18, tRunL, 1, 5, 7, by decide +kernel, by decide +kernel, (.hold 18 1, .hold true), by decide +kernel⟩,
   ⟨sW { xw with anchor := some (5, 7) } (cA 0xA5 true), 18, tRunL, 5, 7, by decide +kernel⟩⟩

/-- Each clause of AnchoredActionActs (obligation EngineActions): a machine and operands that meet its hypotheses. -/
theorem test_meets_AnchoredActionActs :
    (∃ (s : State) (e : Eng) (t : Nat) (a : Action) (rest : List (Nat × Action)),
     (s.chip.clocked = true) ∧
     ((s.chip.eng e).actions = (t, a) :: rest) ∧
     (e.val < 16)) ∧
    (∃ (s : State) (e : Eng) (dev t : Nat) (a : Action) (rest : List (Nat × Action)),
     (s.chip.clocked = true) ∧
     ((s.chip.eng e).actions = (t, a) :: rest) ∧
     (16 ≤ e.val) ∧
     (dev ≤ 50)) ∧
    (∃ (s : State) (e : Eng) (dev t : Nat) (a : Action) (rest : List (Nat × Action)),
     (s.chip.clocked = true) ∧
     ((s.chip.eng e).actions = (t, a) :: rest) ∧
     (16 ≤ e.val) ∧
     (50 < dev)) :=
  ⟨⟨sW { xw with actions := [(1200, .sig 1)] } (cT 1000), 3, 1200, .sig 1, [], by decide +kernel⟩,
   ⟨sW { xw with actions := [(1200, .gate 0xFF0F), (1300, .sig 2)] } (cT 1000), 18, 40, 1200, .gate 0xFF0F, [(1300, .sig 2)], by decide +kernel⟩,
   ⟨sW { xw with actions := [(1200, .gate 0xFF0F), (1300, .sig 2)] } (cT 1000), 18, 70000, 1200, .gate 0xFF0F, [(1300, .sig 2)], by decide +kernel⟩⟩

/-- Each clause of PulseReachesEveryEngine (obligation EngineWaits): a machine and operands that meet its hypotheses. -/
theorem test_meets_PulseReachesEveryEngine :
    ∃ (s : State) (l : Nat) (rest : List Nat),
    (s.chip.clocked = true) ∧
    (s.chip.pulses = l :: rest) ∧
    ((∀ e : Eng, (s.chip.eng e).getPend l < 65535)) :=
  ⟨sP, 8, [9], by decide +kernel⟩

/-- Each clause of ItemStarts (obligation ItemsReachPrograms): a machine and operands that meet its hypotheses. -/
theorem test_meets_ItemStarts :
    ∃ (s : State) (e : Se) (i : Item) (m : Image),
    let x := s.chip.eng e
    (s.chip.clocked = true) ∧
    (s.chip.vault.stopped = false) ∧
    (x.run = none) ∧
    (x.faulted = false) ∧
    (s.chip.nextItem e = some i) ∧
    (s.chip.isGated e = false) ∧
    (s.chip.earlierEntry e i.seq = false) ∧
    (s.chip.imageOf e i.slot i.ep i.seq = some m) :=
  ⟨sI, 3, it1, tImg, by decide +kernel⟩

/-- Each clause of WatchdogFault (obligation EngineFaults): a machine and operands that meet its hypotheses. -/
theorem test_meets_WatchdogFault :
    (∃ (s : State) (e : Eng) (r : Run),
     (s.chip.clocked = true) ∧
     ((s.chip.eng e).run = some r) ∧
     ((s.chip.eng e).wait ≠ some .cycle) ∧
     ∃ w,
     (r.image.code[(s.chip.eng e).pc]? = some w)) ∧
    (∃ (s : State) (e : Eng) (r : Run),
     (s.chip.clocked = true) ∧
     ((s.chip.eng e).run = some r) ∧
     ((s.chip.eng e).wait ≠ some .cycle) ∧
     (r.image.code = [])) :=
  ⟨⟨sW { xw with run := some { tRun with image := { tImg with code := [1,2,3,4,0x55,6] } } }, 18, { tRun with image := { tImg with code := [1,2,3,4,0x55,6] } }, by decide +kernel, by decide +kernel, by decide +kernel, _, rfl⟩,
   ⟨sW xw, 3, tRunL, by decide +kernel⟩⟩

/-- Each clause of TicketLocalWrite (obligation TicketsLand): a machine and operands that meet its hypotheses. -/
theorem test_meets_TicketLocalWrite :
    (∃ (s : State),
     (s.chip.clocked = true) ∧
     (s.chip.par.role ≠ .alone)) ∧
    (∃ (s : State) (e : Se) (t : BitVec 48),
     (s.chip.clocked = true) ∧
     (s.chip.par.role = .alone) ∧
     ((s.chip.eng e).tickets = [{ num := t.toNat }]) ∧
     ((s.chip.eng e).wait = none)) :=
  ⟨⟨sTk .active, by decide +kernel⟩,
   ⟨sTk .alone, 3, 6, by decide +kernel⟩⟩

/-- Each clause of FetchFaults (obligation EngineFaults): a machine and operands that meet its hypotheses. -/
theorem test_meets_FetchFaults :
    (∃ (s : State) (e : Eng) (r : Run),
     let x := s.chip.eng e
     (x.run = some r) ∧
     (s.chip.executes e = true) ∧
     (x.haltPending = true)) ∧
    (∃ (s : State) (e : Eng) (r : Run),
     let x := s.chip.eng e
     (x.run = some r) ∧
     (s.chip.executes e = true) ∧
     (x.haltPending = false) ∧
     (r.image.codeWords ≤ x.pc)) ∧
    (∃ (s : State) (e : Eng) (r : Run) (d a b : BitVec 5),
     let x := s.chip.eng e
     let i := Instr.eq e d a b
     (x.run = some r) ∧
     (s.chip.executes e = true) ∧
     (x.haltPending = false) ∧
     (x.pc < r.image.codeWords) ∧
     (r.holds x.pc i = true) ∧
     (8 ≤ d.toNat)) ∧
    (∃ (s : State) (e : Eng) (r : Run) (d a b : BitVec 5),
     let x := s.chip.eng e
     let i := Instr.eq e d a b
     (x.run = some r) ∧
     (s.chip.executes e = true) ∧
     (x.haltPending = false) ∧
     (x.pc < r.image.codeWords) ∧
     (r.holds x.pc i = false)) :=
  ⟨⟨sW { xw with haltPending := true }, 3, tRunL, by decide +kernel⟩,
   ⟨sW { xw with pc := 64 }, 3, tRunL, by decide +kernel⟩,
   ⟨sW xw, 3, tRunL, 8, 2, 3, by decide +kernel⟩,
   ⟨sW { xw with run := some { tRun with image := { tImg with code := [1,2,3,4,0x55,6] } } }, 3, { tRun with image := { tImg with code := [1,2,3,4,0x55,6] } }, 1, 2, 3, by decide +kernel⟩⟩

end Sys2Proof.Tests.W02b

namespace Sys2Proof.Tests.W02c
open Sys2Proof.Machine
set_option maxRecDepth 100000
set_option Elab.async false

/-- Each clause of EngineFaultRecords (obligation EngineFaults): a machine and operands that meet its hypotheses. -/
theorem test_meets_EngineFaultRecords :
    (∃ (c : Chip) (e : Eng) (r : Run),
     ((c.eng e).run = some r) ∧
     (bitAt (c.enable (recEng e)) 3 = false) ∧
     (r.taken = []) ∧
     (e.val < 16)) ∧
    (∃ (c : Chip) (e : Eng) (r : Run),
     ((c.eng e).run = some r) ∧
     (bitAt (c.enable (recEng e)) 3 = false) ∧
     (r.taken = []) ∧
     (e.val < 16) ∧
     ∃ b,
     (b ≠ 3)) ∧
    (∃ (c : Chip) (e : Eng) (r : Run),
     ((c.eng e).run = some r) ∧
     (bitAt (c.enable (recEng e)) 3 = false) ∧
     (r.taken = []) ∧
     (e.val < 16) ∧
     ∃ o : Nat,
     (o ≠ e.val)) ∧
    (∃ (c : Chip) (e : Eng) (r : Run),
     ((c.eng e).run = some r) ∧
     (bitAt (c.enable (recEng e)) 3 = false) ∧
     (r.taken = []) ∧
     (e.val < 16) ∧
     ∃ o,
     (o ≠ recEng e)) :=
  ⟨⟨dis (recEng 3) (sW { xw with tickets := [{num := 6}], loops := [⟨1,2,3,4⟩] }).chip, 3, tRunL, by decide +kernel⟩,
   ⟨dis (recEng 3) (sW { xw with tickets := [{num := 6}], loops := [⟨1,2,3,4⟩] }).chip, 3, tRunL, by decide +kernel, by decide +kernel, by decide +kernel, by decide +kernel, 0, by decide +kernel⟩,
   ⟨dis (recEng 3) (sW { xw with tickets := [{num := 6}], loops := [⟨1,2,3,4⟩] }).chip, 3, tRunL, by decide +kernel, by decide +kernel, by decide +kernel, by decide +kernel, 4, by decide +kernel⟩,
   ⟨dis (recEng 3) (sW { xw with tickets := [{num := 6}], loops := [⟨1,2,3,4⟩] }).chip, 3, tRunL, by decide +kernel, by decide +kernel, by decide +kernel, by decide +kernel, 4, by decide +kernel⟩⟩

end Sys2Proof.Tests.W02c
end

