-- ==== Sys2Proof/Tests/Witness03.lean ====
section
/-! SUPPORT. Machines and operands that meet the hypotheses of the statements, clause by clause. -/

namespace Sys2Proof.Tests.W03
open Sys2Proof.Machine
set_option maxRecDepth 100000
set_option Elab.async false

def sec : Nat := 1000000000 * 65536

def cU (l : List (Nat×Nat)) (st : TimeState := .unset) (f : Tmb → Tmb := id) : State := mk (setE 76 l { tChip with tmb := f { now := 5 * sec + 77, up := 5 * sec, state := st, todPending := true, rate := 44, slave := some 2, epoch := 65535 } })

def ll := [(8*0x48, 0)]

def sR : State := mk { (cU [] .locked).chip with engines := [(3, { xw with wait := some (.waitt 4 64) }), (16, xw), (17, xw), (5, { xw with wait := some (.waite 4 64) })], ports := [(1, {state := .running, hold := true}), (2, {state := .faulted})] }

def cO : State := mk (setE 76 [(8*0x138, 1), (8*0x138+8, 3)] { (cU [] .locked).chip with ports := [(1, {linkUp := true})] })

def cO2 : State := mk (setE 76 [(8*0x138, 1), (8*0x138+8, 3)] { (cU [] .locked fun m => { m with ppsOut := true, lastPpsRise := some (5*sec - 70) }).chip with ports := [(1, {linkUp := true})] })

def eR (v : Evr) : Chip := { setE 92 [(8*0x100+1, 8)] tChip with evr := v }

/-- Each clause of FirstMeasurement (obligation TimeBaseMoves): a machine and operands that meet its hypotheses. -/
theorem test_meets_FirstMeasurement :
    (∃ (s : State) (p : Port) (off : Int),
     let m := s.chip.tmb
     (s.chip.clocked = true) ∧
     (m.state = .unset) ∧
     (m.following = false) ∧
     (m.wakePending = false) ∧
     (s.chip.timeMode = 0) ∧
     (bitAt (s.chip.eff 76 0x108 4) p.val = true) ∧
     (off * 65536 ≤ m.now)) ∧
    (∃ (s : State),
     let m := s.chip.tmb
     (s.chip.clocked = true) ∧
     (m.state = .unset) ∧
     (m.following = false) ∧
     (m.wakePending = false) ∧
     (s.chip.timeMode = 1) ∧
     (m.todPending = true)) ∧
    (∃ (s : State),
     let m := s.chip.tmb
     (s.chip.clocked = true) ∧
     (m.state = .unset) ∧
     (m.following = false) ∧
     (m.wakePending = false) ∧
     (s.chip.timeMode = 2) ∧
     (m.freeAfterSiding = false)) :=
  ⟨⟨cU [], 2, -50, by decide +kernel⟩,
   ⟨cU [(8*0x108,1),(8*0x130, 7)], by decide +kernel⟩,
   ⟨cU [(8*0x108,2),(8*0x130, 7),(8*0x128,0xFFFFFFFF)], by decide +kernel⟩⟩

/-- Each clause of LockedMeasurement (obligation TimeBaseMoves): a machine and operands that meet its hypotheses. -/
theorem test_meets_LockedMeasurement :
    (∃ (s : State) (p : Port) (off : Int),
     let m := s.chip.tmb
     (s.chip.clocked = true) ∧
     (m.state = .locked) ∧
     (m.following = false) ∧
     (m.offsetLarge = false) ∧
     (s.chip.timeMode = 0) ∧
     (bitAt (s.chip.eff 76 0x108 4) p.val = true) ∧
     (off.natAbs ≤ s.chip.eff 76 0x110 0) ∧
     (off.natAbs ≤ 1000 * s.chip.eff 76 0x110 16)) ∧
    (∃ (s : State),
     (s.chip.clocked = true) ∧
     (s.chip.timeMode ≠ 1)) :=
  ⟨⟨cU [] .locked, 2, -50, by decide +kernel⟩,
   ⟨cU [] .locked, by decide +kernel⟩⟩

/-- Each clause of SourceLost (obligation TimeBaseMoves): a machine and operands that meet its hypotheses. -/
theorem test_meets_SourceLost :
    ∃ s : State,
    let m := s.chip.tmb
    (s.chip.clocked = true) ∧
    (s.chip.timeMode ≠ 2) ∧
    (m.following = false) ∧
    ((m.state = .locking ∨ m.state = .locked)) ∧
    (bitAt (s.chip.enable 76) 3 = false) :=
  ⟨cU ll .locked, by decide +kernel⟩

/-- Each clause of TimeReepoch (obligation TimeOutputsAndReepoch): a machine and operands that meet its hypotheses. -/
theorem test_meets_TimeReepoch :
    (∃ (s : State) (w : Who),
     (s.chip.clocked = true) ∧
     (Who.mayWrite w s.chip = true)) ∧
    (∃ (s : State) (w : Who),
     (s.chip.clocked = true) ∧
     (Who.mayWrite w s.chip = false)) :=
  ⟨⟨sR, .firmware, by decide +kernel⟩,
   ⟨sR, .fn 5, by decide +kernel⟩⟩

/-- Each clause of TimeOutputs (obligation TimeOutputsAndReepoch): a machine and operands that meet its hypotheses. -/
theorem test_meets_TimeOutputs_03 :
    (∃ (s : State),
     (s.chip.clocked = true) ∧
     let m := s.chip.tmb
     ∃ u,
     (m.ppsOut = true) ∧
     (m.lastPpsRise = some u) ∧
     (m.up ≤ u + s.chip.eff 76 0x138 8 * 65536000)) ∧
    (∃ (s : State),
     (s.chip.clocked = true) ∧
     (s.chip.timeValid = true)) ∧
    (∃ (s : State) (p : Port),
     (s.chip.clocked = true) ∧
     ((s.chip.port p).linkUp = true) ∧
     (bitAt (s.chip.eff 76 0x108 4) p.val = true)) :=
  ⟨⟨cO2, by decide +kernel, _, by decide +kernel, rfl, by decide +kernel⟩,
   ⟨cO, by decide +kernel⟩,
   ⟨cO, 1, by decide +kernel⟩⟩

/-- Each clause of EventTakesOnePlace (obligation EventsAndTheRecorder): a machine and operands that meet its hypotheses. -/
theorem test_meets_EventTakesOnePlace :
    (∃ (c : Chip),
     (c.par.role = .active ∨ c.par.role = .alone ∨ c.par.blockLeft = 0)) ∧
    (∃ (c : Chip),
     ((c.par.role = .standby ∨ c.par.role = .fenced)) ∧
     (0 < c.par.blockLeft)) ∧
    (∃ p,
     (p ≠ 5)) :=
  ⟨⟨tChip, by decide +kernel⟩,
   ⟨{tChip with par := {role := .standby, blockNext := 2^48-1, blockLeft := 3}}, by decide +kernel⟩,
   ⟨3, by decide +kernel⟩⟩

/-- Each clause of CauseSetAndHandled (obligation Causes): a machine and operands that meet its hypotheses. -/
theorem test_meets_CauseSetAndHandled :
    (∃ (c : Chip) (r bit : Nat),
     (bit < 16) ∧
     let b := c.blk r
     let old := b.cause
     (bitAt (c.enable r) bit = false ∨ bitAt old bit = true)) ∧
    (∃ (c : Chip) (r bit : Nat),
     (bit < 16) ∧
     let b := c.blk r
     let old := b.cause
     (bitAt (c.enable r) bit = true) ∧
     (bitAt old bit = false) ∧
     (b.handling = false) ∧
     (c.react r bit = 0)) ∧
    (∃ (c : Chip) (r bit : Nat),
     (bit < 16) ∧
     let b := c.blk r
     let old := b.cause
     (bitAt (c.enable r) bit = true) ∧
     (bitAt old bit = false) ∧
     (b.handling = false) ∧
     (c.react r bit = 0) ∧
     ∃ o,
     (o ≠ r)) ∧
    (∃ (c : Chip) (r bit : Nat),
     (bit < 16) ∧
     let b := c.blk r
     let old := b.cause
     (bitAt (c.enable r) bit = true) ∧
     (bitAt old bit = false) ∧
     (b.handling = true)) ∧
    (∃ (c : Chip) (r bit : Nat),
     (bit < 16) ∧
     let b := c.blk r
     let old := b.cause
     (bitAt (c.enable r) bit = true) ∧
     (bitAt old bit = false) ∧
     (b.handling = true) ∧
     ∃ o,
     (o ≠ r)) ∧
    (∃ (c : Chip) (r bit : Nat),
     (bit < 16) ∧
     let b := c.blk r
     (bitAt b.level bit = true)) :=
  ⟨⟨dis 47 tChip, 47, 3, by decide +kernel⟩,
   ⟨setE 47 [(8*0x50, 0),(8*0x50+4, 0),(8*0x50+12, 0)] tChip, 47, 3, by decide +kernel⟩,
   ⟨setE 47 [(8*0x50, 0),(8*0x50+4, 0),(8*0x50+12, 0)] tChip, 47, 3, by decide +kernel, by decide +kernel, by decide +kernel, by decide +kernel, by decide +kernel, 4, by decide +kernel⟩,
   ⟨setE 47 [] tChip {cause := 1, handling := true, merged := 2^32-1}, 47, 3, by decide +kernel⟩,
   ⟨setE 47 [] tChip {cause := 1, handling := true, merged := 2^32-1}, 47, 3, by decide +kernel, by decide +kernel, by decide +kernel, by decide +kernel, 4, by decide +kernel⟩,
   ⟨dis 47 tChip {level := 8}, 47, 3, by decide +kernel⟩⟩

/-- Each clause of RecorderStores (obligation EventsAndTheRecorder): a machine and operands that meet its hypotheses. -/
theorem test_meets_RecorderStores :
    (∃ (c : Chip) (kind : Nat),
     (bitAt (c.eff 92 0x100 1) (kind - 1) = false)) ∧
    (∃ (c : Chip) (kind : Nat),
     let stop := c.eff 92 0x100 9 = 1 ∧ c.evr.wrapped = true
     (bitAt (c.eff 92 0x100 1) (kind - 1) = true) ∧
     ((c.evr.frozen = true ∨ stop))) ∧
    (∃ (c : Chip) (kind : Nat),
     let stop := c.eff 92 0x100 9 = 1 ∧ c.evr.wrapped = true
     (bitAt (c.eff 92 0x100 1) (kind - 1) = true) ∧
     (c.evr.frozen = false) ∧
     (¬ stop)) ∧
    (∃ (c : Chip) (kind : Nat),
     let stop := c.eff 92 0x100 9 = 1 ∧ c.evr.wrapped = true
     (bitAt (c.eff 92 0x100 1) (kind - 1) = true) ∧
     (c.evr.frozen = false) ∧
     (¬ stop) ∧
     ∃ k,
     (k ≠ c.evr.next)) :=
  ⟨⟨eR {}, 5, by decide +kernel⟩,
   ⟨eR {frozen := true}, 4, by decide +kernel⟩,
   ⟨eR {}, 4, by decide +kernel⟩,
   ⟨eR {}, 4, by decide +kernel, by decide +kernel, by decide +kernel, 3, by decide +kernel⟩⟩

end Sys2Proof.Tests.W03

namespace Sys2Proof.Tests.W03b
open Sys2Proof.Machine
set_option maxRecDepth 100000
set_option Elab.async false

def sec : Nat := 1000000000 * 65536

def cU (l : List (Nat×Nat)) (st : TimeState := .unset) (f : Tmb → Tmb := id) : State := mk (setE 76 l { tChip with tmb := f { now := 5 * sec + 77, up := 5 * sec, state := st, todPending := true, rate := 44, slave := some 2, epoch := 65535 } })

def cO : State := mk (setE 76 [(8*0x138, 1), (8*0x138+8, 3),(8*0x13C,5)] { (cU [] .locked).chip with ports := [(1, {linkUp := true})] })

def cO2 : State := mk (setE 76 [(8*0x138, 1), (8*0x138+8, 3)] { (cU [] .locked fun m => { m with ppsOut := true, lastPpsRise := some (5*sec - 70) }).chip with ports := [(1, {linkUp := true})] })

/-- Each clause of TimeOutputs (obligation TimeOutputsAndReepoch): a machine and operands that meet its hypotheses. -/
theorem test_meets_TimeOutputs_03b :
    ∃ (s : State),
    (s.chip.clocked = true) ∧
    let m := s.chip.tmb
    (m.ppsOut = false) ∧
    (s.chip.timeValid = true) ∧
    (s.chip.eff 76 0x138 0 ≠ 0) ∧
    (m.lastPpsRise = none) ∧
    (m.now ≤ s.chip.nextPps * 65536) :=
  ⟨cO, by decide +kernel⟩

end Sys2Proof.Tests.W03b
end

