-- ==== Sys2Proof/Tests/Witness04.lean ====
section
/-! SUPPORT. Machines and operands that meet the hypotheses of the statements, clause by clause. -/

namespace Sys2Proof.Tests.W00
open Sys2Proof.Machine
set_option maxRecDepth 100000
set_option Elab.async false

def g1 (h : Chip → Chip := id) : State := { mk (h { cT 1000000 with par := {role := .standby, unit := true} }) with pending := [] }

/-- Each clause of StepIdles (obligation StepIdles): a machine and operands that meet its hypotheses. -/
theorem test_meets_StepIdles :
    (∃ s : State,
     (s.pending = []) ∧
     (s.chip.pwr.state = .off)) ∧
    (∃ s : State,
     (s.pending = []) ∧
     (s.chip.pwr.state = .siding)) ∧
    (∃ s : State,
     (s.pending = []) ∧
     (s.chip.clocked = true)) :=
  ⟨⟨g1 fun c => {c with pwr := {state := .off}}, by decide +kernel⟩,
   ⟨g1 fun c => {c with pwr := {state := .siding}}, by decide +kernel⟩,
   ⟨g1, by decide +kernel⟩⟩

end Sys2Proof.Tests.W00

namespace Sys2Proof.Tests.W04
open Sys2Proof.Machine
set_option maxRecDepth 100000
set_option Elab.async false

def dA : Desc := { op := 1, first := true, srcSpace := 1, dstSpace := 1, len := 64, src := 0x100, dst := 0x200 }

def dB : Desc := { dA with first := false, last := true, src := 0x200, dst := 0x300 }

def ch (f : Channel → Channel) (n := 9) : State := mk { setE (recSht (n/8)) [(8*0x48,0)] tChip with channels := [(n, f { state := .running, chain := [dA, dB], issuer := 3, retries := 2 })], stg := [(0x101, 5), (0x13F, 9), (0x240, 1)], pools := [(4, {held := 5, granted := 5})], engines := [(3, { xw with })] }

def dH : Desc := { dA with srcSpace := 4 }

/-- Each clause of DescriptorCompletes (obligation ChainsRun): a machine and operands that meet its hypotheses. -/
theorem test_meets_DescriptorCompletes :
    (∃ (s : State) (n : Chan) (d : Desc),
     let h := s.chip.chan n
     (s.chip.clocked = true) ∧
     (h.state = .running) ∧
     (h.chain[h.desc]? = some d) ∧
     (d.last = true)) ∧
    (∃ (s : State) (n : Chan) (d : Desc),
     let h := s.chip.chan n
     (s.chip.clocked = true) ∧
     (h.state = .running) ∧
     (h.chain[h.desc]? = some d) ∧
     (d.last = false) ∧
     (h.stopPend = true)) ∧
    (∃ (s : State) (n : Chan) (d : Desc),
     let h := s.chip.chan n
     (s.chip.clocked = true) ∧
     (h.state = .running) ∧
     (h.chain[h.desc]? = some d) ∧
     (d.last = false) ∧
     (h.stopPend = false) ∧
     (h.pausePend = true)) ∧
    (∃ (s : State) (n : Chan) (d : Desc),
     let h := s.chip.chan n
     (s.chip.clocked = true) ∧
     (h.state = .running) ∧
     (h.chain[h.desc]? = some d) ∧
     (d.last = false) ∧
     (h.stopPend = false) ∧
     (h.pausePend = false)) :=
  ⟨⟨ch (fun h => {h with desc := 1}), 9, dB, by decide +kernel⟩,
   ⟨ch (fun h => {h with stopPend := true}), 9, dA, by decide +kernel⟩,
   ⟨ch (fun h => {h with pausePend := true}), 9, dA, by decide +kernel⟩,
   ⟨ch id, 9, dA, by decide +kernel⟩⟩

/-- Each clause of MoveCopiesBytes (obligation ChainsRun): a machine and operands that meet its hypotheses. -/
theorem test_meets_MoveCopiesBytes :
    (∃ (d : Desc),
     (d.op = 1) ∧
     (d.guard = 0) ∧
     (d.crc = 0) ∧
     (d.srcSpace = 1) ∧
     (d.dstSpace = 1) ∧
     ((d.src + d.len ≤ d.dst ∨ d.dst + d.len ≤ d.src)) ∧
     ∃ k,
     (k < d.len)) ∧
    (∃ (d : Desc),
     (d.op = 1) ∧
     (d.guard = 0) ∧
     (d.crc = 0) ∧
     (d.srcSpace = 1) ∧
     (d.dstSpace = 1) ∧
     ((d.src + d.len ≤ d.dst ∨ d.dst + d.len ≤ d.src)) ∧
     ∃ y,
     ((y < d.dst ∨ d.dst + d.len ≤ y))) ∧
    (∃ (d : Desc),
     (d.op = 1) ∧
     (d.guard = 0) ∧
     (d.crc = 0) ∧
     (d.srcSpace = 1) ∧
     (d.dstSpace = 1) ∧
     ((d.src + d.len ≤ d.dst ∨ d.dst + d.len ≤ d.src))) ∧
    (∃ (n : Chan) (d : Desc),
     (d.op = 1) ∧
     (d.guard = 0) ∧
     (d.crc = 0) ∧
     (d.srcSpace = 1) ∧
     (d.dstSpace = 1) ∧
     ((d.src + d.len ≤ d.dst ∨ d.dst + d.len ≤ d.src)) ∧
     ∃ m,
     (m ≠ n.val)) :=
  ⟨⟨dA, by decide +kernel, by decide +kernel, by decide +kernel, by decide +kernel, by decide +kernel, by decide +kernel, 0, by decide +kernel⟩,
   ⟨dA, by decide +kernel, by decide +kernel, by decide +kernel, by decide +kernel, by decide +kernel, by decide +kernel, 0x9999, by decide +kernel⟩,
   ⟨dA, by decide +kernel⟩,
   ⟨9, dA, by decide +kernel, by decide +kernel, by decide +kernel, by decide +kernel, by decide +kernel, by decide +kernel, 8, by decide +kernel⟩⟩

/-- Each clause of ChannelControls (obligation ChannelsAreControlled): a machine and operands that meet its hypotheses. -/
theorem test_meets_ChannelControls :
    (∃ (s : State) (w : Who) (n : Chan),
     (s.chip.clocked = true) ∧
     (Who.internal w s.chip = true) ∧
     let h := s.chip.chan n
     (h.state = .running)) ∧
    (∃ (s : State) (w : Who) (n : Chan),
     (s.chip.clocked = true) ∧
     (Who.internal w s.chip = true) ∧
     let h := s.chip.chan n
     (h.state = .paused)) ∧
    (∃ (s : State) (w : Who) (n : Chan),
     (s.chip.clocked = true) ∧
     (Who.internal w s.chip = true) ∧
     let h := s.chip.chan n
     (h.state = .running)) ∧
    (∃ (s : State) (w : Who) (n : Chan),
     (s.chip.clocked = true) ∧
     (Who.internal w s.chip = true) ∧
     let h := s.chip.chan n
     (h.state = .paused)) ∧
    (∃ (s : State) (w : Who) (n : Chan),
     (s.chip.clocked = true) ∧
     (Who.internal w s.chip = true) ∧
     let h := s.chip.chan n
     (h.state = .paused)) ∧
    (∃ (s : State) (w : Who) (n : Chan),
     (s.chip.clocked = true) ∧
     (Who.internal w s.chip = true) ∧
     let h := s.chip.chan n
     (h.state = .running) ∧
     (h.desc < h.chain.length)) ∧
    (∃ (s : State) (w : Who) (n : Chan),
     (s.chip.clocked = true) ∧
     (Who.internal w s.chip = true) ∧
     let h := s.chip.chan n
     (h.state = .halted) ∧
     ((∀ i, i < 8 → 8 * (n.val / 8) + i ≠ n.val → (s.chip.chan (8 * (n.val / 8) + i)).state ≠ .halted))) :=
  ⟨⟨ch id, .firmware, 9, by decide +kernel⟩,
   ⟨ch (fun h => {h with state := .paused}), .firmware, 9, by decide +kernel⟩,
   ⟨ch id, .firmware, 9, by decide +kernel⟩,
   ⟨ch (fun h => {h with state := .paused}), .firmware, 9, by decide +kernel⟩,
   ⟨ch (fun h => {h with state := .paused}), .firmware, 9, by decide +kernel⟩,
   ⟨ch id, .firmware, 9, by decide +kernel⟩,
   ⟨ch (fun h => {h with state := .halted}), .firmware, 9, by decide +kernel⟩⟩

/-- Each clause of ChainEnds (obligation ChainsRun): a machine and operands that meet its hypotheses. -/
theorem test_meets_ChainEnds :
    (∃ (n : Nat),
     ∃ m,
     (m ≠ n)) ∧
    (∃ (c : Chip) (n : Nat),
     let k := (c.chan n).chain.length
     (k ≤ (c.pool 4).held)) ∧
    (∃ p,
     (p ≠ 4)) :=
  ⟨⟨9, 8, by decide +kernel⟩,
   ⟨(ch id).chip, 9, by decide +kernel⟩,
   ⟨3, by decide +kernel⟩⟩

/-- Each clause of ChannelHalts (obligation ChannelsAreControlled): a machine and operands that meet its hypotheses. -/
theorem test_meets_ChannelHalts :
    (∃ (s : State) (n : Chan) (cause : BitVec 3) (d : Desc),
     let h := s.chip.chan n
     (s.chip.clocked = true) ∧
     (h.state = .running) ∧
     (h.chain[h.desc]? = some d) ∧
     (bitAt (s.chip.enable (recSht (n.val / 8))) 3 = false) ∧
     (h.issuer < 16) ∧
     ((s.chip.eng h.issuer).run.isSome = true) ∧
     (d.srcSpace = 4) ∧
     (cause.toNat = 1 ∨ cause.toNat = 2 ∨ cause.toNat = 3)) ∧
    (∃ (s : State) (n : Chan) (cause : BitVec 3) (d : Desc),
     let h := s.chip.chan n
     (s.chip.clocked = true) ∧
     (h.state = .running) ∧
     (h.chain[h.desc]? = some d) ∧
     (bitAt (s.chip.enable (recSht (n.val / 8))) 3 = false) ∧
     (h.issuer < 16) ∧
     ((s.chip.eng h.issuer).run.isSome = true) ∧
     (d.srcSpace ≠ 4) ∧
     (cause.toNat = 5)) ∧
    (∃ (s : State) (n : Chan) (addr : W64) (d : Desc),
     let h := s.chip.chan n
     (s.chip.clocked = true) ∧
     (h.state = .running) ∧
     (h.chain[h.desc]? = some d) ∧
     (bitAt (s.chip.enable (recSht (n.val / 8))) 3 = false) ∧
     (h.issuer < 16) ∧
     ((s.chip.eng h.issuer).run.isSome = true) ∧
     (d.srcSpace = 4) ∧
     (h.retryAddr = some addr.toNat) ∧
     (h.tries < h.retries)) ∧
    (∃ (s : State) (n : Chan) (addr : W64) (d : Desc),
     let h := s.chip.chan n
     (s.chip.clocked = true) ∧
     (h.state = .running) ∧
     (h.chain[h.desc]? = some d) ∧
     (bitAt (s.chip.enable (recSht (n.val / 8))) 3 = false) ∧
     (h.issuer < 16) ∧
     ((s.chip.eng h.issuer).run.isSome = true) ∧
     (d.srcSpace = 4) ∧
     (h.retryAddr = some addr.toNat) ∧
     (h.retries ≤ h.tries)) :=
  ⟨⟨ch (fun h => {h with chain := [dH]}), 9, 1, dH, by decide +kernel⟩,
   ⟨ch id, 9, 5, dA, by decide +kernel⟩,
   ⟨ch (fun h => {h with chain := [dH], tries := 1, retryAddr := some 0x120}), 9, 0x120, dH, by decide +kernel⟩,
   ⟨ch (fun h => {h with chain := [dH], tries := 2, retryAddr := some 0x120}), 9, 0x120, dH, by decide +kernel⟩⟩

end Sys2Proof.Tests.W04
end

