-- ==== Sys2Proof/Tests/Witness05.lean ====
section
/-! SUPPORT. Machines and operands that meet the hypotheses of the statements, clause by clause. -/

namespace Sys2Proof.Tests.W05
open Sys2Proof.Machine
set_option maxRecDepth 100000
set_option Elab.async false

def acc (w : Who) (r : Rec) (off : Nat) (v : W64) (sz := 4) (full := true) : Access := ⟨w, .block r off, sz, full, v⟩

def sB (r : Nat) (b : Block) : State := mk { tChip with blocks := [(r, b), (20, {gen := 7})] }

def b0 : Block := { shadow := [(8*0x130, 9)], gen := 65535 }

def fld (c : Clamp) : Fld := { lsb := 0x800, width := 8, clamp := c, reset := 0 }

def tk (r : Nat) (b : Block) (k : GoTaken) : State := sB r { b with taken := some k }

def arm (p : Nat) (k : GoTaken) : State := mk { (tk (recTrd p) b0 k).chip with ports := [(p, {})] , tmb := {now := 77 * 65536} }

def trdSet : Tab Nat := [(8*0x108,1),(8*0x120, 100000), (8*0x200, 500)]

def trdS (p : Nat) : State := mk { tChip with blocks := [(recTrd p, { b0 with taken := some ⟨trdSet, true⟩ })], engines := [(16 + p, { slots := [(0, { cur := some tImg })] })], ports := [(p, {})] , tmb := {now := 77 * 65536} }

def stg (r : Nat) (f : Chip → Chip := id) : State := mk (f { tChip with blocks := [(r, { staged := true, accepted := [(8*0x110, 5), (8*0x100+16, 3)], level := 4, effective := [(8*0x100+16, 2)] })], tmb := { now := 5 * 65536 + 3, up := 9 } })

def gL (a b : Nat) : Tab Nat := [(0, a + 65536 * b)]

def gr (a b : Nat) (busy := false) (bs : Tab Block := [(26, {shadow := [(8*0x100,0)]})]) : State := mk { tChip with group := { list := gL a b, busy := busy }, blocks := bs }

def held : State := mk { tChip with group := { list := gL 26 82, busy := true }, blocks := [(26, {accepted := [(8*0x100,0)], staged := true, groupHeld := true}), (82, {staged := true, groupHeld := true}), (83, {staged := true})] }

def acc2 (w : Who) (t : Target) (v : W64) (sz := 4) (full := true) : Access := ⟨w, t, sz, full, v⟩

/-- Each clause of ShadowWrite (obligation ShadowWrites): a machine and operands that meet its hypotheses. -/
theorem test_meets_ShadowWrite :
    (∃ (s : State) (a : Access) (r : Rec) (off : Nat),
     (s.chip.clocked = true) ∧
     (a.tgt = .block r off) ∧
     let fs := fieldsIn r (8 * off) (8 * (off + a.size))
     (Who.mayWrite a.who s.chip = true) ∧
     (okWrite a.size a.full off (blockSize r) = true) ∧
     ((a.size = 4 → wide r (off / 8 * 8) = false)) ∧
     (fs ≠ [])) ∧
    (∃ (s : State) (a : Access) (r : Rec) (off : Nat),
     (s.chip.clocked = true) ∧
     (a.tgt = .block r off) ∧
     (Who.mayWrite a.who s.chip = false ∨ a.full = false ∨ (a.size ≠ 4 ∧ a.size ≠ 8) ∨ off % a.size ≠ 0)) :=
  ⟨⟨sB 76 b0, acc .firmware 76 0x128 0x77, 76, 0x128, by decide +kernel⟩,
   ⟨sB 76 b0, acc (.fn 5) 76 0x128 0x77, 76, 0x128, by decide +kernel⟩⟩

/-- Each clause of Clamps (obligation ShadowWrites): a machine and operands that meet its hypotheses. -/
theorem test_meets_Clamps :
    (∃ (f : Fld),
     (f.clamp = .any)) ∧
    (∃ (f : Fld) (v : Nat),
     ∃ lo hi,
     (f.clamp = .span lo hi) ∧
     (lo ≤ hi) ∧
     (lo ≤ v) ∧
     (v ≤ hi)) ∧
    (∃ (f : Fld) (v : Nat),
     ∃ lo hi,
     (f.clamp = .span lo hi) ∧
     (lo ≤ hi) ∧
     (v < lo)) ∧
    (∃ (f : Fld) (v : Nat),
     ∃ lo hi,
     (f.clamp = .span lo hi) ∧
     (lo ≤ hi) ∧
     (hi < v)) ∧
    (∃ (f : Fld),
     ∃ n,
     (f.clamp = .codes n)) ∧
    (∃ (f : Fld),
     ∃ m,
     (f.clamp = .ones m)) ∧
    (∃ (f : Fld),
     (f.clamp = .fixed)) :=
  ⟨⟨fld .any, by decide +kernel⟩,
   ⟨fld (.span 3 7), 7, _, _, rfl, by decide +kernel⟩,
   ⟨fld (.span 3 7), 1, _, _, rfl, by decide +kernel⟩,
   ⟨fld (.span 3 7), 9, _, _, rfl, by decide +kernel⟩,
   ⟨fld (.codes 4), _, rfl⟩,
   ⟨fld (.ones 5), _, rfl⟩,
   ⟨fld .fixed, by decide +kernel⟩⟩

/-- Each clause of GoAndDiscard (obligation Commits): a machine and operands that meet its hypotheses. -/
theorem test_meets_GoAndDiscard :
    (∃ (s : State) (w : Who) (r : Rec),
     (s.chip.clocked = true) ∧
     (Who.mayWrite w s.chip = true) ∧
     (r ≠ 0) ∧
     let b := s.chip.blk r
     (b.taken = none) ∧
     (b.groupHeld = false)) ∧
    (∃ (s : State) (w : Who) (r : Rec),
     (s.chip.clocked = true) ∧
     (Who.mayWrite w s.chip = true) ∧
     (r ≠ 0) ∧
     let b := s.chip.blk r
     (b.taken.isSome = true ∨ b.groupHeld = true)) ∧
    (∃ (s : State) (w : Who) (r : Rec),
     (s.chip.clocked = true) ∧
     (Who.mayWrite w s.chip = true) ∧
     (r ≠ 0) ∧
     let b := s.chip.blk r
     (b.taken = none)) ∧
    (∃ (s : State) (w : Who) (r : Rec),
     (s.chip.clocked = true) ∧
     (Who.mayWrite w s.chip = true) ∧
     (r ≠ 0)) :=
  ⟨⟨sB 76 b0, .firmware, 76, by decide +kernel⟩,
   ⟨sB 76 {b0 with taken := some ⟨[], true⟩}, .fn 0, 76, by decide +kernel⟩,
   ⟨sB 76 b0, .firmware, 76, by decide +kernel⟩,
   ⟨sB 76 b0, .firmware, 76, by decide +kernel⟩⟩

/-- Each clause of CommitChecks (obligation Commits): a machine and operands that meet its hypotheses. -/
theorem test_meets_CommitChecks :
    (∃ (s : State) (r : Rec) (k : GoTaken),
     (s.chip.clocked = true) ∧
     let b := s.chip.blk r
     (b.taken = some k) ∧
     (k.keyOk = false) ∧
     (kindOf r ≠ .trd)) ∧
    (∃ (s : State) (r : Rec) (k : GoTaken),
     (s.chip.clocked = true) ∧
     let b := s.chip.blk r
     (b.taken = some k) ∧
     ∃ f,
     (k.keyOk = true) ∧
     (kindOf r ≠ .trd) ∧
     (checks s.chip (s.chip.viewOne r k.set) r = some f)) ∧
    (∃ (s : State) (r : Rec) (k : GoTaken),
     (s.chip.clocked = true) ∧
     let b := s.chip.blk r
     (b.taken = some k) ∧
     (k.keyOk = true) ∧
     (kindOf r ≠ .trd) ∧
     (checks s.chip (s.chip.viewOne r k.set) r = none)) ∧
    (∃ (s : State) (r : Rec) (k : GoTaken),
     (s.chip.clocked = true) ∧
     let b := s.chip.blk r
     (b.taken = some k) ∧
     (k.keyOk = true) ∧
     (kindOf r = .trd) ∧
     (checks s.chip (s.chip.viewOne r k.set) r = none)) :=
  ⟨⟨tk 76 b0 ⟨[(8*0x110,5)], false⟩, 76, ⟨[(8*0x110,5)], false⟩, by decide +kernel⟩,
   ⟨tk 76 b0 ⟨[(8*0x108,1)], true⟩, 76, ⟨[(8*0x108,1)], true⟩, by decide +kernel, by decide +kernel, _, by decide +kernel, by decide +kernel, rfl⟩,
   ⟨tk 76 b0 ⟨[(8*0x110,5)], true⟩, 76, ⟨[(8*0x110,5)], true⟩, by decide +kernel⟩,
   ⟨trdS 1, 78, ⟨trdSet, true⟩, by decide +kernel⟩⟩

/-- Each clause of SetTakesEffect (obligation SetTakesEffect): a machine and operands that meet its hypotheses. -/
theorem test_meets_SetTakesEffect :
    (∃ (s : State) (r : Rec),
     (s.chip.clocked = true) ∧
     (r ≠ 0) ∧
     let b := s.chip.blk r
     (b.staged = true) ∧
     (b.groupHeld = false) ∧
     (s.chip.atBoundary r = true) ∧
     (kindOf r ∉ [Kind.tmb, .trd, .stm, .pwr, .age, .mbr]) ∧
     (b.cause = 0)) ∧
    (∃ (s : State) (r : Rec),
     (s.chip.clocked = true) ∧
     (r ≠ 0) ∧
     let b := s.chip.blk r
     (b.staged = true) ∧
     (b.groupHeld = false) ∧
     (s.chip.atBoundary r = true) ∧
     (kindOf r = .mbr) ∧
     (b.cause = 0)) ∧
    (∃ (s : State) (r : Rec),
     (s.chip.clocked = true) ∧
     (r ≠ 0) ∧
     let b := s.chip.blk r
     (b.staged = true) ∧
     (b.groupHeld = false) ∧
     (s.chip.atBoundary r = true) ∧
     (kindOf r = .tmb)) ∧
    (∃ (s : State) (r : Rec),
     (s.chip.clocked = true) ∧
     (r ≠ 0) ∧
     let b := s.chip.blk r
     (b.staged = true) ∧
     (b.groupHeld = false) ∧
     (s.chip.atBoundary r = true) ∧
     (kindOf r ∈ [Kind.stm, .pwr, .age])) :=
  ⟨⟨stg 26, 26, by decide +kernel⟩,
   ⟨stg 30, 30, by decide +kernel⟩,
   ⟨stg 76, 76, by decide +kernel⟩,
   ⟨stg 81, 81, by decide +kernel⟩⟩

/-- Each clause of GroupCommit (obligation GroupCommits): a machine and operands that meet its hypotheses. -/
theorem test_meets_GroupCommit :
    (∃ (s : State) (w : Who),
     (s.chip.clocked = true) ∧
     (Who.mayWrite w s.chip = true) ∧
     let g := s.chip.group
     (g.busy = true)) ∧
    (∃ (s : State) (w : Who),
     (s.chip.clocked = true) ∧
     (Who.mayWrite w s.chip = true) ∧
     let g := s.chip.group
     let rs := g.listed.map (·.2)
     (g.busy = false) ∧
     (groupBad rs = true)) ∧
    (∃ (s : State) (w : Who),
     (s.chip.clocked = true) ∧
     (Who.mayWrite w s.chip = true) ∧
     let g := s.chip.group
     let rs := g.listed.map (·.2)
     (g.busy = false) ∧
     (groupBad rs = false) ∧
     ((∃ r ∈ rs, (s.chip.blk r).taken.isSome = true ∨ (s.chip.blk r).staged = true))) ∧
    (∃ (s : State) (w : Who),
     (s.chip.clocked = true) ∧
     (Who.mayWrite w s.chip = true) ∧
     let g := s.chip.group
     let rs := g.listed.map (·.2)
     (g.busy = false) ∧
     (groupBad rs = false) ∧
     ((∀ r ∈ rs, (s.chip.blk r).taken = none ∧ (s.chip.blk r).staged = false)) ∧
     (groupFail s.chip (s.chip.viewGroup rs) g.listed = none)) :=
  ⟨⟨gr 26 82 true, .firmware, by decide +kernel⟩,
   ⟨gr 26 26, .firmware, by decide +kernel⟩,
   ⟨gr 26 82 false [(26, {staged := true})], .firmware, by decide +kernel⟩,
   ⟨gr 26 82, .firmware, by decide +kernel⟩⟩

/-- Each clause of GroupTakesEffect (obligation GroupCommits): a machine and operands that meet its hypotheses. -/
theorem test_meets_GroupTakesEffect :
    ∃ s : State,
    (s.chip.clocked = true) ∧
    (s.chip.group.busy = true) ∧
    ((∀ r ∈ s.chip.heldBlocks, kindOf r ∉ [Kind.tmb, .trd, .stm, .pwr, .age, .mbr] ∧ (s.chip.blk r).cause = 0 ∧ (s.chip.blk r).staged = true)) :=
  ⟨held, by decide +kernel⟩

/-- Each clause of RegisterWrites (obligation RegisterWrites): a machine and operands that meet its hypotheses. -/
theorem test_meets_RegisterWrites :
    (∃ (s : State) (a : Access),
     (s.chip.clocked = true) ∧
     let v := a.value.toNat
     ∃ r : Rec,
     (a.tgt = .block r 4) ∧
     (r ≠ 0) ∧
     (a.size = 4) ∧
     (a.full = true) ∧
     (Who.mayWrite a.who s.chip = true) ∧
     (bitAt v 4 = true)) ∧
    (∃ (s : State) (a : Access),
     (s.chip.clocked = true) ∧
     ∃ k,
     (a.tgt = .block 0 (0xF000 + 4 * k)) ∧
     (k < 4) ∧
     (a.size = 4) ∧
     (a.full = true) ∧
     (Who.mayWrite a.who s.chip = true)) ∧
    (∃ (s : State) (a : Access),
     (s.chip.clocked = true) ∧
     (a.tgt = .hole)) ∧
    (∃ (s : State) (a : Access),
     (s.chip.clocked = true) ∧
     ∃ r off,
     (a.tgt = .block r off) ∧
     (Who.mayWrite a.who s.chip = false)) ∧
    (∃ (s : State) (a : Access),
     (s.chip.clocked = true) ∧
     ∃ (r : Rec) (off : Nat),
     (a.tgt = .block r off) ∧
     (wide r off = true) ∧
     (a.size = 4) ∧
     (a.full = true) ∧
     (off + 8 ≤ blockSize r) ∧
     (Who.mayWrite a.who s.chip = true)) ∧
    (∃ (s : State) (a : Access),
     (s.chip.clocked = true) ∧
     ∃ n lo,
     (n < 8) ∧
     (a.tgt = .block 89 (0x100 + 16 * n + 4)) ∧
     (a.size = 4) ∧
     (a.full = true) ∧
     (Who.mayWrite a.who s.chip = true) ∧
     (s.chip.latched 89 (0x100 + 16 * n) = some lo) ∧
     (lo < 2 ^ 32)) ∧
    (∃ (s : State) (a : Access),
     (s.chip.clocked = true) ∧
     (Who.mayWrite a.who s.chip = true)) :=
  ⟨⟨sB 76 {goDropped := true}, acc2 .firmware (.block 76 4) 0x10, by decide +kernel, _, rfl, by decide +kernel⟩,
   ⟨sB 76 {goDropped := true}, acc2 .firmware (.block 0 0xF004) 0x1A0052, by decide +kernel, 1, by decide +kernel⟩,
   ⟨sB 76 {goDropped := true}, acc2 .firmware .hole 0x10, by decide +kernel⟩,
   ⟨sB 76 {goDropped := true}, acc2 (.fn 5) (.block 76 4) 0x10, by decide +kernel, _, _, rfl, by decide +kernel⟩,
   ⟨sB 76 {}, acc2 .firmware (.block 76 0x130) 0x10, by decide +kernel, _, _, rfl, by decide +kernel⟩,
   ⟨sB 89 {latch := [(0x110, some 0x55667788)]}, acc2 .firmware (.block 89 0x114) 0x12345678, by decide +kernel, 1, 0x55667788, by decide +kernel⟩,
   ⟨sB 76 {goDropped := true}, acc2 .firmware (.block 76 4) 0x10, by decide +kernel⟩⟩

end Sys2Proof.Tests.W05
end

