-- ==== Sys2Proof/Tests/Witness06.lean ====
section
/-! SUPPORT. Machines and operands that meet the hypotheses of the statements, clause by clause. -/

namespace Sys2Proof.Tests.W06
open Sys2Proof.Machine
set_option maxRecDepth 100000
set_option Elab.async false

def pS (x : NetPort) (l : List (Nat × Nat) := []) (f : Chip → Chip := id) : State := mk (f (setE (recTrd 1) l { tChip with ports := [(0, {linkUp := true}), (1, x)], tmb := { now := 1000 * 65536, up := 1000*65536, state := .locked, lockedEpoch := true, lockedEver := true }, par := act }))

def te (x : Engine) (c : Chip) : Chip := { c with engines := [(3, xw), (17, x), (18, xw)] }

def cyc : List (Nat × Nat) := [(8*0x120, 500), (8*0x108, 1), (8*0x110, 50)]

def tg : Image := { tImg with progId := 0x10010, params := [0x0000200500001003, 0, 7, 8] }

def tgr : Run := { tRunL with image := tg }

def fr : Frame := ⟨1, 2000, 2100, 0x112233445566, 5, false, 0, 0, 0x1234, none, false, false, 0, 0, 0, 100, [1,2,3], true⟩

def strm : List (Nat × Nat) := [(8*0x1040, 1), (8*0x1040+4, 15), (8*0x1044, 0x112233445566), (8*0x1054+24, 1)]

def addS (l : List (Nat × Nat)) (c : Chip) : Chip := setE 81 l c

def hf : HeldFrame := ⟨{fr with rtag := some 5}, 2⟩

def wn : List (Nat × Nat) := [(8*(0xB000+64*3), 1), (8*(0xB000+64*3+1), 1), (8*(0xB000+64*3+8), 100), (8*(0xB000+64*3+12), 300)]

def fQ : TxFrame := ⟨2, .ptp, 60⟩

def fA : TxFrame := ⟨2, .ack 3, 60⟩

/-- Each clause of PortLinks (obligation PortsAndCycles): a machine and operands that meet its hypotheses. -/
theorem test_meets_PortLinks :
    (∃ (s : State) (p : Port),
     (s.chip.clocked = true) ∧
     let x := s.chip.port p
     (x.linkUp = false) ∧
     (s.chip.eff (recTrd p) 0x100 0 ≠ 0)) ∧
    (∃ (s : State) (p : Port),
     (s.chip.clocked = true) ∧
     let x := s.chip.port p
     (x.linkUp = true)) ∧
    (∃ (s : State) (p : Port),
     (s.chip.clocked = true) ∧
     let x := s.chip.port p
     (x.verifying = true)) :=
  ⟨⟨pS {} [(8*0x100, 3)], 1, by decide +kernel⟩,
   ⟨pS {linkUp := true, verifying := true, tx := some ⟨1,.ptp,3⟩} [], 1, by decide +kernel⟩,
   ⟨pS {linkUp := true, verifying := true, tx := some ⟨1,.ptp,3⟩} [], 1, by decide +kernel⟩⟩

/-- Each clause of CycleStart (obligation PortsAndCycles): a machine and operands that meet its hypotheses. -/
theorem test_meets_CycleStart :
    (∃ (s : State) (p : Port) (i : Image),
     let e := 16 + p.val
     (s.chip.clocked = true) ∧
     (s.chip.vault.stopped = false) ∧
     ((s.chip.blk (recTrd p)).staged = false) ∧
     (s.chip.tmb.lockedEpoch = true) ∧
     ((s.chip.slot e (s.chip.eff (recTrd p) 0x108 1)).cur = some i) ∧
     ((s.chip.port p).state = .armed)) ∧
    (∃ (s : State) (p : Port) (i : Image),
     let e := 16 + p.val
     (s.chip.clocked = true) ∧
     (s.chip.vault.stopped = false) ∧
     ((s.chip.blk (recTrd p)).staged = false) ∧
     (s.chip.tmb.lockedEpoch = true) ∧
     ((s.chip.slot e (s.chip.eff (recTrd p) 0x108 1)).cur = some i) ∧
     ((s.chip.port p).state = .running) ∧
     ((s.chip.eng e).wait = some .cycle)) :=
  ⟨⟨pS {state := .armed} cyc (te { xw with slots := [(0, { cur := some tImg })], run := none, cycleNo := 1 }), 1, tImg, by decide +kernel⟩,
   ⟨pS {state := .running, cycleStart := some 550, missed := 3} cyc (te { xw with slots := [(0, { cur := some tImg })], run := some tRunL, cycleNo := 1, wait := some .cycle }), 1, tImg, by decide +kernel⟩⟩

/-- Each clause of PortIdled (obligation PortsAndCycles): a machine and operands that meet its hypotheses. -/
theorem test_meets_PortIdled :
    (∃ (p : Port),
     ∃ q,
     (q ≠ p.val)) ∧
    (∃ (p : Port),
     ∃ o,
     (o ≠ 16 + p.val)) :=
  ⟨⟨1, 0, by decide +kernel⟩,
   ⟨1, 3, by decide +kernel⟩⟩

/-- Each clause of TgclRun (obligation PortsAndCycles): a machine and operands that meet its hypotheses. -/
theorem test_meets_TgclRun :
    ∃ (s : State) (p : Port) (r : Run),
    (s.chip.clocked = true) ∧
    (s.chip.stock (16 + p.val) 0x10010 0 = some r) :=
  ⟨pS {state := .running} cyc (te { xw with run := some tgr }), 1, tgr, by decide +kernel⟩

/-- Each clause of FrameReceived (obligation Frames): a machine and operands that meet its hypotheses. -/
theorem test_meets_FrameReceived :
    (∃ (s : State) (f : Frame),
     (s.chip.clocked = true) ∧
     ((s.chip.port f.port).linkUp = true) ∧
     (f.fcsOk = false)) ∧
    (∃ (s : State) (f : Frame),
     (s.chip.clocked = true) ∧
     ((s.chip.port f.port).linkUp = true) ∧
     (f.fcsOk = true) ∧
     (s.chip.eff (recTrd f.port) 0x10C 0 < f.length)) ∧
    (∃ (s : State) (f : Frame),
     (s.chip.clocked = true) ∧
     ((s.chip.port f.port).linkUp = true) ∧
     (f.fcsOk = true) ∧
     (f.length ≤ s.chip.eff (recTrd f.port) 0x10C 0) ∧
     (s.chip.identifyFrame f = none) ∧
     (f.etype ≠ 0x88F7) ∧
     (f.ip = false)) ∧
    (∃ (s : State) (f : Frame),
     (s.chip.clocked = true) ∧
     ∃ h,
     ((s.chip.port f.port).linkUp = true) ∧
     (f.fcsOk = true) ∧
     (f.length ≤ s.chip.eff (recTrd f.port) 0x10C 0) ∧
     (s.chip.identifyFrame f = some h) ∧
     (s.chip.strF h 0x18 0 = 0) ∧
     (s.chip.strF h 0x14 24 = 1)) ∧
    (∃ (s : State),
     (s.chip.clocked = true) ∧
     ∃ h : Fin 1024,
     ((s.chip.stream h).recov.isSome = true)) :=
  ⟨⟨pS {linkUp := true}, {fr with fcsOk := false}, by decide +kernel⟩,
   ⟨pS {linkUp := true}, {fr with length := 10000}, by decide +kernel⟩,
   ⟨pS {linkUp := true}, fr, by decide +kernel⟩,
   ⟨pS {linkUp := true} [] (addS strm), fr, by decide +kernel, _, by decide +kernel, by decide +kernel, by decide +kernel, rfl, by decide +kernel⟩,
   ⟨pS {linkUp := true} [] (fun c => { c with streams := [(2, { recov := some 5, hist := [true] })] }), by decide +kernel, 2, by decide +kernel⟩⟩

/-- Each clause of HoldExpires (obligation SequenceRecovery): a machine and operands that meet its hypotheses. -/
theorem test_meets_HoldExpires :
    (∃ (s : State) (x : HeldFrame),
     (s.chip.clocked = true) ∧
     (firstHeld s.chip.held = some x) ∧
     let d := recover (s.chip.strF x.stream 0x1C 0) (s.chip.strF x.stream 0x14 25 == 1) (x.frame.rtag.map (·.toNat)) (s.chip.stream x.stream)
     (d.1 = false)) ∧
    (∃ (s : State) (x : HeldFrame),
     (s.chip.clocked = true) ∧
     (firstHeld s.chip.held = some x) ∧
     let d := recover (s.chip.strF x.stream 0x1C 0) (s.chip.strF x.stream 0x14 25 == 1) (x.frame.rtag.map (·.toNat)) (s.chip.stream x.stream)
     (d.1 = true)) :=
  ⟨⟨pS {linkUp := true} [] (fun c => { c with held := [⟨{fr with last := 2300}, 1⟩, hf], streams := [(2, {recov := some 5, hist := [true]})] }), hf, by decide +kernel⟩,
   ⟨pS {linkUp := true} [] (fun c => { c with held := [hf] }), hf, by decide +kernel⟩⟩

/-- Each clause of SequenceRecovery (obligation SequenceRecovery): a machine and operands that meet its hypotheses. -/
theorem test_meets_SequenceRecovery :
    (∃ (H s : Nat) (x : StreamState),
     (1 < H) ∧
     (H < 2 ^ 15) ∧
     (s < 2 ^ 16) ∧
     (x.recov = none)) ∧
    (∃ (H s : Nat) (x : StreamState),
     (1 < H) ∧
     (H < 2 ^ 15) ∧
     (s < 2 ^ 16) ∧
     ∃ l,
     (x.recov = some s) ∧
     (x.hist = true :: l)) ∧
    (∃ (H s : Nat) (x : StreamState),
     (1 < H) ∧
     (H < 2 ^ 15) ∧
     (s < 2 ^ 16) ∧
     (x.recov = some s)) ∧
    (∃ (H s : Nat) (x : StreamState),
     (1 < H) ∧
     (H < 2 ^ 15) ∧
     (s < 2 ^ 16) ∧
     (x.recov = some s)) ∧
    (∃ (H s : Nat),
     (1 < H) ∧
     (H < 2 ^ 15) ∧
     (s < 2 ^ 16)) :=
  ⟨⟨8, 5, {}, by decide +kernel⟩,
   ⟨8, 65535, {recov := some 65535, hist := [true]}, by decide +kernel, by decide +kernel, by decide +kernel, _, by decide +kernel, rfl⟩,
   ⟨8, 65535, {recov := some 65535, hist := [true]}, by decide +kernel⟩,
   ⟨8, 65535, {recov := some 65535, hist := [true]}, by decide +kernel⟩,
   ⟨8, 5, by decide +kernel⟩⟩

/-- Each clause of WindowCloses (obligation Frames): a machine and operands that meet its hypotheses. -/
theorem test_meets_WindowCloses :
    ∃ (s : State) (x : Fin 256) (t : Nat),
    (s.chip.clocked = true) ∧
    let p := s.chip.winF x 1 0
    ((s.chip.port p).state = .running) ∧
    ((s.chip.port p).cycleStart = some t) ∧
    ((s.chip.win x).live = true) :=
  ⟨pS {linkUp := true, state := .running, cycleStart := some 900} cyc (fun c => addS wn { c with wins := [(3, {live := true, next := 7}), (4, {live := true})] }), 3, 900, by decide +kernel⟩

/-- Each clause of FrameLeaves (obligation Frames): a machine and operands that meet its hypotheses. -/
theorem test_meets_FrameLeaves :
    (∃ (s : State) (p : Port) (f : TxFrame),
     (s.chip.clocked = true) ∧
     ((s.chip.port p).linkUp = true) ∧
     (s.chip.netServes = true) ∧
     ((s.chip.accrue p).nextFrame p = some f) ∧
     (f.kind.qpOf = none) ∧
     ((∀ x, f.kind ≠ .ack x))) ∧
    (∃ (s : State) (p : Port) (f : TxFrame),
     (s.chip.clocked = true) ∧
     ((s.chip.port p).linkUp = true) ∧
     (s.chip.netServes = true) ∧
     ((s.chip.accrue p).nextFrame p = some f) ∧
     ∃ x,
     (f.kind = .ack x) ∧
     (s.chip.winF x 7 4 = 0)) :=
  ⟨⟨pS {linkUp := true, heddles := 255, queue := [⟨1, .ptp, 60⟩, fQ, fQ]}, 1, fQ, by decide +kernel, by decide +kernel, by decide +kernel, by decide +kernel, by decide +kernel, fun _ h => nomatch h⟩,
   ⟨pS {linkUp := true, heddles := 255, queue := [⟨1, .ptp, 60⟩, fA, fQ]} [] (fun c => addS wn { c with wins := [(3, {live := true, ackQueued := true})] }), 1, fA, by decide +kernel, by decide +kernel, by decide +kernel, by decide +kernel, _, rfl, by decide +kernel⟩⟩

end Sys2Proof.Tests.W06
end

