-- ==== Sys2Proof/Tests/Witness07.lean ====
section
/-! SUPPORT. Machines and operands that meet the hypotheses of the statements, clause by clause. -/

namespace Sys2Proof.Tests.W07
open Sys2Proof.Machine
set_option maxRecDepth 100000
set_option Elab.async false

def q1 : Queue := { size := 16, tail := 20, done := 15, head := 14, nextPos := 17, base := 0x1000, shadow := 0x2000, cache := [(17, mkE 0x80 3)], vector := 3 }

def q2 (e : BitVec 512) : Queue := { size := 16, tail := 20, done := 15, nextPos := 17, cache := [(17, e)] }

def ee := mkE 0x80 3

def eb := mkE 0x7F 3

def e4 := mkE 4 3

def e10 := mkE 0x11 3

def sb (c : Chip) : Chip := { c with par := { role := .standby, blockLeft := 4, blockNext := 9 } }

def a1 : Adm := { pos := 15, entry := mkE 0x80 0x13, seq := 77, status := some (5, 3) }

def aS (f : Nat) (a : Adm) (x : Func := {}) (h : Chip → Chip := id) (more : Tab Queue := []) : State := mk (h { tChip with par := act, funcs := [(f, { x with enable := true, queues := [(0, { created := true, size := 16, tail := 20, done := 14, nextPos := 17, work := [a] })] ++ more })], pools := [(5, {held := 9, granted := 9})] })

def c1 := ad 1 [(4, 3), (8, 31), (0x10, 0x8000), (0x28, 0x4000), (6, 2), (5, 9)]

def c2 := ad 2 [(4, 3)]

def c3 := ad 3 [(4, 0xFFFF), (8, 64), (0x28, 0x4000), (6, 2)]

def c30 := ad 3 []

def ev : Raised := ⟨{type := 9, info := 3, data := 55, seq := 6}, [5], none⟩

def fe : Func := { evtSet := true, evtBase := 0x9000, evtSize := 16, evtMask := 0x200, evtTail := 18, evtHead := 10, evtVector := 4, ring := [{type := 3}, {type := 4}] }

/-- Each clause of Doorbells (obligation QueueHandover): a machine and operands that meet its hypotheses. -/
theorem test_meets_Doorbells :
    (∃ (s : State) (f : Fn) (g : Grp) (v : W32) (p : Nat),
     (s.chip.clocked = true) ∧
     ((s.chip.fn f).flr = none) ∧
     let q := s.chip.queue f g
     (s.chip.live f g = true) ∧
     (v.toNat % 2 ^ 16 = p % q.size) ∧
     (v.toNat / 2 ^ 16 % 2 = p / q.size % 2) ∧
     (q.done ≤ q.tail) ∧
     (q.tail ≤ p) ∧
     (p ≤ q.done + q.size) ∧
     (0 < q.size)) ∧
    (∃ (s : State) (f : Fn) (g : Grp),
     (s.chip.clocked = true) ∧
     ((s.chip.fn f).flr = none) ∧
     (s.chip.live f g = false)) ∧
    (∃ (s : State) (f : Fn) (g : Grp) (v : W32) (p : Nat),
     (s.chip.clocked = true) ∧
     ((s.chip.fn f).flr = none) ∧
     let q := s.chip.queue f g
     (s.chip.live f g = true) ∧
     (v.toNat % 2 ^ 16 = p % q.size) ∧
     (q.nextPos ≤ p) ∧
     (q.done ≤ p) ∧
     (p < q.tail) ∧
     (p < q.done + q.size)) ∧
    (∃ (s : State) (f : Fn) (g : Grp) (v : W32) (p : Nat),
     (s.chip.clocked = true) ∧
     ((s.chip.fn f).flr = none) ∧
     let q := s.chip.queue f g
     (s.chip.live f g = true) ∧
     (v.toNat % 2 ^ 16 = p % q.size) ∧
     (p < q.nextPos) ∧
     (q.done ≤ p) ∧
     (p < q.tail) ∧
     (p < q.done + q.size)) :=
  ⟨⟨qS 5 2 q1, 5, 2, 0x10006, 22, by decide +kernel⟩,
   ⟨qS 5 2 q1, 5, 3, by decide +kernel⟩,
   ⟨qS 5 2 q1, 5, 2, 3, 19, by decide +kernel⟩,
   ⟨qS 5 2 q1, 5, 2, 0, 16, by decide +kernel⟩⟩

/-- Each clause of EntryFetched (obligation QueueHandover): a machine and operands that meet its hypotheses. -/
theorem test_meets_EntryFetched :
    (∃ (s : State) (f : Fn) (g : Grp) (e : BitVec 512) (p : Nat),
     (s.chip.clocked = true) ∧
     let q := s.chip.queue f g
     (s.chip.live f g = true) ∧
     (q.error = false) ∧
     (q.stopped = false) ∧
     ((s.chip.fn f).flr = none) ∧
     (s.chip.vault.stopped = false) ∧
     (s.chip.outOfPlaces = false) ∧
     (q.nextFetch (s.chip.window q) q.nextPos = some p) ∧
     (eOwn e = true)) ∧
    (∃ (s : State) (f : Fn) (g : Grp) (e : BitVec 512) (p : Nat),
     (s.chip.clocked = true) ∧
     let q := s.chip.queue f g
     (s.chip.live f g = true) ∧
     (q.error = false) ∧
     (q.stopped = false) ∧
     ((s.chip.fn f).flr = none) ∧
     (s.chip.vault.stopped = false) ∧
     (s.chip.outOfPlaces = false) ∧
     (q.nextFetch (s.chip.window q) q.nextPos = some p) ∧
     (eOwn e = false)) ∧
    (∃ (s : State) (f : Fn) (g : Grp) (p : Nat),
     (s.chip.clocked = true) ∧
     let q := s.chip.queue f g
     (s.chip.live f g = true) ∧
     (q.error = false) ∧
     (q.stopped = false) ∧
     ((s.chip.fn f).flr = none) ∧
     (s.chip.vault.stopped = false) ∧
     (s.chip.outOfPlaces = false) ∧
     (q.nextFetch (s.chip.window q) q.nextPos = some p)) :=
  ⟨⟨qS 5 2 q1, 5, 2, mkE 0x80 3, 18, by decide +kernel⟩,
   ⟨qS 5 2 q1, 5, 2, (mkE 0x80 3).setWidth 511 |>.setWidth 512, 18, by decide +kernel⟩,
   ⟨qS 5 2 q1, 5, 2, 18, by decide +kernel⟩⟩

/-- Each clause of EntryAdmitted (obligation EntriesRun): a machine and operands that meet its hypotheses. -/
theorem test_meets_EntryAdmitted :
    ∃ (s : State) (f : Fn) (g : Grp) (e : BitVec 512),
    (s.chip.clocked = true) ∧
    let q := s.chip.queue f g
    (s.chip.live f g = true) ∧
    ((s.chip.fn f).flr = none) ∧
    (s.chip.vault.stopped = false) ∧
    (s.chip.par.handing = .none) ∧
    (s.chip.admits = true) ∧
    (q.cached q.nextPos = some e) ∧
    (eFirst e = true) ∧
    (eLast e = true) ∧
    ((s.chip.fn f).fenceBlocks g q.nextPos e = false) ∧
    ((g = 0 ∨ s.chip.calendarOk q 1 = true)) :=
  ⟨qS 5 2 (q2 ee), 5, 2, ee, by decide +kernel⟩

/-- Each clause of EntryCompletes (obligation EntriesRun): a machine and operands that meet its hypotheses. -/
theorem test_meets_EntryCompletes :
    (∃ (s : State) (f : Fn) (g : Grp) (a : Adm) (l : List Adm) (code detail : Nat),
     (s.chip.clocked = true) ∧
     ((s.chip.fn f).flr = none) ∧
     let q := s.chip.queue f g
     (q.work = a :: l) ∧
     (a.status = some (code, detail)) ∧
     (a.pos = q.done)) ∧
    (∃ (s : State) (f : Fn) (g : Grp),
     (s.chip.clocked = true) ∧
     ((s.chip.fn f).flr = none) ∧
     let q := s.chip.queue f g
     (q.done ≠ q.head)) ∧
    (∃ (s : State) (f : Fn) (n : Fin 64),
     (s.chip.clocked = true) ∧
     ((s.chip.fn f).flr = none) ∧
     let x := s.chip.fn f
     (n.val ∈ x.msix)) :=
  ⟨⟨qS 5 2 { q1 with work := [a1, {a1 with pos := 16}] } { msix := [7] }, 5, 2, a1, [{a1 with pos := 16}], 5, 3, by decide +kernel⟩,
   ⟨qS 5 2 { q1 with work := [a1, {a1 with pos := 16}] } { msix := [7] }, 5, 2, by decide +kernel⟩,
   ⟨qS 5 2 { q1 with work := [a1, {a1 with pos := 16}] } { msix := [7] }, 5, 7, by decide +kernel⟩⟩

/-- Each clause of QueueCommands (obligation QueueServices): a machine and operands that meet its hypotheses. -/
theorem test_meets_QueueCommands :
    (∃ (s : State) (f : Fn) (ix : BitVec 16) (a : Adm),
     (s.chip.clocked = true) ∧
     let e := a.entry
     let x := s.chip.fn f
     let q := s.chip.queue f (eField e 4 1 + 1)
     (s.chip.entryAt f 0 ix 0x01 a) ∧
     (x.flr = none) ∧
     (q.created = false)) ∧
    (∃ (s : State) (f : Fn) (ix : BitVec 16) (a : Adm),
     (s.chip.clocked = true) ∧
     let e := a.entry
     let q := s.chip.queue f (eField e 4 1 + 1)
     (s.chip.entryAt f 0 ix 0x02 a) ∧
     (q.created = true) ∧
     (q.error = false) ∧
     (q.done = q.tail)) ∧
    (∃ (s : State) (f : Fn) (ix : BitVec 16) (a : Adm),
     (s.chip.clocked = true) ∧
     let e := a.entry
     let q := s.chip.queue f (eField e 4 1 + 1)
     (s.chip.entryAt f 0 ix 0x02 a) ∧
     (q.created = true) ∧
     (q.error = false) ∧
     (q.done < q.tail)) ∧
    (∃ (s : State) (f : Fn) (ix : BitVec 16) (a : Adm),
     (s.chip.clocked = true) ∧
     let e := a.entry
     let x := s.chip.fn f
     (s.chip.entryAt f 0 ix 0x03 a) ∧
     ((x.evtSet = true → x.evtTail ≤ x.evtHead)) ∧
     (eField e 8 4 ≠ 0) ∧
     (x.lostSince = 0)) ∧
    (∃ (s : State) (f : Fn) (ix : BitVec 16) (a : Adm),
     (s.chip.clocked = true) ∧
     let e := a.entry
     let x := s.chip.fn f
     (s.chip.entryAt f 0 ix 0x03 a) ∧
     ((x.evtSet = true → x.evtTail ≤ x.evtHead)) ∧
     (eField e 8 4 = 0)) ∧
    (∃ (s : State) (f : Fn) (v : W32),
     (s.chip.clocked = true) ∧
     let x := s.chip.fn f
     (x.enable = false) ∧
     (x.flr = none) ∧
     (v.getLsbD 31 = true) ∧
     (v.toNat % 2 ^ 16 ≠ 0) ∧
     (x.adminBase % 64 = 0) ∧
     (x.adminShadow % 16 = 0)) ∧
    (∃ (s : State) (f : Fn) (v : W32),
     (s.chip.clocked = true) ∧
     let x := s.chip.fn f
     (x.enable = false) ∧
     (x.flr = none) ∧
     (v.getLsbD 31 = true) ∧
     (v.toNat % 2 ^ 16 = 0 ∨ x.adminBase % 64 ≠ 0)) ∧
    (∃ (s : State) (f : Fn),
     (s.chip.clocked = true) ∧
     let x := s.chip.fn f
     (x.enable = true)) :=
  ⟨⟨aS 5 c1, 5, 15, c1, by decide +kernel⟩,
   ⟨aS 5 c2 {} id [(4, { created := true, done := 5, tail := 5 })], 5, 15, c2, by decide +kernel⟩,
   ⟨aS 5 c2 {} id [(4, { created := true, done := 5, tail := 6 })], 5, 15, c2, by decide +kernel⟩,
   ⟨aS 5 c3, 5, 15, c3, by decide +kernel⟩,
   ⟨aS 64 c30 {evtSet := true}, 64, 15, c30, by decide +kernel⟩,
   ⟨mk { tChip with funcs := [(5, {adminBase := 0x1000, adminShadow := 0x20})] }, 5, 0x80050007, by decide +kernel⟩,
   ⟨mk { tChip with funcs := [(5, {adminBase := 0x1001, adminShadow := 0x20})] }, 5, 0x80050007, by decide +kernel⟩,
   ⟨aS 5 c1, 5, by decide +kernel⟩⟩

/-- Each clause of EventRing (obligation QueueServices): a machine and operands that meet its hypotheses. -/
theorem test_meets_EventRing :
    (∃ (s : State) (f : Fn) (x : Raised) (l : List Raised),
     (s.chip.clocked = true) ∧
     let y := s.chip.fn f
     (s.chip.raised = x :: l) ∧
     (x.live = none) ∧
     (x.targets = [f.val]) ∧
     (y.enable = true) ∧
     (y.flr = none) ∧
     (y.evtSet = true) ∧
     (bitAt y.evtMask x.ev.type = true) ∧
     (y.evtFull = false)) ∧
    (∃ (s : State) (f : Fn) (x : Raised) (l : List Raised),
     (s.chip.clocked = true) ∧
     let y := s.chip.fn f
     (s.chip.raised = x :: l) ∧
     (x.live = none) ∧
     (x.targets = [f.val]) ∧
     (y.enable = true) ∧
     (y.flr = none) ∧
     (y.evtSet = true) ∧
     (bitAt y.evtMask x.ev.type = true) ∧
     (y.evtFull = true)) ∧
    (∃ (s : State) (f : Fn) (v : W32) (n : Nat),
     (s.chip.clocked = true) ∧
     let y := s.chip.fn f
     (y.flr = none) ∧
     (y.evtSet = true) ∧
     (0 < y.evtSize) ∧
     (n ≤ y.evtTail - y.evtHead) ∧
     (n ≤ y.evtSize) ∧
     (y.lostSince = 0) ∧
     (v.toNat % 2 ^ 16 = (y.evtHead + n) % y.evtSize) ∧
     (v.toNat / 2 ^ 16 % 2 = (y.evtHead + n) / y.evtSize % 2)) ∧
    (∃ (s : State) (port : Bool),
     (s.chip.clocked = true) ∧
     (bitAt s.chip.pwr.perst (b2n port) = false)) :=
  ⟨⟨qS 5 2 q1 fe (fun c => { c with raised := [ev, ev] }), 5, ev, [ev], by decide +kernel⟩,
   ⟨qS 5 2 q1 {fe with evtHead := 2} (fun c => { c with raised := [ev, ev] }), 5, ev, [ev], by decide +kernel⟩,
   ⟨qS 5 2 q1 fe (fun c => { c with pwr := {c.pwr with perst := 2} }), 5, 0xB, 1, by decide +kernel⟩,
   ⟨qS 5 2 q1 fe (fun c => { c with pwr := {c.pwr with perst := 2} }), false, by decide +kernel⟩⟩

/-- Each clause of FunctionReset (obligation QueueServices): a machine and operands that meet its hypotheses. -/
theorem test_meets_FunctionReset :
    (∃ (s : State) (f : Fn),
     (s.chip.clocked = true) ∧
     let x := s.chip.fn f
     (x.flr = none) ∧
     (s.chip.rma.hostArea = none)) ∧
    (∃ (s : State) (f : Fn) (k : Nat),
     (s.chip.clocked = true) ∧
     let x := s.chip.fn f
     (x.flr = some k) ∧
     ((∀ gq ∈ x.queues, ∀ a ∈ gq.2.work, a.status.isSome = true))) :=
  ⟨⟨qS 5 2 q1 fe, 5, by decide +kernel⟩,
   ⟨qS 5 2 { q1 with work := [a1] } { fe with flr := some 7, msix := [4] }, 5, 7, by decide +kernel⟩⟩

end Sys2Proof.Tests.W07
end

