-- ==== Sys2Proof/Tests/Witness08.lean ====
section
/-! SUPPORT. Machines and operands that meet the hypotheses of the statements, clause by clause. -/

namespace Sys2Proof.Tests.W08
open Sys2Proof.Machine
set_option maxRecDepth 100000
set_option Elab.async false

def okOf {ε : Type} (x : Except ε (List Byte)) : List Byte := match x with | .ok l => l | .error _ => []

def rd (n : Nat := 2) (b := 0) : Adm := ad 0x80 [(4, 3), (8, b), (0x10, n), (0x28, 0x4000), (0x30, 512*n)]

def wr (n : Nat := 2) (b := 0) : Adm := ad 0x81 [(4, 3), (8, b), (0x10, n), (0x28, 0x4000), (0x30, 512*n)]

def dat (n : Nat) : List Byte := (List.range n).map fun i => BitVec.ofNat 8 i

def ind (a : Adm) : Adm := { a with entry := a.entry ||| 0x400 }

def tabl (n : Nat) : List Byte := leBytes 8 0x5000 ++ leBytes 4 n ++ leBytes 4 0

def i5 : Adm := ind (ad 5 [(4, 1), (5,10), (0x28, 0x4000), (0x30, 1)])

def i6 : Adm := ind (ad 6 [(4, 1), (5,2), (0x28, 0x4000), (0x30, 1)])

def l10 : Adm := ad 0x10 [(8, 5), (0x28, 0x4000), (0x30, 5)]

def a4 := ad 4 [(4, 3), (6, 0x77)]

def tg1 : Adm := { pos := 16, entry := mkE 0x80 3 [(2, 0x77)], seq := 70 }

def aS4 (t : List Adm) (cr := true) : State := mk (cs { tChip with funcs := [(5, { queues := [(0, { created := true, size := 16, tail := 20, done := 14, nextPos := 17, work := [a4] }), (4, { created := cr, size := 16, tail := 20, done := 14, nextPos := 17, work := t })] })] })

def i50 : Adm := ad 5 [(4, 0), (5,10), (0x28, 0x4000), (0x30, 4096)]

def i51 : Adm := ad 5 [(4, 1), (5,48), (0x28, 0x4000), (0x30, 4096)]

def i52 : Adm := ad 5 [(4, 1), (5,47), (0x28, 0x4000), (0x30, 4096)]

def g6 : Adm := ad 6 [(4, 1), (5,2), (8, 16), (0x28, 0x4000), (0x30, 64)]

def g6b : Adm := ad 6 [(4, 1), (5,3), (8, 16), (0x28, 0x4000), (0x30, 64)]

/-- Each clause of ReadsAndWrites (obligation HostReadsAndWrites): a machine and operands that meet its hypotheses. -/
theorem test_meets_ReadsAndWrites :
    (∃ (s : State) (f : Fn) (g : Grp) (ix : BitVec 16) (a : Adm),
     (s.chip.clocked = true) ∧
     let c := s.chip
     (c.adm f g ix.toNat = some a) ∧
     (a.status = none) ∧
     (a.data = none) ∧
     (c.fetches (g != 0) a ≠ .nothing)) ∧
    (∃ (s : State) (f : Fn) (g : Grp) (ix : BitVec 16) (a : Adm) (l : List Byte) (n : Option Nat),
     (s.chip.clocked = true) ∧
     let c := s.chip
     let e := a.entry
     (g = 0) ∧
     (c.adm f g ix.toNat = some a) ∧
     (a.status = none) ∧
     (a.data = none) ∧
     (c.fetches false a = .data n) ∧
     ((eInd e = false → l.length = eDlen e)) ∧
     ((∀ m, n = some m → l.length = m))) ∧
    (∃ (s : State) (f : Fn) (g : Grp) (ix : BitVec 16) (a : Adm) (l : List Byte),
     (s.chip.clocked = true) ∧
     let c := s.chip
     let e := a.entry
     (c.adm f g ix.toNat = some a) ∧
     (a.status = none) ∧
     (a.data = none) ∧
     (c.fetches (g != 0) a = .table none) ∧
     (l.length = 16 * eDlen e) ∧
     (fragsOk l = true)) ∧
    (∃ (s : State) (f : Fn) (g : Grp) (ix : BitVec 16) (a : Adm) (l : List Byte) (n : Option Nat),
     (s.chip.clocked = true) ∧
     let c := s.chip
     let e := a.entry
     (c.adm f g ix.toNat = some a) ∧
     (a.status = none) ∧
     (a.data = none) ∧
     (c.fetches (g != 0) a = .table n) ∧
     (l.length = 16 * eDlen e) ∧
     (fragsOk l = false)) ∧
    (∃ (s : State) (f : Fn) (g : Grp) (ix : BitVec 16) (a : Adm) (l : List Byte),
     (s.chip.clocked = true) ∧
     let c := s.chip
     let e := a.entry
     let ps := c.ioParts e
     ∃ is d,
     (g ≠ 0) ∧
     (c.adm f g ix.toNat = some a) ∧
     (a.status = none) ∧
     (a.data = none) ∧
     (c.fetches true a = .data (some l.length)) ∧
     ((eInd e = false → l.length = eDlen e)) ∧
     (eField e 5 1 = 0) ∧
     (c.hostItems f g a ps (some l) 0 ps = some (is, d))) ∧
    (∃ (s : State) (f : Fn) (g : Grp) (ix : BitVec 16) (a : Adm),
     (s.chip.clocked = true) ∧
     let c := s.chip
     let e := a.entry
     let ps := c.ioParts e
     ∃ is d,
     (g ≠ 0) ∧
     (c.entryAt f g ix 0x80 a) ∧
     (c.ioCheck f a false = none) ∧
     (eInd e = false) ∧
     (c.hostItems f g a ps none 0 ps = some (is, d))) ∧
    (∃ (s : State) (f : Fn) (g : Grp) (ix : BitVec 16) (a : Adm),
     (s.chip.clocked = true) ∧
     let c := s.chip
     ∃ code detail,
     (g ≠ 0) ∧
     (c.entryAt f g ix 0x80 a) ∧
     (c.ioCheck f a false = some (code, detail))) ∧
    (∃ (s : State) (f : Fn) (g : Grp) (ix : BitVec 16) (a : Adm),
     (s.chip.clocked = true) ∧
     let c := s.chip
     (g ≠ 0) ∧
     (c.entryAt f g ix 0x81 a) ∧
     (c.ioCheck f a true = none)) ∧
    (∃ (s : State) (f : Fn) (g : Grp) (ix : BitVec 16) (a : Adm),
     (s.chip.clocked = true) ∧
     let c := s.chip
     ∃ code detail,
     (g ≠ 0) ∧
     (c.entryAt f g ix 0x81 a) ∧
     (c.ioCheck f a true = some (code, detail))) :=
  ⟨⟨aG 5 2 {wr with begun := true}, 5, 2, 15, {wr with begun := true}, by decide +kernel⟩,
   ⟨aG 64 0 l10, 64, 0, 15, l10, dat 5, some 5, by decide +kernel⟩,
   ⟨aG 5 0 i6, 5, 0, 15, i6, tabl 4096, by decide +kernel⟩,
   ⟨aG 5 0 i5, 5, 0, 15, i5, tabl 0, some 4096, by decide +kernel⟩,
   ⟨aG 5 2 {wr with begun := true}, 5, 2, 15, {wr with begun := true}, dat 1024, by decide +kernel, _, _, by decide +kernel, by decide +kernel, by decide +kernel, by decide +kernel, by decide +kernel, by decide +kernel, by decide +kernel, rfl⟩,
   ⟨aG 5 2 rd, 5, 2, 15, rd, by decide +kernel, _, _, by decide +kernel, by decide +kernel, by decide +kernel, by decide +kernel, rfl⟩,
   ⟨aG 7 2 rd, 7, 2, 15, rd, by decide +kernel, _, _, by decide +kernel, by decide +kernel, rfl⟩,
   ⟨aG 5 2 wr, 5, 2, 15, wr, by decide +kernel⟩,
   ⟨aG 7 2 wr, 7, 2, 15, wr, by decide +kernel, _, _, by decide +kernel, by decide +kernel, rfl⟩⟩

/-- Each clause of ReadWriteChecks (obligation HostReadsAndWrites): a machine and operands that meet its hypotheses. -/
theorem test_meets_ReadWriteChecks :
    (∃ (c : Chip) (f : Nat) (a : Adm) (w : Bool),
     let v := eField a.entry 4 1
     let may := if w then c.accessOf f v = 3 else c.accessOf f v ≠ 0
     (¬ may)) ∧
    (∃ (c : Chip) (f : Nat) (a : Adm) (w : Bool),
     let v := eField a.entry 4 1
     let x := c.vol v
     let may := if w then c.accessOf f v = 3 else c.accessOf f v ≠ 0
     (may) ∧
     (x.state = .none)) ∧
    (∃ (c : Chip) (f : Nat) (a : Adm) (w : Bool),
     let v := eField a.entry 4 1
     let x := c.vol v
     let may := if w then c.accessOf f v = 3 else c.accessOf f v ≠ 0
     let inRange := (eField a.entry 8 8 + eField a.entry 0x10 4) * x.blockSize ≤ c.volBytes v
     (may) ∧
     (x.state ≠ .none) ∧
     (¬ inRange)) ∧
    (∃ (c : Chip) (f : Nat) (a : Adm) (w : Bool),
     let v := eField a.entry 4 1
     let x := c.vol v
     let may := if w then c.accessOf f v = 3 else c.accessOf f v ≠ 0
     let inRange := (eField a.entry 8 8 + eField a.entry 0x10 4) * x.blockSize ≤ c.volBytes v
     let up := x.serves a.seq = true ∧ (c.arr x.array).recovered = true
     (may) ∧
     (x.state ≠ .none) ∧
     (inRange) ∧
     (¬ up)) ∧
    (∃ (c : Chip) (f : Nat) (a : Adm) (w : Bool),
     let v := eField a.entry 4 1
     let x := c.vol v
     let may := if w then c.accessOf f v = 3 else c.accessOf f v ≠ 0
     let inRange := (eField a.entry 8 8 + eField a.entry 0x10 4) * x.blockSize ≤ c.volBytes v
     let up := x.serves a.seq = true ∧ (c.arr x.array).recovered = true
     (may) ∧
     (x.state ≠ .none) ∧
     (inRange) ∧
     (up) ∧
     ((c.arr x.array).failed = true)) ∧
    (∃ (c : Chip) (f : Nat) (a : Adm) (w : Bool),
     let v := eField a.entry 4 1
     let x := c.vol v
     let may := if w then c.accessOf f v = 3 else c.accessOf f v ≠ 0
     let inRange := (eField a.entry 8 8 + eField a.entry 0x10 4) * x.blockSize ≤ c.volBytes v
     let up := x.serves a.seq = true ∧ (c.arr x.array).recovered = true
     (may) ∧
     (x.state ≠ .none) ∧
     (inRange) ∧
     (up) ∧
     ((c.arr x.array).failed = false) ∧
     ((w = false ∨ c.noRegion = false))) ∧
    (∃ (c : Chip) (f : Nat) (a : Adm) (w : Bool),
     let v := eField a.entry 4 1
     let x := c.vol v
     let may := if w then c.accessOf f v = 3 else c.accessOf f v ≠ 0
     let inRange := (eField a.entry 8 8 + eField a.entry 0x10 4) * x.blockSize ≤ c.volBytes v
     let up := x.serves a.seq = true ∧ (c.arr x.array).recovered = true
     (may) ∧
     (x.state ≠ .none) ∧
     (inRange) ∧
     (up) ∧
     ((c.arr x.array).failed = false) ∧
     (w = true) ∧
     (c.noRegion = true)) ∧
    (∃ (f : Nat),
     (isPf f = true)) :=
  ⟨⟨(aG 5 2 rd).chip, 7, rd, false, by decide +kernel⟩,
   ⟨(aG 5 2 rd).chip, 64, ad 0x80 [(4,9)], true, by decide +kernel⟩,
   ⟨(aG 5 2 rd).chip, 5, rd 1 (6*256), true, by decide +kernel⟩,
   ⟨{(aG 5 2 rd).chip with volumes := [(3, {vol3 with state := .unformatted})]}, 5, rd, true, by decide +kernel⟩,
   ⟨{(aG 5 2 rd).chip with arrays := [(2, {arr2 with failed := true})]}, 5, rd, true, by decide +kernel⟩,
   ⟨(aG 5 2 rd).chip, 5, rd, false, by decide +kernel⟩,
   ⟨{(aG 5 2 rd).chip with cache := {}}, 5, wr, true, by decide +kernel⟩,
   ⟨64, by decide +kernel⟩⟩

/-- Each clause of HostAdminCommands (obligation AdminAndLoader): a machine and operands that meet its hypotheses. -/
theorem test_meets_HostAdminCommands :
    (∃ (s : State) (f : Fn) (ix : BitVec 16) (a : Adm),
     (s.chip.clocked = true) ∧
     let c := s.chip
     let e := a.entry
     let g := eField e 4 1 + 1
     (c.entryAt f 0 ix 0x04 a) ∧
     ((c.queue f g).created = true) ∧
     ((c.queue f g).target (eField e 6 2) a.seq = none)) ∧
    (∃ (s : State) (f : Fn) (ix : BitVec 16) (a t : Adm),
     (s.chip.clocked = true) ∧
     let c := s.chip
     let e := a.entry
     let g := eField e 4 1 + 1
     (c.entryAt f 0 ix 0x04 a) ∧
     ((c.queue f g).created = true) ∧
     ((c.queue f g).target (eField e 6 2) a.seq = some t) ∧
     (t.committed = true)) ∧
    (∃ (s : State) (f : Fn) (ix : BitVec 16) (a t : Adm),
     (s.chip.clocked = true) ∧
     let c := s.chip
     let e := a.entry
     let g := eField e 4 1 + 1
     (c.entryAt f 0 ix 0x04 a) ∧
     ((c.queue f g).created = true) ∧
     ((c.queue f g).target (eField e 6 2) a.seq = some t) ∧
     (t.committed = false)) ∧
    (∃ (s : State) (f : Fn) (ix : BitVec 16) (a : Adm),
     (s.chip.clocked = true) ∧
     let c := s.chip
     let e := a.entry
     let g := eField e 4 1 + 1
     (c.entryAt f 0 ix 0x04 a) ∧
     ((c.queue f g).created = false)) ∧
    (∃ (s : State) (f : Fn) (ix : BitVec 16) (a : Adm) (l : List Byte),
     (s.chip.clocked = true) ∧
     let c := s.chip
     let e := a.entry
     (c.entryAt f 0 ix 0x05 a) ∧
     (a.placed = true) ∧
     (c.identify f (eField e 4 1) (eField e 5 1) = .ok l)) ∧
    (∃ (s : State) (f : Fn) (ix : BitVec 16) (a : Adm),
     (s.chip.clocked = true) ∧
     let c := s.chip
     let e := a.entry
     (c.entryAt f 0 ix 0x05 a) ∧
     (a.placed = true) ∧
     (eField e 4 1 = 1) ∧
     (48 ≤ eField e 5 1)) ∧
    (∃ (s : State) (f : Fn) (ix : BitVec 16) (a : Adm) (l : List Byte),
     (s.chip.clocked = true) ∧
     let c := s.chip
     let e := a.entry
     (c.entryAt f 0 ix 0x06 a) ∧
     (eInd e = false) ∧
     (c.log (eField e 4 1) (eField e 5 1) = some l)) ∧
    (∃ (s : State) (f : Fn) (ix : BitVec 16) (a : Adm),
     (s.chip.clocked = true) ∧
     let c := s.chip
     let e := a.entry
     (c.entryAt f 0 ix 0x06 a) ∧
     (a.placed = true) ∧
     (c.log (eField e 4 1) (eField e 5 1) = none)) :=
  ⟨⟨aS4 [], 5, 15, a4, by decide +kernel⟩,
   ⟨aS4 [{tg1 with committed := true}], 5, 15, a4, {tg1 with committed := true}, by decide +kernel⟩,
   ⟨aS4 [tg1], 5, 15, a4, tg1, by decide +kernel⟩,
   ⟨aS4 [tg1] false, 5, 15, a4, by decide +kernel⟩,
   ⟨aG 64 0 i50, 64, 15, i50, okOf ((aG 64 0 i50).chip.identify 64 0 10), by decide +kernel, by decide +kernel, by decide +kernel, rfl⟩,
   ⟨aG 64 0 i51, 64, 15, i51, by decide +kernel⟩,
   ⟨aG 64 0 g6, 64, 15, g6, ((aG 64 0 g6).chip.log 1 2).getD [], by decide +kernel⟩,
   ⟨aG 64 0 g6b, 64, 15, g6b, by decide +kernel⟩⟩

end Sys2Proof.Tests.W08

namespace Sys2Proof.Tests.W08b
open Sys2Proof.Machine
set_option maxRecDepth 100000
set_option Elab.async false

def img : List Byte := leBytes 212 0xd4c2b790d7b41991b56ddbca95bcde913c6d9d1844361e597c950bd182bd570656fcd643c16a375005de99e0d4d433de24dc13db99ae527ac59f6e46bb637c76f0000000000000000000000000000001000000000000000000000000000000000000000000000000000000000000000000000000c3230a973a0d786f718e6c2f184ce86dbdf1eaf8e05c5368f68981cce6e7b73152bdf2a31d2e5c4931738ac008fa0d9c4dba73fa57ef580d007cc8d760fdce56000000000000000000010001000000d40000000300000077010100014958424c

def pubk : List Byte := (img.drop 0x20).take 64

def pl : Adm := ad 0x30 [(4, 1), (5, 2), (8, 77), (0x28, 0x4000), (0x30, 212)] fun a => {a with data := some img}

def sl (a : Adm) (l : List Nat := [1]) (h : Chip → Chip := id) : State := aG 64 0 a fun c => h { c with sec := { c.sec with keys := l.map fun k => (k, sm3 pubk) } }

def pu : Adm := ad 0x31 [(4, 1), (5, 2)]

def pu2 : Adm := ad 0x31 [(4, 0), (5, 0xFF)]

def pu3 : Adm := ad 0x31 [(4, 1), (5, 0xFF)]

def ldS : State := sl pl [1] (setE (recTrd 2) [(8*0x210, 100)])

def s64 (a : Adm) := sl a

def old : State := mk { (cs tChip) with engines := [(3, {xw with slots := [(2, {cur := some {tImg with loadSeq := 50}, old := some tImg})], run := none, queue := [] })] }

def old2 : State := mk { (cs tChip) with engines := [(3, {xw with slots := [(2, {cur := some {tImg with loadSeq := 50}, old := some tImg})], queue := [{seq := 51, handle := 3, source := 0, slot := 2, ep := 0}] })] }

def ks (k : Nat) := ad 0x32 [(4,k)] fun a => {a with data := some pubk}

def kr (k : Nat) := ad 0x33 [(4,k), (8, ofLe ((sm3 pubk).take 4))]

/-- Each clause of LoaderCommands (obligation AdminAndLoader): a machine and operands that meet its hypotheses. -/
theorem test_meets_LoaderCommands :
    (∃ (s : State) (f : Fn) (ix : BitVec 16) (a : Adm) (l : List Byte),
     (s.chip.clocked = true) ∧
     let c := s.chip
     let n := a.entry
     let slot := eField n 4 1
     let engine := eField n 5 1
     ∃ r,
     (c.entryAt f 0 ix 0x30 a) ∧
     (a.data = some l) ∧
     (c.loadReason slot engine (eField n 0x34 2) (eField n 0x36 2) l = some r)) ∧
    (∃ (s : State) (f : Fn) (ix : BitVec 16) (a : Adm) (l : List Byte),
     (s.chip.clocked = true) ∧
     let c := s.chip
     let n := a.entry
     let slot := eField n 4 1
     let engine := eField n 5 1
     (c.entryAt f 0 ix 0x30 a) ∧
     (a.data = some l) ∧
     (c.loadReason slot engine (eField n 0x34 2) (eField n 0x36 2) l = none)) ∧
    (∃ (s : State) (f : Fn) (ix : BitVec 16) (a : Adm),
     (s.chip.clocked = true) ∧
     let c := s.chip
     let n := a.entry
     let slot := eField n 4 1
     let engine := eField n 5 1
     (c.entryAt f 0 ix 0x31 a) ∧
     ((engine = 0xFF ∧ slot < 8 ∨ engine < 4 ∧ slot < 2)) ∧
     (c.slotNamed engine slot = false)) ∧
    (∃ (s : State) (f : Fn) (ix : BitVec 16) (a : Adm),
     (s.chip.clocked = true) ∧
     let c := s.chip
     let n := a.entry
     let slot := eField n 4 1
     let engine := eField n 5 1
     (c.entryAt f 0 ix 0x31 a) ∧
     ((engine = 0xFF ∧ slot < 8 ∨ engine < 4 ∧ slot < 2)) ∧
     (c.slotNamed engine slot = true)) ∧
    (∃ (s : State) (a : Adm) (e : Se) (k : Fin 8),
     (s.chip.clocked = true) ∧
     let c := s.chip
     let n := a.entry
     let slot := eField n 4 1
     ∃ m o,
     ((c.slot e k.val).cur = some m) ∧
     ((c.slot e k.val).old = some o) ∧
     ((∀ x ∈ (c.eng e).items, x.slot = k.val → timeDiff m.loadSeq x.seq ≤ 0)) ∧
     ((∀ r, (c.eng e).run = some r → r.slot = k.val → r.image = m))) :=
  ⟨⟨sl pl [], 64, 15, pl, img, by decide +kernel, _, by decide +kernel, by decide +kernel, rfl⟩,
   ⟨sl pl, 64, 15, pl, img, by decide +kernel⟩,
   ⟨s64 pu, 64, 15, pu, by decide +kernel⟩,
   ⟨s64 pu2, 64, 15, pu2, by decide +kernel⟩,
   ⟨old, pu3, 3, 2, by decide +kernel, _, _, rfl, rfl, by decide +kernel⟩⟩

/-- Each clause of OwnerKeys (obligation AdminAndLoader): a machine and operands that meet its hypotheses. -/
theorem test_meets_OwnerKeys :
    (∃ (s : State) (f : Fn) (ix : BitVec 16) (a : Adm) (l : List Byte),
     (s.chip.clocked = true) ∧
     let c := s.chip
     let k := eField a.entry 4 1
     (c.entryAt f 0 ix 0x32 a) ∧
     (a.data = some l) ∧
     (0 < k) ∧
     (k < 4) ∧
     (c.keyDigest k = none)) ∧
    (∃ (s : State) (f : Fn) (ix : BitVec 16) (a : Adm) (l d : List Byte),
     (s.chip.clocked = true) ∧
     let c := s.chip
     let k := eField a.entry 4 1
     (c.entryAt f 0 ix 0x32 a) ∧
     (a.data = some l) ∧
     (0 < k) ∧
     (k < 4) ∧
     (c.keyDigest k = some d)) ∧
    (∃ (s : State) (f : Fn) (ix : BitVec 16) (a : Adm) (d : List Byte),
     (s.chip.clocked = true) ∧
     let c := s.chip
     let k := eField a.entry 4 1
     (c.entryAt f 0 ix 0x33 a) ∧
     (0 < k) ∧
     (k < 4) ∧
     (c.keyDigest k = some d) ∧
     (tget c.sec.revoked false k = false) ∧
     (d.take 4 = leBytes 4 (eField a.entry 8 4))) ∧
    (∃ (s : State) (f : Fn) (ix : BitVec 16) (a : Adm) (d : List Byte),
     (s.chip.clocked = true) ∧
     let c := s.chip
     let k := eField a.entry 4 1
     (c.entryAt f 0 ix 0x33 a) ∧
     (0 < k) ∧
     (k < 4) ∧
     (c.keyDigest k = some d) ∧
     (tget c.sec.revoked false k = true)) :=
  ⟨⟨sl (ks 2), 64, 15, ks 2, pubk, by decide +kernel⟩,
   ⟨sl (ks 1), 64, 15, ks 1, pubk, sm3 pubk, by decide +kernel⟩,
   ⟨sl (kr 1), 64, 15, kr 1, sm3 pubk, by decide +kernel⟩,
   ⟨sl (kr 1) [1] (fun c => {c with sec := {c.sec with revoked := [(1,true)]}}), 64, 15, kr 1, sm3 pubk, by decide +kernel⟩⟩

end Sys2Proof.Tests.W08b
end

