-- ==== Sys2Proof/Tests/Witness09.lean ====
section
/-! SUPPORT. Machines and operands that meet the hypotheses of the statements, clause by clause. -/

namespace Sys2Proof.Tests.W09
open Sys2Proof.Machine
set_option maxRecDepth 100000
set_option Elab.async false

def mS (x : Member) (m := 20) (h : Chip → Chip := id) : State := mk (h { cs tChip with members := tinsert (terase mbrs m) m x, par := act })

def ai (ok := true) (san := false) : AttachInfo := ⟨ok, true, true, 5, true, 1, 900, 500000000, 512, [1,2], [3], [4], 77, 3, 0, san⟩

def ret : Retire := { pos := 1, old := 11, repl := 20, row := 10 }

def mc (w p : Bool) : MemberCmd := ⟨w, p, 0, 8⟩

def retS (t : Retire) : State := mk { (mS {state := .bound, array := 2, capacity := 200000000, nguid := 555}).chip with arrays := [(2, {arr2 with retire := some t})] }

def m5 : List Byte := [20,21,22,23,24]

def ca (l : List (Nat×Nat)) (m : List Byte := m5) := ad 0x10 ([(0x28, 0x4000), (0x30, 5)] ++ l) fun a => {a with data := some m}

def caOk := ca [(4, 7), (5, 4), (6, 1), (7, 16), (8, 5)]

def caEarly := ca [(4, 16), (5, 4), (6, 1), (7, 16), (8, 5)]

def caLate := ca [(4, 7), (5, 4), (6, 1), (7, 16), (8, 5)] [20,20,21,22,23]

def rdy : Tab Member := mbrs ++ (List.range 6).map fun i => (20 + i, { state := .ready, capacity := 500000000, nguid := 900 + i })

def aR (a : Adm) (h : Chip → Chip := id) : State := aG 64 0 a fun c => h { c with members := rdy }

def da := ad 0x11 [(4, 2)]

def sn := ad 0x21 [(4, 2)]

def rm := ad 0x20 [(4, 2), (5, 1), (6, 20)]

def gone : RaidArray := { arr2 with pos := arr2.pos.set 1 { member := none, state := .unavailable, id := 101 } }

def rs := ad 0x22 [(4, 2), (5, 4), (6, 1), (7, 1), (0x28, 0x4000), (0x30, 1)] fun a => {a with data := some [20]}

def rsBad := ad 0x22 [(4, 2), (5, 3), (6, 1), (7, 1), (0x28, 0x4000), (0x30, 1)] fun a => {a with data := some [20]}

def cv := ad 0x12 [(4, 7), (5, 2), (6, 1), (8, 7), (0x10, 2)]

def cvR := ad 0x12 [(4, 7), (5, 2), (6, 1), (8, 0xFFFFFFFF), (0x10, 4)]

def dv := ad 0x13 [(4, 3)]

def vg := ad 0x14 [(4, 3),(5, 5),(6,3)]

def fv := ad 0x18 [(4, 3)]

def sz (k u : Nat) := ad 0x19 [(4, k),(5, u)]

def noB (c : Chip) : Chip := c

def mtr (d : Nat) (fl := 3) := ad 0x15 ([(4, 3)] ++ if d = 0 then [] else [(0x28, 0x4000),(0x30, d)]) fun a => {a with data := if d = 0 then none else some (List.range 48 |>.map (BitVec.ofNat 8))}

def rt := ad 0x16 [(4,2),(5,1),(6,20)]

def dt (m : Nat) := ad 0x17 [(4,m)]

def busyS : State := aR dv fun c => { c with engines := [(3, { queue := [{ seq := 5, handle := 1, source := 0, slot := 0, ep := 0, body := 3 * 2 ^ 32 }] })] }

/-- Each clause of MemberStates (obligation Members): a machine and operands that meet its hypotheses. -/
theorem test_meets_MemberStates :
    (∃ (s : State) (m : Mbr),
     (s.chip.clocked = true) ∧
     let c := s.chip
     let x := c.mbr m
     ∃ (next : MbrState),
     (x.attached = false) ∧
     (next ≠ .failed)) ∧
    (∃ (s : State) (m : Mbr),
     (s.chip.clocked = true) ∧
     let c := s.chip
     let x := c.mbr m
     ∃ (next : MbrState),
     (x.attached = false) ∧
     (next ≠ .failed) ∧
     ∃ k,
     (k ≠ m.val)) ∧
    (∃ (s : State) (m : Mbr),
     (s.chip.clocked = true) ∧
     let c := s.chip
     let x := c.mbr m
     (x.state.mayFail = true)) ∧
    (∃ (s : State) (m : Mbr),
     (s.chip.clocked = true) ∧
     let c := s.chip
     let x := c.mbr m
     (x.state = .absent) ∧
     (c.noLane m = false) ∧
     (m.val / 4 ∈ c.pwr.groupsTrained)) ∧
    (∃ (s : State) (m : Mbr),
     (s.chip.clocked = true) ∧
     let c := s.chip
     let x := c.mbr m
     (x.state ≠ .absent) ∧
     (x.attached = false)) ∧
    (∃ (s : State) (m : Mbr),
     (s.chip.clocked = true) ∧
     let c := s.chip
     let x := c.mbr m
     (x.state = .absent)) ∧
    (∃ (s : State) (m : Mbr),
     (s.chip.clocked = true) ∧
     let c := s.chip
     let x := c.mbr m
     (x.state = .sanitizing)) ∧
    (∃ (s : State) (m : Mbr),
     (s.chip.clocked = true) ∧
     let c := s.chip
     let x := c.mbr m
     (x.preempting = true)) :=
  ⟨⟨mS {}, 20, by decide +kernel, .ready, by decide +kernel⟩,
   ⟨mS {}, 20, by decide +kernel, .ready, by decide +kernel, by decide +kernel, 5, by decide +kernel⟩,
   ⟨mS {state := .ready, media := [(3,1)]}, 20, by decide +kernel⟩,
   ⟨mk { (mS {}).chip with pwr := { upPwr with groupsTrained := [5] } }, 20, by decide +kernel⟩,
   ⟨mS {state := .ready, media := [(3,1)]}, 20, by decide +kernel⟩,
   ⟨mS {}, 20, by decide +kernel⟩,
   ⟨mS {state := .sanitizing, preempting := true}, 20, by decide +kernel⟩,
   ⟨mS {state := .sanitizing, preempting := true}, 20, by decide +kernel⟩⟩

/-- Each clause of MemberEvents (obligation Members): a machine and operands that meet its hypotheses. -/
theorem test_meets_MemberEvents :
    (∃ (s : State) (m : Mbr) (i : AttachInfo),
     (s.chip.clocked = true) ∧
     let c := s.chip
     let x := c.mbr m
     (x.state = .attaching) ∧
     (x.waits = false) ∧
     ((i.checksOk = false))) ∧
    (∃ (s : State) (m : Mbr) (i : AttachInfo),
     (s.chip.clocked = true) ∧
     let c := s.chip
     let x := c.mbr m
     let auth := c.authOf m i
     (x.state = .attaching) ∧
     (x.waits = false) ∧
     (i.checksOk = true) ∧
     (c.eff (recMbr m) 0x100 0 = 2) ∧
     (auth ≠ 1)) ∧
    (∃ (s : State) (m : Mbr) (i : AttachInfo),
     (s.chip.clocked = true) ∧
     let c := s.chip
     let x := c.mbr m
     (x.state = .attaching) ∧
     (x.waits = false) ∧
     (i.checksOk = true) ∧
     (c.eff (recMbr m) 0x100 0 ≠ 2) ∧
     (bitAt i.critWarn.toNat 2 = false) ∧
     (bitAt i.critWarn.toNat 3 = false)) ∧
    (∃ (s : State) (m : Mbr) (crit : BitVec 8),
     (s.chip.clocked = true) ∧
     let c := s.chip
     let x := c.mbr m
     (x.state.polled = true) ∧
     (bitAt crit.toNat 2 = false) ∧
     (bitAt crit.toNat 3 = false)) ∧
    (∃ (s : State) (m : Mbr),
     (s.chip.clocked = true) ∧
     let c := s.chip
     let x := c.mbr m
     (x.attached = true)) ∧
    (∃ (s : State) (m : Mbr) (k : MemberCmd),
     (s.chip.clocked = true) ∧
     let c := s.chip
     let x := c.mbr m
     (x.attached = true) ∧
     (k.isWrite = true)) ∧
    (∃ (s : State) (m : Mbr) (k : MemberCmd),
     (s.chip.clocked = true) ∧
     let c := s.chip
     let x := c.mbr m
     (x.attached = true) ∧
     (k.isWrite = true) ∧
     (k.proof = false) ∧
     (c.serving = false)) ∧
    (∃ (s : State) (a : Arr) (y : Fin 48) (t : Retire),
     (s.chip.clocked = true) ∧
     let c := s.chip
     ((c.arr a).retire = some t) ∧
     (t.pos = y.val) ∧
     ((c.arr a).rows ≤ t.row) ∧
     ((c.mbr t.repl).attached = true) ∧
     (t.old ≠ t.repl)) :=
  ⟨⟨mS {state := .attaching}, 20, ai false, by decide +kernel⟩,
   ⟨mS {state := .attaching} 20 (fun c => setE (recMbr 20) [(8*0x100,2)] c), 20, ai, by decide +kernel⟩,
   ⟨mS {state := .attaching} 20 (fun c => setE (recMbr 20) [(8*0x100,1)] c), 20, ai, by decide +kernel⟩,
   ⟨mS {state := .ready} 20, 20, 0, by decide +kernel⟩,
   ⟨mS {state := .bound} 10, 10, by decide +kernel⟩,
   ⟨mS {state := .bound} 10, 10, mc true false, by decide +kernel⟩,
   ⟨mS {state := .bound} 10 (fun c => {c with par := {role := .fenced}}), 10, mc true false, by decide +kernel⟩,
   ⟨retS ret, 2, 1, ret, by decide +kernel⟩⟩

/-- Each clause of ArrayCommands (obligation ArraysAndVolumes): a machine and operands that meet its hypotheses. -/
theorem test_meets_ArrayCommands :
    (∃ (s : State) (f : Fn) (ix : BitVec 16) (a : Adm),
     (s.chip.clocked = true) ∧
     let c := s.chip
     let e := a.entry
     ∃ code d,
     (c.entryAt f 0 ix 0x10 a) ∧
     (createEarly e = some (code, d))) ∧
    (∃ (s : State) (f : Fn) (ix : BitVec 16) (a : Adm) (l : List Byte),
     (s.chip.clocked = true) ∧
     let c := s.chip
     let e := a.entry
     let ms := l.map BitVec.toNat
     ∃ code d,
     (c.entryAt f 0 ix 0x10 a) ∧
     (createEarly e = none) ∧
     (a.data = some l) ∧
     (c.createLate e ms = some (code, d))) ∧
    (∃ (s : State) (f : Fn) (ix : BitVec 16) (a : Adm) (l : List Byte),
     (s.chip.clocked = true) ∧
     let c := s.chip
     let e := a.entry
     let ms := l.map BitVec.toNat
     (c.entryAt f 0 ix 0x10 a) ∧
     (createEarly e = none) ∧
     (a.data = some l) ∧
     (c.createLate e ms = none)) ∧
    (∃ (s : State) (f : Fn) (ix : BitVec 16) (a : Adm),
     (s.chip.clocked = true) ∧
     let c := s.chip
     let e := a.entry
     let n := eField e 4 1
     let r := c.arr n
     (c.entryAt f 0 ix 0x11 a) ∧
     (n < 16) ∧
     (r.made = true) ∧
     ((c.volumes.any fun v => v.2.state != .none && v.2.array == n) = true)) ∧
    (∃ (s : State) (f : Fn) (ix : BitVec 16) (a : Adm),
     (s.chip.clocked = true) ∧
     let c := s.chip
     let e := a.entry
     let n := eField e 4 1
     let r := c.arr n
     (c.entryAt f 0 ix 0x11 a) ∧
     (n < 16) ∧
     (r.made = true) ∧
     ((∀ v ∈ c.volumes, v.2.state = .none ∨ v.2.array ≠ n)) ∧
     ((∀ m ∈ c.members, m.2.attached = true → m.2.array ≠ n)) ∧
     ((∀ b ∈ c.bobbins, c.bobArray b ≠ n))) ∧
    (∃ (s : State) (f : Fn) (ix : BitVec 16) (a : Adm),
     (s.chip.clocked = true) ∧
     let c := s.chip
     let e := a.entry
     let n := eField e 4 1
     let r := c.arr n
     (c.entryAt f 0 ix 0x21 a) ∧
     (n < 16) ∧
     (r.made = true) ∧
     (r.pass = none) ∧
     (r.reshape = none)) ∧
    (∃ (s : State) (f : Fn) (ix : BitVec 16) (a : Adm),
     (s.chip.clocked = true) ∧
     let c := s.chip
     let e := a.entry
     let n := eField e 4 1
     let r := c.arr n
     (c.entryAt f 0 ix 0x21 a) ∧
     (n < 16) ∧
     (r.made = true) ∧
     ((r.pass.isSome = true ∨ r.reshape.isSome = true))) ∧
    (∃ (s : State) (f : Fn) (ix : BitVec 16) (a : Adm),
     (s.chip.clocked = true) ∧
     let c := s.chip
     let e := a.entry
     let n := eField e 4 1
     let r := c.arr n
     let y := eField e 5 1
     let m := eField e 6 1
     (c.entryAt f 0 ix 0x20 a) ∧
     (n < 16) ∧
     (r.made = true) ∧
     (y < r.pos.length) ∧
     (m ≤ 47) ∧
     ((∀ p, r.pos[y]? = some p → p.state ≠ .inService)) ∧
     (r.reshape = none) ∧
     (c.mayJoin m r.capacity = true) ∧
     (c.memberAt n y = none)) ∧
    (∃ (s : State) (f : Fn) (ix : BitVec 16) (a : Adm) (l : List Byte),
     (s.chip.clocked = true) ∧
     let c := s.chip
     let e := a.entry
     let n := eField e 4 1
     let r := c.arr n
     let ms := l.map BitVec.toNat
     let k := r.geom.n + eField e 7 1
     let g : Geom := ⟨k, eField e 5 1, eField e 6 1, stripesPerRow k (eField e 5 1) (eField e 6 1)⟩
     (c.entryAt f 0 ix 0x22 a) ∧
     (0 < eField e 7 1) ∧
     (a.data = some l) ∧
     (c.reshapeRange e ms = none) ∧
     (c.reshapeState n g ms = none)) ∧
    (∃ (s : State) (f : Fn) (ix : BitVec 16) (a : Adm) (l : List Byte),
     (s.chip.clocked = true) ∧
     let c := s.chip
     let e := a.entry
     let ms := l.map BitVec.toNat
     ∃ o,
     (c.entryAt f 0 ix 0x22 a) ∧
     (0 < eField e 7 1) ∧
     (a.data = some l) ∧
     (c.reshapeRange e ms = some o)) :=
  ⟨⟨aR caEarly, 64, 15, caEarly, by decide +kernel, _, _, by decide +kernel, rfl⟩,
   ⟨aR caLate, 64, 15, caLate, [20,20,21,22,23], by decide +kernel, _, _, by decide +kernel, by decide +kernel, by decide +kernel, rfl⟩,
   ⟨aR caOk, 64, 15, caOk, m5, by decide +kernel⟩,
   ⟨aR da, 64, 15, da, by decide +kernel⟩,
   ⟨aR da (fun c => {c with volumes := [], members := []}), 64, 15, da, by decide +kernel⟩,
   ⟨aR sn, 64, 15, sn, by decide +kernel⟩,
   ⟨aR sn (fun c => {c with arrays := [(2, {arr2 with pass := some {before := [], target := []}})]}), 64, 15, sn, by decide +kernel⟩,
   ⟨aR rm (fun c => {c with arrays := [(2, gone)]}), 64, 15, rm, by decide +kernel⟩,
   ⟨aR rs, 64, 15, rs, [20], by decide +kernel⟩,
   ⟨aR rsBad, 64, 15, rsBad, [20], by decide +kernel, _, by decide +kernel, by decide +kernel, by decide +kernel, rfl⟩⟩

/-- Each clause of VolumeCommands (obligation ArraysAndVolumes): a machine and operands that meet its hypotheses. -/
theorem test_meets_VolumeCommands :
    (∃ (s : State) (f : Fn) (ix : BitVec 16) (a : Adm),
     (s.chip.clocked = true) ∧
     let c := s.chip
     let e := a.entry
     let v := eField e 4 1
     let x := c.vol v
     let n := eField e 5 1
     let first := eField e 8 8
     let count := eField e 0x10 8
     (c.entryAt f 0 ix 0x12 a) ∧
     (n < 16) ∧
     ((c.arr n).made = true) ∧
     (0 < count) ∧
     (first + count ≤ (c.arr n).stripes) ∧
     (x.state = .none) ∧
     ((∀ w ∈ c.volumes, w.2.state = .none ∨ w.2.array ≠ n ∨ first + count ≤ w.2.first ∨ w.2.first + w.2.count ≤ first))) ∧
    (∃ (s : State) (f : Fn) (ix : BitVec 16) (a : Adm),
     (s.chip.clocked = true) ∧
     let c := s.chip
     let e := a.entry
     (c.entryAt f 0 ix 0x12 a) ∧
     (eField e 5 1 < 16) ∧
     ((c.arr (eField e 5 1)).made = true) ∧
     ((c.arr (eField e 5 1)).stripes ≤ eField e 8 8)) ∧
    (∃ (s : State) (f : Fn) (ix : BitVec 16) (a : Adm),
     (s.chip.clocked = true) ∧
     let c := s.chip
     let e := a.entry
     let v := eField e 4 1
     let x := c.vol v
     (c.entryAt f 0 ix 0x13 a) ∧
     (x.state ≠ .none) ∧
     (c.volBusy v = false) ∧
     (c.volNamed v = false)) ∧
    (∃ (s : State) (f : Fn) (ix : BitVec 16) (a : Adm),
     (s.chip.clocked = true) ∧
     let c := s.chip
     let e := a.entry
     let v := eField e 4 1
     let x := c.vol v
     (c.entryAt f 0 ix 0x13 a) ∧
     (x.state ≠ .none) ∧
     (c.volBusy v = true)) ∧
    (∃ (s : State) (f : Fn) (ix : BitVec 16) (a : Adm),
     (s.chip.clocked = true) ∧
     let c := s.chip
     let e := a.entry
     let v := eField e 4 1
     let x := c.vol v
     let g := eField e 5 1
     (c.entryAt f 0 ix 0x14 a) ∧
     (x.state ≠ .none) ∧
     (g % 64 ≠ 0) ∧
     (g < 128)) ∧
    (∃ (s : State) (f : Fn) (ix : BitVec 16) (a : Adm),
     (s.chip.clocked = true) ∧
     let c := s.chip
     let e := a.entry
     let v := eField e 4 1
     let x := c.vol v
     (c.entryAt f 0 ix 0x18 a) ∧
     (x.state = .unformatted ∨ x.state = .ready) ∧
     ((c.arr x.array).failed = false)) ∧
    (∃ (s : State) (f : Fn) (ix : BitVec 16) (a : Adm),
     (s.chip.clocked = true) ∧
     let c := s.chip
     let e := a.entry
     let u := eField e 5 1
     (c.entryAt f 0 ix 0x19 a) ∧
     (eField e 4 1 = 0) ∧
     ((c.vol u).state = .unformatted ∨ (c.vol u).state = .ready) ∧
     ((c.arr (c.vol u).array).failed = false)) ∧
    (∃ (s : State) (f : Fn) (ix : BitVec 16) (a : Adm),
     (s.chip.clocked = true) ∧
     let c := s.chip
     let e := a.entry
     let u := eField e 5 1
     (c.entryAt f 0 ix 0x19 a) ∧
     (eField e 4 1 ≠ 0) ∧
     (u ≤ 47) ∧
     ((c.mbr u).state = .ready ∨ (c.mbr u).state = .retired)) :=
  ⟨⟨aR cv, 64, 15, cv, by decide +kernel⟩,
   ⟨aR cvR, 64, 15, cvR, by decide +kernel⟩,
   ⟨aR dv, 64, 15, dv, by decide +kernel⟩,
   ⟨busyS, 64, 15, dv, by decide +kernel⟩,
   ⟨aR vg, 64, 15, vg, by decide +kernel⟩,
   ⟨aR fv, 64, 15, fv, by decide +kernel⟩,
   ⟨aR (sz 0 3), 64, 15, sz 0 3, by decide +kernel⟩,
   ⟨aR (sz 1 20), 64, 15, sz 1 20, by decide +kernel⟩⟩

/-- Each clause of MemberCommands (obligation Members): a machine and operands that meet its hypotheses. -/
theorem test_meets_MemberCommands :
    (∃ (s : State) (f : Fn) (ix : BitVec 16) (a : Adm),
     (s.chip.clocked = true) ∧
     let c := s.chip
     let e := a.entry
     let k := eField e 4 1
     (c.entryAt f 0 ix 0x15 a) ∧
     (k < 8) ∧
     (eInd e = false) ∧
     (eDlen e = 0)) ∧
    (∃ (s : State) (f : Fn) (ix : BitVec 16) (a : Adm) (l : List Byte),
     (s.chip.clocked = true) ∧
     let c := s.chip
     let e := a.entry
     let k := eField e 4 1
     (c.entryAt f 0 ix 0x15 a) ∧
     (k < 8) ∧
     (eDlen e ≠ 0) ∧
     (a.data = some l)) ∧
    (∃ (s : State) (f : Fn) (ix : BitVec 16) (a : Adm) (old : Nat),
     (s.chip.clocked = true) ∧
     let c := s.chip
     let e := a.entry
     let n := eField e 4 1
     let y := eField e 5 1
     let m := eField e 6 1
     let r := c.arr n
     (c.entryAt f 0 ix 0x16 a) ∧
     (n < 16) ∧
     (r.made = true) ∧
     (y < r.pos.length) ∧
     (m ≤ 47) ∧
     (c.memberAt n y = some old) ∧
     ((r.pos[y]?.any fun p => p.state == .inService) = true) ∧
     (r.pass = none) ∧
     (r.reshape = none) ∧
     (r.retire = none) ∧
     ((c.mbr m).state = .ready) ∧
     (r.capacity ≤ (c.mbr m).capacity)) ∧
    (∃ (s : State) (f : Fn) (ix : BitVec 16) (a : Adm),
     (s.chip.clocked = true) ∧
     let c := s.chip
     let e := a.entry
     let m := eField e 4 1
     (c.entryAt f 0 ix 0x17 a) ∧
     (m ≤ 47) ∧
     ((c.mbr m).state ≠ .absent) ∧
     ((c.mbr m).state ≠ .bound) ∧
     ((c.mbr m).state ≠ .retiring)) ∧
    (∃ (s : State) (f : Fn) (ix : BitVec 16) (a : Adm),
     (s.chip.clocked = true) ∧
     let c := s.chip
     let e := a.entry
     let m := eField e 4 1
     (c.entryAt f 0 ix 0x17 a) ∧
     (m ≤ 47) ∧
     ((c.mbr m).state = .bound)) :=
  ⟨⟨aR (mtr 0), 64, 15, mtr 0, by decide +kernel⟩,
   ⟨aR (mtr 48), 64, 15, mtr 48, (List.range 48 |>.map (BitVec.ofNat 8)), by decide +kernel⟩,
   ⟨aR rt, 64, 15, rt, 11, by decide +kernel⟩,
   ⟨aR (dt 20), 64, 15, dt 20, by decide +kernel⟩,
   ⟨aR (dt 10), 64, 15, dt 10, by decide +kernel⟩⟩

end Sys2Proof.Tests.W09
end

