-- ==== Sys2Proof/Tests/Witness10.lean ====
section
/-! SUPPORT. Machines and operands that meet the hypotheses of the statements, clause by clause. -/

namespace Sys2Proof.Tests.W10
open Sys2Proof.Machine
set_option maxRecDepth 100000
set_option Elab.async false

def body (l : List (Nat × Nat)) : BitVec 512 := BitVec.ofNat 512 (l.map fun x => x.2 * 2 ^ (8 * x.1)).sum

def it (src strip stripe stage : Nat) (l : List (Nat × Nat) := []) (f : Item → Item := id) : Item := f { seq := 50, handle := 7, source := src, array := 2, route := 2 + strip * 16 + stripe * 512 + stage * 2 ^ 45, body := body l, slot := 0, ep := 0 }

def runSt (prog ep : Nat) (is : List Item) : Run := { slot := 0, ep := ep, image := { st0 with progId := prog }, taken := is }

def hdr (off len : Nat) (fl9 := 0) (fla := 0) : Mem := memOf 128 (leBytes 4 off ++ leBytes 4 len ++ [0] ++ leBytes 1 fl9 ++ leBytes 1 fla ++ List.replicate 53 0 ++ (List.range len).map fun i => BitVec.ofNat 8 (i * 7 + 3))

def sk (e prog ep : Nat) (is : List Item) (h : Chip → Chip := id) : State := mk (h (let c := cs { tChip with par := act }; { c with stg := hdr 512 1024, engines := tput c.engines {} e { c.eng e with run := some (runSt prog ep is) } }))

def fail (c : Chip) : Chip := c.modArr 2 fun r => { r with failed := true }

def alone (c : Chip) : Chip := { c with par := { role := .alone } }

def w1 := it 0 1 2 2

def rr (ep : Nat) (i : Item) := runSt 0x10001 ep [i]

def lost (c : Chip) : Chip := c.modArr 2 fun r => { r with lost := [⟨2, 2, 1⟩] }

def dead (l : List Nat) (c : Chip) : Chip := c.modArr 2 fun r => { r with pos := r.pos.mapIdx fun i p => if l.contains i then { p with member := none, state := .unavailable } else p }

def rc := it 3 0 2 0 [(1,0),(4,2)]

/-- Each clause of StockWrite (obligation StripeReadsAndWrites): a machine and operands that meet its hypotheses. -/
theorem test_meets_StockWrite :
    (∃ (s : State) (e : Se) (r : Run) (i : Item) (is : List Item),
     (s.chip.clocked = true) ∧
     (s.chip.stock e 0x10001 0 = some r) ∧
     (r.taken = i :: is) ∧
     let c := s.chip.gather e i.sameWrite 32
     let all := c.taken e
     let a := i.array
     let g := (c.arr a).geomOf i.stripe
     let ps := all.flatMap (c.piecesOf (c.arr a).stripBytes)
     let full := all.all c.replaces
     ∃ code,
     (c.writeCheck i full g ps = some (code, []))) ∧
    (∃ (s : State) (e : Se) (l : LandResult) (r : Run) (i : Item) (is : List Item),
     (s.chip.clocked = true) ∧
     (s.chip.stock e 0x10001 0 = some r) ∧
     (r.taken = i :: is) ∧
     let c := s.chip.gather e i.sameWrite 32
     let all := c.taken e
     let a := i.array
     let g := (c.arr a).geomOf i.stripe
     let ps := all.flatMap (c.piecesOf (c.arr a).stripBytes)
     let full := all.all c.replaces
     ∃ d,
     (c.writeCheck i full g ps = none) ∧
     ((l = .confirmed ∨ c.par.role = .alone)) ∧
     (c.writeStripe e a i.stripe g full ps all = some d)) ∧
    (∃ (s : State) (e : Se) (r : Run) (i : Item) (is : List Item),
     (s.chip.clocked = true) ∧
     (s.chip.stock e 0x10001 0 = some r) ∧
     (r.taken = i :: is) ∧
     let c := s.chip.gather e i.sameWrite 32
     let a := i.array
     ((c.arr a).failed = true)) :=
  ⟨⟨sk 8 0x10001 0 [w1] fail, 8, rr 0 w1, w1, [], by decide +kernel, by decide +kernel, by decide +kernel, 5, by decide +kernel⟩,
   ⟨sk 8 0x10001 0 [w1], 8, .confirmed, rr 0 w1, w1, [], by decide +kernel, by decide +kernel, by decide +kernel, ex_mid (by decide +kernel)⟩,
   ⟨sk 8 0x10001 0 [w1] fail, 8, rr 0 w1, w1, [], by decide +kernel⟩⟩

/-- Each clause of StockRead (obligation StripeReadsAndWrites): a machine and operands that meet its hypotheses. -/
theorem test_meets_StockRead :
    (∃ (s : State) (e : Se) (r : Run) (i : Item) (is : List Item),
     (s.chip.clocked = true) ∧
     (r.taken = i :: is) ∧
     let c := s.chip
     let a := i.array
     (c.stock e 0x10001 1 = some r) ∧
     ((c.arr a).failed = true)) ∧
    (∃ (s : State) (e : Se) (r : Run) (i : Item) (is : List Item),
     (s.chip.clocked = true) ∧
     (r.taken = i :: is) ∧
     let c := s.chip
     let a := i.array
     let o := c.header i 0 4
     (c.stock e 0x10001 1 = some r) ∧
     ((c.arr a).failed = false) ∧
     (c.readLost i o = true)) ∧
    (∃ (s : State) (e : Se) (r : Run) (i : Item) (is : List Item),
     (s.chip.clocked = true) ∧
     (r.taken = i :: is) ∧
     let c := s.chip
     let a := i.array
     let g := (c.arr a).geomOf i.stripe
     let o := c.header i 0 4
     let n := c.header i 4 4
     ∃ bytes,
     (c.stock e 0x10001 1 = some r) ∧
     ((c.arr a).failed = false) ∧
     (c.readLost i o = false) ∧
     (c.readStrip a g i.stripe i.strip o n = some bytes) ∧
     (c.badChunks a g i.stripe i.strip (o / 512) ((o + n + 511) / 512 - o / 512) = [])) ∧
    (∃ (s : State) (e : Se) (l : LandResult) (r : Run) (i : Item) (is : List Item),
     (s.chip.clocked = true) ∧
     (r.taken = i :: is) ∧
     let c := s.chip
     let a := i.array
     let g := (c.arr a).geomOf i.stripe
     let strips := if i.origin = 9 then [g.w - 2, g.w - 1] else (List.range g.w).filter (bitAt (i.field 4 4))
     let ks := if i.origin = 9 then List.range ((c.arr a).stripBytes / 512) else chunkSectors (c.arr a).stripBytes (i.field 1 1)
     ∃ vals d,
     (c.stock e 0x10001 3 = some r) ∧
     (c.rebuilt a g i.stripe strips ks = some vals) ∧
     ((l = .confirmed ∨ c.par.role = .alone)) ∧
     (c.rewrite e a i.stripe g vals i (512 * ks.length) = some d)) ∧
    (∃ (s : State) (e : Se) (r : Run) (i : Item) (is : List Item),
     (s.chip.clocked = true) ∧
     (r.taken = i :: is) ∧
     let c := s.chip
     let a := i.array
     let g := (c.arr a).geomOf i.stripe
     let strips := if i.origin = 9 then [g.w - 2, g.w - 1] else (List.range g.w).filter (bitAt (i.field 4 4))
     let ks := if i.origin = 9 then List.range ((c.arr a).stripBytes / 512) else chunkSectors (c.arr a).stripBytes (i.field 1 1)
     (c.stock e 0x10001 3 = some r) ∧
     (c.rebuilt a g i.stripe strips ks = none)) :=
  ⟨⟨sk 8 0x10001 1 [w1] fail, 8, rr 1 w1, w1, [], by decide +kernel⟩,
   ⟨sk 8 0x10001 1 [w1] lost, 8, rr 1 w1, w1, [], by decide +kernel⟩,
   ⟨sk 8 0x10001 1 [w1], 8, rr 1 w1, w1, [], by decide +kernel, by decide +kernel, ex_three (by decide +kernel)⟩,
   ⟨sk 8 0x10001 3 [rc], 8, .confirmed, rr 3 rc, rc, [], by decide +kernel, by decide +kernel, ex_two_mid (by decide +kernel)⟩,
   ⟨sk 8 0x10001 3 [rc] (dead [0,1,2,3]), 8, rr 3 rc, rc, [], by decide +kernel⟩⟩

end Sys2Proof.Tests.W10

namespace Sys2Proof.Tests.W10c
open Sys2Proof.Machine
set_option maxRecDepth 100000
set_option Elab.async false

def body (l : List (Nat × Nat)) : BitVec 512 := BitVec.ofNat 512 (l.map fun x => x.2 * 2 ^ (8 * x.1)).sum

def it (src strip stripe stage : Nat) (l : List (Nat × Nat) := []) (f : Item → Item := id) : Item := f { seq := 50, handle := 7, source := src, array := 2, route := 2 + strip * 16 + stripe * 512 + stage * 2 ^ 45, body := body l, slot := 0, ep := 0 }

def runSt (prog ep : Nat) (is : List Item) : Run := { slot := 0, ep := ep, image := { st0 with progId := prog }, taken := is }

def hdr (off len : Nat) (fl9 := 0) (fla := 0) : Mem := memOf 128 (leBytes 4 off ++ leBytes 4 len ++ [0] ++ leBytes 1 fl9 ++ leBytes 1 fla ++ List.replicate 53 0 ++ (List.range len).map fun i => BitVec.ofNat 8 (i * 7 + 3))

def sk (e prog ep : Nat) (is : List Item) (h : Chip → Chip := id) : State := mk (h (let c := cs { tChip with par := act }; { c with stg := hdr 512 1024, engines := tput c.engines {} e { c.eng e with run := some (runSt prog ep is) } }))

def fail (c : Chip) : Chip := c.modArr 2 fun r => { r with failed := true }

def alone (c : Chip) : Chip := { c with par := { role := .alone } }

def arrS : RaidArray := { arr2 with stripLog2 := 9 }

def ks (e prog ep : Nat) (is : List Item) (h : Chip → Chip := id) : State := sk e prog ep is fun c => h ({ c with arrays := [(2, arrS)] })

def lostE (c : Chip) : Chip := c.modArr 2 fun r => { r with lost := [⟨2, 2, 1⟩] }

def dead (l : List Nat) (c : Chip) : Chip := c.modArr 2 fun r => { r with pos := r.pos.mapIdx fun i p => if l.contains i then { p with member := none, state := .unavailable } else p }

def bob (b st strp : Nat) : Mem := hb (bobAt b) (leBytes 1 st ++ leBytes 1 2 ++ leBytes 1 4 ++ leBytes 1 1 ++ leBytes 4 0 ++ leBytes 8 strp ++ leBytes 8 5 ++ leBytes 8 5)

def withB (m : Mem) (c : Chip) : Chip := { c with hbm := m }

def rS (prog ep : Nat) (i : Item) := runSt prog ep [i]

def dg (b : Nat) : Item := it 3 0 2 0 [] fun i => { i with pos := b, origin := 1 }

/-- Each clause of StockDestage (obligation StripeDestage): a machine and operands that meet its hypotheses. -/
theorem test_meets_StockDestage :
    (∃ (s : State) (e : Se) (r : Run) (i : Item) (is : List Item),
     (s.chip.clocked = true) ∧
     (s.chip.stock e 0x10001 2 = some r) ∧
     (r.taken = i :: is) ∧
     let c := s.chip
     let b := i.pos
     (c.bobState b = 0)) ∧
    (∃ (s : State) (e : Se) (r : Run) (i : Item) (is : List Item),
     (s.chip.clocked = true) ∧
     (s.chip.stock e 0x10001 2 = some r) ∧
     (r.taken = i :: is) ∧
     let c := s.chip
     let b := i.pos
     let a := c.bobArray b
     (c.bobState b = 1) ∧
     ((c.oldBob a (c.bobStripe b)).isSome = true)) ∧
    (∃ (s : State) (e : Se) (l : LandResult) (r : Run) (i : Item) (is : List Item),
     (s.chip.clocked = true) ∧
     (s.chip.stock e 0x10001 2 = some r) ∧
     (r.taken = i :: is) ∧
     let c := s.chip
     let b := i.pos
     let a := c.bobArray b
     ((c.bobState b = 1 ∨ c.bobState b = 2)) ∧
     ((c.bobState b = 1 → c.oldBob a (c.bobStripe b) = none)) ∧
     (c.writesWait a = false) ∧
     (c.ringRoom a 96 = true) ∧
     ((l = .confirmed ∨ c.par.role = .alone))) ∧
    (∃ (s : State) (e : Se) (l : LandResult) (r : Run) (i : Item) (is : List Item),
     (s.chip.clocked = true) ∧
     (s.chip.stock e 0x10001 2 = some r) ∧
     (r.taken = i :: is) ∧
     let c := s.chip
     let b := i.pos
     let a := c.bobArray b
     (c.bobState b = 3) ∧
     (c.writesWait a = false) ∧
     (c.ringRoom a 96 = true) ∧
     ((l = .confirmed ∨ c.par.role = .alone))) :=
  ⟨⟨ks 8 0x10001 2 [dg 8], 8, rS 0x10001 2 (dg 8), dg 8, [], by decide +kernel⟩,
   ⟨ks 8 0x10001 2 [dg 8] (withB (bob 8 1 2 ++ bob 24 2 2)), 8, rS 0x10001 2 (dg 8), dg 8, [], by decide +kernel⟩,
   ⟨ks 8 0x10001 2 [dg 8] (withB (bob 8 1 2)), 8, .confirmed, rS 0x10001 2 (dg 8), dg 8, [], by decide +kernel⟩,
   ⟨ks 8 0x10001 2 [dg 8] (fun c => alone (withB (bob 8 3 2) c)), 8, .limit, rS 0x10001 2 (dg 8), dg 8, [], by decide +kernel⟩⟩

end Sys2Proof.Tests.W10c

namespace Sys2Proof.Tests.W10d
open Sys2Proof.Machine
set_option maxRecDepth 100000
set_option Elab.async false

def body (l : List (Nat × Nat)) : BitVec 512 := BitVec.ofNat 512 (l.map fun x => x.2 * 2 ^ (8 * x.1)).sum

def it (src strip stripe stage : Nat) (l : List (Nat × Nat) := []) (f : Item → Item := id) : Item := f { seq := 50, handle := 7, source := src, array := 2, route := 2 + strip * 16 + stripe * 512 + stage * 2 ^ 45, body := body l, slot := 0, ep := 0 }

def runSt (prog ep : Nat) (is : List Item) : Run := { slot := 0, ep := ep, image := { st0 with progId := prog }, taken := is }

def hdr (off len : Nat) (fl9 := 0) (fla := 0) : Mem := memOf 128 (leBytes 4 off ++ leBytes 4 len ++ [0] ++ leBytes 1 fl9 ++ leBytes 1 fla ++ List.replicate 53 0 ++ (List.range len).map fun i => BitVec.ofNat 8 (i * 7 + 3))

def sk (e prog ep : Nat) (is : List Item) (h : Chip → Chip := id) : State := mk (h (let c := cs { tChip with par := act }; { c with stg := hdr 512 1024, engines := tput c.engines {} e { c.eng e with run := some (runSt prog ep is) } }))

def fail (c : Chip) : Chip := c.modArr 2 fun r => { r with failed := true }

def alone (c : Chip) : Chip := { c with par := { role := .alone } }

def arrS : RaidArray := { arr2 with stripLog2 := 9 }

def ks (e prog ep : Nat) (is : List Item) (h : Chip → Chip := id) : State := sk e prog ep is fun c => h ({ c with arrays := [(2, arrS)] })

def lostE (c : Chip) : Chip := c.modArr 2 fun r => { r with lost := [⟨2, 2, 1⟩] }

def dead (l : List Nat) (c : Chip) : Chip := c.modArr 2 fun r => { r with pos := r.pos.mapIdx fun i p => if l.contains i then { p with member := none, state := .unavailable } else p }

def bob (b st strp : Nat) : Mem := hb (bobAt b) (leBytes 1 st ++ leBytes 1 2 ++ leBytes 1 4 ++ leBytes 1 1 ++ leBytes 4 0 ++ leBytes 8 strp ++ leBytes 8 5 ++ leBytes 8 5)

def withB (m : Mem) (c : Chip) : Chip := { c with hbm := m }

def rS (prog ep : Nat) (i : Item) := runSt prog ep [i]

def ret : Retire := { pos := 1, old := 11, repl := 20, row := 3 }

def rt : Item := it 3 0 3 0 [] fun i => { i with pos := 3, origin := 4 }

def ps : Item := it 3 0 3 0 [] fun i => { i with origin := 3 }

def pass0 : Pass := { main := true, mark := 3, before := [15,15,15,15,15], target := [15,15,15,15,15] }

def pass1 : Pass := { main := true, mark := 3, before := [15,14,15,15,15], target := [15,15,15,15,15] }

def sc : Item := it 3 0 3 0 [] fun i => { i with origin := 5 }

def lf : Item := it 2 0 2 0 [(8, 0x100), (0xC, 1024), (0x10, 0), (0x2A, 3)]

def tg : Item := it 1 0 2 0 [(0x18, 0x14000000), (0x20, 0x15000000), (0x2C, 8)]

def sm (p : Option Pass) (c : Chip) : Chip := c.modArr 2 fun r => { r with pass := p }

/-- Each clause of StockRepair (obligation RepairWork): a machine and operands that meet its hypotheses. -/
theorem test_meets_StockRepair :
    (∃ (s : State) (e : Se) (r : Run) (i : Item) (is : List Item),
     (s.chip.clocked = true) ∧
     (r.taken = i :: is) ∧
     let c := s.chip
     let a := i.array
     ∃ t,
     (c.stock e 0x10002 0 = some r) ∧
     (c.writesWait a = false) ∧
     (i.origin = 4) ∧
     ((c.arr a).retire = some t) ∧
     (t.row = i.pos)) ∧
    (∃ (s : State) (e : Se) (r : Run) (i : Item) (is : List Item),
     (s.chip.clocked = true) ∧
     (r.taken = i :: is) ∧
     let c := s.chip
     let a := i.array
     let st := i.stripe
     let g := (c.arr a).geomOf st
     ∃ p,
     (c.stock e 0x10002 0 = some r) ∧
     (c.writesWait a = false) ∧
     (i.origin ≠ 4) ∧
     ((c.arr a).pass = some p) ∧
     ((c.passColumns a p g st (chunkSectors (c.arr a).stripBytes (i.field 1 1))).2 = [])) ∧
    (∃ (s : State) (e : Se) (r : Run) (i : Item) (is : List Item),
     (s.chip.clocked = true) ∧
     (r.taken = i :: is) ∧
     let c := s.chip
     let a := i.array
     let st := i.stripe
     (c.stock e 0x10002 1 = some r) ∧
     ((c.openBob a st).isSome = true ∨ (c.oldBob a st).isSome = true)) ∧
    (∃ (s : State) (e : Se) (r : Run) (i : Item) (is : List Item),
     (s.chip.clocked = true) ∧
     (r.taken = i :: is) ∧
     let c := s.chip
     let a := i.array
     let st := i.stripe
     let g := (c.arr a).geomOf st
     let ks := chunkSectors (c.arr a).stripBytes (i.field 1 1)
     (c.stock e 0x10002 1 = some r) ∧
     (c.openBob a st = none) ∧
     (c.oldBob a st = none) ∧
     ((∀ k ∈ ks, (c.unavailStrips a g st k 1).length ≤ 2)) ∧
     ((∀ j < g.w, c.badChunks a g st j (ks.headD 0) ks.length = [])) ∧
     ((∀ k ∈ ks, ∀ col, allSome (c.memberColumn a g st k) = some col → correct g.d col = (.clean, [])))) ∧
    (∃ (s : State) (e : Se) (r : Run) (i : Item) (is : List Item),
     (s.chip.clocked = true) ∧
     (r.taken = i :: is) ∧
     let c := s.chip
     let a := i.array
     (c.stock e 0x10002 2 = some r) ∧
     ((c.arr a).reshape = none)) ∧
    (∃ (s : State) (e : Se) (l : LandResult) (r : Run) (i : Item) (is : List Item),
     (s.chip.clocked = true) ∧
     (r.taken = i :: is) ∧
     let c := s.chip
     ∃ d done,
     (c.stock e 0x10003 0 = some r) ∧
     let c1 := c.gather e (fun j => j.source == 2 && j.origin == i.origin) 64
     ((l = .confirmed ∨ c1.par.role = .alone)) ∧
     (c1.writeFrames e (c1.taken e) = some (d, done))) ∧
    (∃ (s : State) (e : Se) (r : Run) (i : Item) (is : List Item),
     (s.chip.clocked = true) ∧
     (r.taken = i :: is) ∧
     let c := s.chip
     (c.stock e 0x10004 0 = some r)) :=
  ⟨⟨ks 9 0x10002 0 [rt] (fun c => c.modArr 2 fun r => { r with retire := some ret }), 9, rS 0x10002 0 rt, rt, [], by decide +kernel, by decide +kernel, _, by decide +kernel, by decide +kernel, by decide +kernel, rfl, by decide +kernel⟩,
   ⟨ks 9 0x10002 0 [ps] (sm (some pass0)), 9, rS 0x10002 0 ps, ps, [], by decide +kernel, by decide +kernel, _, by decide +kernel, by decide +kernel, by decide +kernel, rfl, by decide +kernel⟩,
   ⟨ks 9 0x10002 1 [sc] (withB (bob 9 1 3)), 9, rS 0x10002 1 sc, sc, [], by decide +kernel⟩,
   ⟨ks 9 0x10002 1 [sc] (dead [1]), 9, rS 0x10002 1 sc, sc, [], by decide +kernel⟩,
   ⟨ks 9 0x10002 2 [sc], 9, rS 0x10002 2 sc, sc, [], by decide +kernel⟩,
   ⟨ks 8 0x10003 0 [lf], 8, .confirmed, rS 0x10003 0 lf, lf, [], by decide +kernel, by decide +kernel, ex_pair (by decide +kernel)⟩,
   ⟨ks 8 0x10004 0 [tg] (withB (hb 0x14000000 [1,2,3,4,5,6,7,8])), 8, rS 0x10004 0 tg, tg, [], by decide +kernel⟩⟩

end Sys2Proof.Tests.W10d

namespace Sys2Proof.Tests.W10e
open Sys2Proof.Machine
set_option maxRecDepth 100000
set_option Elab.async false

def body (l : List (Nat × Nat)) : BitVec 512 := BitVec.ofNat 512 (l.map fun x => x.2 * 2 ^ (8 * x.1)).sum

def it (src strip stripe stage : Nat) (l : List (Nat × Nat) := []) (f : Item → Item := id) : Item := f { seq := 50, handle := 7, source := src, array := 2, route := 2 + strip * 16 + stripe * 512 + stage * 2 ^ 45, body := body l, slot := 0, ep := 0 }

def runSt (prog ep : Nat) (is : List Item) : Run := { slot := 0, ep := ep, image := { st0 with progId := prog }, taken := is }

def hdr (off len : Nat) (fl9 := 0) (fla := 0) : Mem := memOf 128 (leBytes 4 off ++ leBytes 4 len ++ [0] ++ leBytes 1 fl9 ++ leBytes 1 fla ++ List.replicate 53 0 ++ (List.range len).map fun i => BitVec.ofNat 8 (i * 7 + 3))

def sk (e prog ep : Nat) (is : List Item) (h : Chip → Chip := id) : State := mk (h (let c := cs { tChip with par := act }; { c with stg := hdr 512 1024, engines := tput c.engines {} e { c.eng e with run := some (runSt prog ep is) } }))

def fail (c : Chip) : Chip := c.modArr 2 fun r => { r with failed := true }

def alone (c : Chip) : Chip := { c with par := { role := .alone } }

def arrS : RaidArray := { arr2 with stripLog2 := 9 }

def ks (e prog ep : Nat) (is : List Item) (h : Chip → Chip := id) : State := sk e prog ep is fun c => h ({ c with arrays := [(2, arrS)] })

def lostE (c : Chip) : Chip := c.modArr 2 fun r => { r with lost := [⟨2, 2, 1⟩] }

def dead (l : List Nat) (c : Chip) : Chip := c.modArr 2 fun r => { r with pos := r.pos.mapIdx fun i p => if l.contains i then { p with member := none, state := .unavailable } else p }

def bob (b st strp : Nat) : Mem := hb (bobAt b) (leBytes 1 st ++ leBytes 1 2 ++ leBytes 1 4 ++ leBytes 1 1 ++ leBytes 4 0 ++ leBytes 8 strp ++ leBytes 8 5 ++ leBytes 8 5)

def withB (m : Mem) (c : Chip) : Chip := { c with hbm := m }

def rS (prog ep : Nat) (i : Item) := runSt prog ep [i]

def g6 : Geom := ⟨6, 4, 1, stripesPerRow 6 4 1⟩

def rsh : Reshape := { old := gq, new := g6, row := 0, stepping := true, left := 4 }

def ri : Item := it 3 0 0 0 [] fun i => { i with origin := 6 }

def withR (c : Chip) : Chip := c.modArr 2 fun r => { r with reshape := some rsh }

def waitR (c : Chip) : Chip := (withR c).setEng 7 { queue := [it 0 0 0 2 [] fun i => { i with seq := 49 }] }

/-- Each clause of StockReshape (obligation RepairWork): a machine and operands that meet its hypotheses. -/
theorem test_meets_StockReshape :
    (∃ (s : State) (e : Se) (l : LandResult) (r : Run) (i : Item) (is : List Item) (x : Reshape),
     (s.chip.clocked = true) ∧
     (s.chip.stock e 0x10002 2 = some r) ∧
     (r.taken = i :: is) ∧
     ((s.chip.arr i.array).reshape = some x) ∧
     let c := s.chip
     let a := i.array
     let st := i.stripe
     let S := (c.arr a).stripBytes
     let g := x.new
     let ks := chunkSectors S (i.field 1 1)
     let at0 (j k : Nat) : Nat := st * g.dataBytes S + j * S + 512 * k
     let get (j k : Nat) : Option (List Byte) := if c.dataEnd a ≤ at0 j k then some (List.replicate 512 0) else c.oldSector a x.old S (at0 j k)
     ∃ b d,
     ((∀ j < g.d, ∀ k ∈ ks, (get j k).isSome = true)) ∧
     (c.reshapeReady a x S i.seq = true) ∧
     (c.roomFor a st (chunksIn ks) (List.range g.w) = true) ∧
     (c.ringRoom a 128 = true) ∧
     (0 < g.d) ∧
     ((l = .confirmed ∨ c.par.role = .alone)) ∧
     (c.needBob a g st = (some b, d))) ∧
    (∃ (s : State) (e : Se) (r : Run) (i : Item) (is : List Item) (x : Reshape),
     (s.chip.clocked = true) ∧
     (s.chip.stock e 0x10002 2 = some r) ∧
     (r.taken = i :: is) ∧
     ((s.chip.arr i.array).reshape = some x) ∧
     let c := s.chip
     let a := i.array
     let S := (c.arr a).stripBytes
     (c.reshapeReady a x S i.seq = false)) :=
  ⟨⟨ks 6 0x10002 2 [ri] withR, 6, .confirmed, rS 0x10002 2 ri, ri, [], rsh, by decide +kernel, by decide +kernel, by decide +kernel, by decide +kernel, _, _, by decide +kernel, by decide +kernel, by decide +kernel, by decide +kernel, by decide +kernel, by decide +kernel, rfl⟩,
   ⟨ks 6 0x10002 2 [ri] waitR, 6, rS 0x10002 2 ri, ri, [], rsh, by decide +kernel⟩⟩

end Sys2Proof.Tests.W10e

namespace Sys2Proof.Tests.W10f
open Sys2Proof.Machine
set_option maxRecDepth 100000
set_option Elab.async false

def body (l : List (Nat × Nat)) : BitVec 512 := BitVec.ofNat 512 (l.map fun x => x.2 * 2 ^ (8 * x.1)).sum

def it (src strip stripe stage : Nat) (l : List (Nat × Nat) := []) (f : Item → Item := id) : Item := f { seq := 50, handle := 7, source := src, array := 2, route := 2 + strip * 16 + stripe * 512 + stage * 2 ^ 45, body := body l, slot := 0, ep := 0 }

def runSt (prog ep : Nat) (is : List Item) : Run := { slot := 0, ep := ep, image := { st0 with progId := prog }, taken := is }

def hdr (off len : Nat) (fl9 := 0) (fla := 0) : Mem := memOf 128 (leBytes 4 off ++ leBytes 4 len ++ [0] ++ leBytes 1 fl9 ++ leBytes 1 fla ++ List.replicate 53 0 ++ (List.range len).map fun i => BitVec.ofNat 8 (i * 7 + 3))

def sk (e prog ep : Nat) (is : List Item) (h : Chip → Chip := id) : State := mk (h (let c := cs { tChip with par := act }; { c with stg := hdr 512 1024, engines := tput c.engines {} e { c.eng e with run := some (runSt prog ep is) } }))

def fail (c : Chip) : Chip := c.modArr 2 fun r => { r with failed := true }

def alone (c : Chip) : Chip := { c with par := { role := .alone } }

def arrS : RaidArray := { arr2 with stripLog2 := 9 }

def ks (e prog ep : Nat) (is : List Item) (h : Chip → Chip := id) : State := sk e prog ep is fun c => h ({ c with arrays := [(2, arrS)] })

def lostE (c : Chip) : Chip := c.modArr 2 fun r => { r with lost := [⟨2, 2, 1⟩] }

def dead (l : List Nat) (c : Chip) : Chip := c.modArr 2 fun r => { r with pos := r.pos.mapIdx fun i p => if l.contains i then { p with member := none, state := .unavailable } else p }

def bob (b st strp : Nat) : Mem := hb (bobAt b) (leBytes 1 st ++ leBytes 1 2 ++ leBytes 1 4 ++ leBytes 1 1 ++ leBytes 4 0 ++ leBytes 8 strp ++ leBytes 8 5 ++ leBytes 8 5)

def withB (m : Mem) (c : Chip) : Chip := { c with hbm := m }

def rS (prog ep : Nat) (i : Item) := runSt prog ep [i]

def g6 : Geom := ⟨6, 4, 1, stripesPerRow 6 4 1⟩

def rsh : Reshape := { old := gq, new := g6, row := 0 }

def ra (h : Chip → Chip) : State := mk (h { cs { tChip with par := act } with arrays := [(2, arrS)] })

def sx (c : Chip) : Chip := c.modArr 2 fun r => { r with scrub := some { mark := 3 } }

def rp (c : Chip) : Chip := c.modArr 2 fun r => { r with retire := some { pos := 1, old := 11, repl := 20, row := 3 } }

def tlo : Chip → Chip := setE (recSe 2) [(8*0x504+8, 1)]

def starve (c : Chip) : Chip := { sx c with engines := [(9, { slots := [(0, { cur := some st0 }), (1, { cur := some st0 })] })], wins := [(3, { live := true, reserved := [9], resFrom := 0, resTo := 1000000 })] }

/-- Each clause of RepairAdmission (obligation RepairWork): a machine and operands that meet its hypotheses. -/
theorem test_meets_RepairAdmission :
    (∃ (s : State) (a : Arr),
     (s.chip.clocked = true) ∧
     let c := s.chip
     ∃ x,
     (c.repairOn a = true) ∧
     ((c.arr a).pass = none) ∧
     ((c.repairWork a).filter (c.mayAdmit a) = [x])) ∧
    (∃ (s : State) (a : Arr),
     (s.chip.clocked = true) ∧
     let c := s.chip
     (c.repairOn a = false)) ∧
    (∃ (s : State) (a : Arr),
     (s.chip.clocked = true) ∧
     let c := s.chip
     (c.repairOn a = true) ∧
     ((c.arr a).starved = false) ∧
     (c.repairWork a ≠ []) ∧
     ((∀ x ∈ c.repairWork a, c.gapOk x.1 (c.costOf x.1 x.2) = false))) ∧
    (∃ (s : State) (a : Arr),
     (s.chip.clocked = true) ∧
     let c := s.chip
     (c.repairOn a = true) ∧
     ((c.arr a).scrub = none) ∧
     (c.eff (recSe a) 0x504 8 ≠ 0)) ∧
    (∃ (s : State) (a : Arr),
     (s.chip.clocked = true) ∧
     let c := s.chip
     ∃ r,
     ((c.arr a).reshape = some r) ∧
     (c.repairOn a = true) ∧
     (r.paused = false) ∧
     (r.pausing = false) ∧
     (r.stepping = false) ∧
     ((c.arr a).resync = none) ∧
     ((r.row = 0 ∧ r.ascending (c.arr a).stripBytes = true)) ∧
     let items := (rowStripes r.new 0).flatMap fun st => (List.range (chunksOf (c.arr a).stripBytes)).map fun ch =>
       (ownerOf a st, serviceItem 6 a st (c.rbind a 0) (c.rbind a 12) ch (repairBody 3 ch 1 0 (holders (c.arr a).beforeMap r.old st) [] r.old.bytes r.new.bytes))
     (items.all (c.mayAdmit a) = true) ∧
     (c.bobsOf a (r.oldStripes (c.arr a).stripBytes 0) = [])) :=
  ⟨⟨ra sx, 2, by decide +kernel, _, by decide +kernel, by decide +kernel, rfl⟩,
   ⟨ra (fun c => {c with par := {role := .fenced}}), 2, by decide +kernel⟩,
   ⟨ra starve, 2, by decide +kernel⟩,
   ⟨ra id, 2, by decide +kernel⟩,
   ⟨ra (fun c => c.modArr 2 fun r => { r with reshape := some rsh }), 2, by decide +kernel, _, rfl, by decide +kernel⟩⟩

end Sys2Proof.Tests.W10f
end

