-- ==== Sys2Proof/Tests/Witness11.lean ====
section
/-! SUPPORT. Machines and operands that meet the hypotheses of the statements, clause by clause. -/

namespace Sys2Proof.Tests.W11
open Sys2Proof.Machine
set_option maxRecDepth 100000
set_option Elab.async false

def body (l : List (Nat × Nat)) : BitVec 512 := BitVec.ofNat 512 (l.map fun x => x.2 * 2 ^ (8 * x.1)).sum

def it (src strip stripe stage : Nat) (l : List (Nat × Nat) := []) (f : Item → Item := id) : Item := f { seq := 50, handle := 7, source := src, array := 2, route := 2 + strip * 16 + stripe * 512 + stage * 2 ^ 45, body := body l, slot := 0, ep := 0 }

def runSt (prog ep : Nat) (is : List Item) : Run := { slot := 0, ep := ep, image := { st0 with progId := prog }, taken := is }

def hdr (off len : Nat) (fl9 := 0) (fla := 0) : Mem := memOf 128 (leBytes 4 off ++ leBytes 4 len ++ [0] ++ leBytes 1 fl9 ++ leBytes 1 fla ++ List.replicate 53 0 ++ (List.range len).map fun i => BitVec.ofNat 8 (i * 7 + 3))

def sk (e prog ep : Nat) (is : List Item) (h : Chip → Chip := id) : State := mk (h (let c := cs { tChip with par := act }; { c with stg := hdr 512 1024, engines := tput c.engines {} e { c.eng e with run := some (runSt prog ep is) } }))

def fail (c : Chip) : Chip := c.modArr 2 fun r => { r with failed := true }

def alone (c : Chip) : Chip := { c with par := { role := .alone } }

def arrS : RaidArray := { arr2 with stripLog2 := 9 }

def ks (e prog ep : Nat) (is : List Item) (h : Chip → Chip := id) : State := sk e prog ep is fun c => h ({ c with arrays := [(2, arrS)] })

def lostE (c : Chip) : Chip := c.modArr 2 fun r => { r with lost := [⟨2, 2, 1⟩] }

def dead (l : List Nat) (c : Chip) : Chip := c.modArr 2 fun r => { r with pos := r.pos.mapIdx fun i p => if l.contains i then { p with member := none, state := .unavailable } else p }

def bob (b st strp : Nat) : Mem := hb (bobAt b) (leBytes 1 st ++ leBytes 1 2 ++ leBytes 1 4 ++ leBytes 1 1 ++ leBytes 4 0 ++ leBytes 8 strp ++ leBytes 8 5 ++ leBytes 8 5)

def withB (m : Mem) (c : Chip) : Chip := { c with hbm := m }

def rS (prog ep : Nat) (i : Item) := runSt prog ep [i]

def dS (h : Chip → Chip) : State := mk (h { cs { tChip with par := act } with arrays := [(2, arrS)] })

def en (c : Chip) : Chip := setE 26 [(8*0x100, 32)] { c with age := { c.age with eAcc := 900 } }

def jr (c : Chip) : Chip := (({ c with arrays := [(2, { arrS with spill0 := 0, spill1 := 1, spillJseq := 0 })] }).hbmWrite (ringAt 2) (leBytes 8 0 ++ leBytes 8 0 ++ leBytes 4 0 ++ leBytes 8 1)).journal 2 (recordBytes 7 2 2 0 0xFFFFFFFF (leBytes 8 1))

def vi : VaultImage := { seq := 4, clean := false, unit := false, planQ := 8, pages := 100, arrays := [], startNs := 0 }

def pf (p : Vault → Vault) (h : Chip → Chip := id) : State := mk (h { cs { tChip with par := { act with queue := [{ cls := 5, prio := 0 }, { cls := 1, prio := 0 }] } } with vault := p {}, engines := [(3, x0), (18, x0)] })

def fresh2 (c : Chip) : Chip := { c with arrays := [], members := [] }

def claimed (c : Chip) : Chip := { c with arrays := [], members := [(10, { state := .attaching, waits := true, media := [(0, 0x56), (1, 0x5A), (2, 0x4D), (3, 0x42), (4, 1), (6, 2), (0xFFC, 219), (0xFFD, 13), (0xFFE, 222), (0xFFF, 134)] })] }

def facts0 : RecoveryFacts := ⟨false, false, false, false, 0, 0, none⟩

def sb0 : Super := { number := 2, uid := 0, gen := 0, geom := ⟨0, 0, 0, 0⟩, stripLog2 := 0, prog := 0, rows := 0, states := List.replicate 48 0, ids := List.replicate 48 0, lostGen := 0, spill0 := 0, spill1 := 0 }

/-- Each clause of DestageAndPlan (obligation PlanAndSpill): a machine and operands that meet its hypotheses. -/
theorem test_meets_DestageAndPlan :
    (∃ (s : State) (b : Fin 16384),
     (s.chip.clocked = true) ∧
     (s.chip.vault.stopped = false) ∧
     let c := s.chip
     let st := c.bobState b
     (st = 1 ∨ st = 2) ∧
     ((st = 1 → c.oldBob (c.bobArray b) (c.bobStripe b) = none)) ∧
     (c.serving = true) ∧
     (c.par.handing = .none) ∧
     (b.val ∉ c.cache.issued)) ∧
    (∃ (s : State) (b : Fin 16384),
     (s.chip.clocked = true) ∧
     (s.chip.vault.stopped = false) ∧
     let c := s.chip
     let st := c.bobState b
     (st = 0 ∨ b.val ∈ c.cache.issued ∨ c.serving = false)) ∧
    (∃ (s : State),
     (s.chip.clocked = true) ∧
     (s.chip.vault.stopped = false)) ∧
    (∃ (s : State) (a : Arr),
     (s.chip.clocked = true) ∧
     (s.chip.vault.stopped = false) ∧
     let c := s.chip
     ∃ o n j,
     (c.serving = true) ∧
     ((c.arr a).made = true) ∧
     ((c.arr a).recovered = true) ∧
     ((c.arr a).spills ≠ []) ∧
     ((∀ e < 16, (c.eng e).tickets = [])) ∧
     (c.writesWait a = false) ∧
     (spillRun (c.arr a).spillJseq (c.records a) none = some (o, n, j))) ∧
    (∃ (s : State),
     (s.chip.clocked = true) ∧
     (s.chip.vault.stopped = false) ∧
     let c := s.chip
     (c.serving = false)) :=
  ⟨⟨dS (withB (bob 8 1 2)), 8, by decide +kernel⟩,
   ⟨dS id, 8, by decide +kernel⟩,
   ⟨dS id, by decide +kernel⟩,
   ⟨dS jr, 2, by decide +kernel, by decide +kernel, _, _, _, by decide +kernel, by decide +kernel, by decide +kernel, by decide +kernel, by decide +kernel, by decide +kernel, rfl⟩,
   ⟨dS (fun c => withB (bob 8 3 2) {c with par := {role := .fenced}}), by decide +kernel⟩⟩

/-- Each clause of PlanOfEnergy (obligation PlanAndSpill): a machine and operands that meet its hypotheses. -/
theorem test_meets_PlanOfEnergy :
    (∃ (e : Nat),
     (e * 10 * 72 / 100 ≤ 2000)) ∧
    (∃ (m : Nat),
     ∃ k,
     (4 ≤ k) ∧
     (k ≤ m) ∧
     (k ≤ 32)) :=
  ⟨⟨0, by decide +kernel⟩,
   ⟨32, 4, by decide +kernel⟩⟩

/-- Each clause of PowerFail (obligation PowerFailAndRecovery): a machine and operands that meet its hypotheses. -/
theorem test_meets_PowerFail :
    (∃ s : State,
     let c := s.chip
     let v := c.vault
     (v.pwrFail = false) ∧
     (c.clocked = true)) ∧
    (∃ s : State,
     let c := s.chip
     let v := c.vault
     (v.pwrFail = true)) ∧
    (∃ s : State,
     let c := s.chip
     let v := c.vault
     ∃ i,
     (c.clocked = true) ∧
     (v.dumping = true) ∧
     (v.slot v.armedSlot = some i) ∧
     (v.pwrFail = true)) ∧
    (∃ s : State,
     let c := s.chip
     let v := c.vault
     (v.stopped = false)) ∧
    (∃ s : State,
     let c := s.chip
     let v := c.vault
     (v.stopped = true) ∧
     (v.dumping = false)) ∧
    (∃ s : State,
     let c := s.chip
     let v := c.vault
     ∃ k,
     (c.clocked = true) ∧
     (v.erasing = some k) ∧
     (v.armed = true)) ∧
    (∃ s : State,
     let c := s.chip
     let v := c.vault
     ∃ k,
     (c.clocked = true) ∧
     (v.erasing = some k) ∧
     (v.armed = false)) :=
  ⟨⟨pf id, by decide +kernel⟩,
   ⟨pf fun v => {v with pwrFail := true}, by decide +kernel⟩,
   ⟨pf fun v => {v with pwrFail := true, dumping := true, slot1 := some vi, armedSlot := true}, _, by decide +kernel, by decide +kernel, rfl, by decide +kernel⟩,
   ⟨pf id, by decide +kernel⟩,
   ⟨pf fun v => {v with pwrFail := true, stopped := true}, by decide +kernel⟩,
   ⟨pf fun v => {v with erasing := some true, armed := true}, _, by decide +kernel, rfl, by decide +kernel⟩,
   ⟨pf fun v => {v with erasing := some true, armed := false}, _, by decide +kernel, rfl, by decide +kernel⟩⟩

/-- Each clause of RecoveryStarts (obligation PowerFailAndRecovery): a machine and operands that meet its hypotheses. -/
theorem test_meets_RecoveryStarts :
    (∃ (s : State) (a : Arr),
     (s.chip.clocked = true) ∧
     (s.chip.vault.stopped = false) ∧
     ((s.chip.arr a).made = false) ∧
     let v := s.chip.vault
     let c : Chip := { s.chip with vault := { v with current := v.newest, imageSeq := match v.newest with | some k => v.seqOf k | none => 0 } }
     let cl := c.claims a
     (cl = [])) ∧
    (∃ (s : State) (a : Arr) (f : RecoveryFacts),
     (s.chip.clocked = true) ∧
     (s.chip.vault.stopped = false) ∧
     ((s.chip.arr a).made = false) ∧
     let v := s.chip.vault
     let c : Chip := { s.chip with vault := { v with current := v.newest, imageSeq := match v.newest with | some k => v.seqOf k | none => 0 } }
     let cl := c.claims a
     ∃ uid sb,
     (c.chooseUid a f cl = some uid) ∧
     (newestSuper (cl.filter fun x => x.2.uid == uid) = some sb)) :=
  ⟨⟨dS fresh2, 2, by decide +kernel⟩,
   ⟨dS claimed, 2, facts0, by decide +kernel, by decide +kernel, by decide +kernel, 0, sb0, by decide +kernel⟩⟩

end Sys2Proof.Tests.W11
end

