-- ==== Sys2Proof/Tests/Witness12.lean ====
section
/-! SUPPORT. Machines and operands that meet the hypotheses of the statements, clause by clause. -/

namespace Sys2Proof.Tests.W12
open Sys2Proof.Machine
set_option maxRecDepth 100000
set_option Elab.async false

def q0 : Qp := { state := .rts, port := 1, rqPsn := 100, resident := true, conn := { retry := 3 } }

def pk (f : Packet → Packet := id) : Packet := f { port := 1, length := 300, icrcOk := true, ecnCe := false, qpn := 9, psn := 100, op := .write, pos := .only, rkey := 0x3007, addr := 16, dmaLen := 8, payload := [1,2,3,4,5,6,7,8], operand0 := 3, operand1 := 4, sealHdr := none }

def win3 : RmaWin := { state := .valid, tag := 7, lastTag := some 7, pd := 0, access := 7, base := 0x200000000, size := 0x10000 }

def rm (q : Qp) (h : Chip → Chip := id) : State := mk (h { cs { tChip with par := act } with ports := [(1, { linkUp := true })], rma := { ready := true, qps := [(9, some q)], wins := [(3, win3)] } })

def c5 (q : Qp) (rdy := true) : Chip := (rm q fun c => {c with rma := {c.rma with ready := rdy}}).chip

def mg (op : RmaOp) : RmaMsg := { seq := 40, op := op, psn := 100, key := 0x3007, off := 16, len := 8, data := [9,8,7], whole := true, op0 := 0, op1 := 6 }

def tw (act lk : Nat) (st := 2) : Twr := { state := st, desc := BitVec.ofNat 512 (act * 2 ^ 8 + 9 * 2^32 + 9 * 2^128 + lk * 2 ^ (8*0x14) + 16 * 2 ^ (8*0x18) + 0x4000 * 2^(8*0x20) + 77*2^(8*0x28) + 8 * 2 ^ (8*0x2C) + 5 * 2^(8*0x30)) }

def oS (act lk : Nat) (tries := 0) : State := rm {q0 with outs := [⟨4, 50⟩], tries := tries} fun c => {c with rma := {c.rma with twrs := [(4, tw act lk)]}}

def qo (tries := 0) : Qp := {q0 with outs := [⟨4, 50⟩], tries := tries}

def q1 : Qp := { q0 with state := .reset }

def aQ (a : Adm) (h : Chip → Chip := id) : State := aG 64 0 a fun c => h { c with rma := { ready := true, qps := [(9, some q1)], wins := [(3, win3)], twrs := [(4, tw 3 0 1),(6, tw 3 0 2)] } }

def qc (n : Nat) := ad 0x40 [(4, n),(8,3),(0xA,5),(0xC,3)]

def cl : List Byte := leBytes 4 77 ++ leBytes 4 5 ++ leBytes 4 6 ++ [14,7,7,0,0,0] ++ List.replicate 38 0 ++ leBytes 4 0 ++ leBytes 4 1024

def qn := ad 0x41 [(4, 9),(0x28,0x4000),(0x30,64)] fun a => {a with data := some cl}

def ki := ad 0x44 [(4, 9),(8,0),(9,1),(0xC,5),(0x10,7)] fun a => {a with data := some ((List.range 16).map (BitVec.ofNat 8))}

def qq := ad 0x43 [(4, 9),(0x28,0x4000),(0x30,64)]

def qd := ad 0x42 [(4, 9)]

def ch := ad 0x4F [(0x28,0x4000),(0x30,4096)]

def wr (n tag : Nat) (base := 0x200000000) := ad 0x48 [(4, n),(8,tag),(0xA,1),(0xD,3),(0x10,base),(0x18,0x1000)]

def wv := ad 0x49 [(4,3)]

def tp := ad 0x50 [(4,8),(0x28,0x4000),(0x30,64)] fun a => {a with data := some (vecBytes (tw 3 0).desc)}

def tc (n : Nat) := ad 0x51 [(4,n)]

def rvk : RmaWin := { win3 with state := .revoking, drain := some (64, 15) }

/-- Each clause of PacketArrives (obligation RemotePackets): a machine and operands that meet its hypotheses. -/
theorem test_meets_PacketArrives :
    (∃ (s : State) (p : Packet),
     (s.chip.clocked = true) ∧
     ((s.chip.port p.port).linkUp = true) ∧
     (s.chip.netServes = true) ∧
     (s.chip.par.handing = .none) ∧
     (p.ecnCe = false) ∧
     (p.icrcOk = false)) ∧
    (∃ (s : State) (p : Packet),
     (s.chip.clocked = true) ∧
     ((s.chip.port p.port).linkUp = true) ∧
     (s.chip.netServes = true) ∧
     (s.chip.par.handing = .none) ∧
     (p.ecnCe = false) ∧
     let c := s.chip
     let n := p.qpn.toNat
     (p.icrcOk = true) ∧
     (((c.qp n).all fun q => decide (q.port ≠ p.port.val)) = true)) ∧
    (∃ (s : State) (p : Packet),
     (s.chip.clocked = true) ∧
     ((s.chip.port p.port).linkUp = true) ∧
     (s.chip.netServes = true) ∧
     (s.chip.par.handing = .none) ∧
     (p.ecnCe = false) ∧
     let c := s.chip
     let n := p.qpn.toNat
     ∃ q,
     (p.icrcOk = true) ∧
     (c.qp n = some q) ∧
     (q.port = p.port.val) ∧
     (q.resident = true)) ∧
    (∃ (s : State) (p : Packet),
     (s.chip.clocked = true) ∧
     ((s.chip.port p.port).linkUp = true) ∧
     (s.chip.netServes = true) ∧
     (s.chip.par.handing = .none) ∧
     (p.ecnCe = false) ∧
     let c := s.chip
     let n := p.qpn.toNat
     let k := (p.length + 255) / 256
     ∃ q,
     (p.icrcOk = true) ∧
     (c.qp n = some q) ∧
     (q.port = p.port.val) ∧
     (q.resident = false) ∧
     (c.missCells p.port + k ≤ 128)) ∧
    (∃ (s : State) (p : Packet),
     (s.chip.clocked = true) ∧
     ((s.chip.port p.port).linkUp = true) ∧
     (s.chip.netServes = true) ∧
     (s.chip.par.handing = .none) ∧
     (p.ecnCe = false) ∧
     let c := s.chip
     let n := p.qpn.toNat
     let k := (p.length + 255) / 256
     ∃ q,
     (p.icrcOk = true) ∧
     (c.qp n = some q) ∧
     (q.port = p.port.val) ∧
     (q.resident = false) ∧
     (128 < c.missCells p.port + k)) ∧
    (∃ (s : State) (p : Packet),
     (s.chip.clocked = true) ∧
     ((s.chip.port p.port).linkUp = true) ∧
     (s.chip.netServes = true) ∧
     (s.chip.par.handing = .none) ∧
     (p.ecnCe = false) ∧
     let c := s.chip
     let n := p.qpn.toNat
     ∃ q,
     (c.qp n = some q) ∧
     (c.isGated 26 = false) ∧
     ((∀ x ∈ c.rma.miss, ∀ y ∈ x.2, y.qpn ≠ p.qpn)) ∧
     (q.resident = false) ∧
     (c.residents.length < 16384)) :=
  ⟨⟨rm q0, pk fun p => {p with icrcOk := false}, by decide +kernel⟩,
   ⟨rm q0, pk fun p => {p with qpn := 10}, by decide +kernel⟩,
   ⟨rm q0, pk, by decide +kernel, by decide +kernel, by decide +kernel, by decide +kernel, by decide +kernel, _, by decide +kernel, rfl, by decide +kernel⟩,
   ⟨rm {q0 with resident := false}, pk, by decide +kernel, by decide +kernel, by decide +kernel, by decide +kernel, by decide +kernel, _, by decide +kernel, rfl, by decide +kernel⟩,
   ⟨rm {q0 with resident := false} (fun c => {c with rma := {c.rma with miss := [(1, List.replicate 127 (pk fun p => {p with qpn := 9, length := 200}))] }}), pk, by decide +kernel, by decide +kernel, by decide +kernel, by decide +kernel, by decide +kernel, _, by decide +kernel, rfl, by decide +kernel⟩,
   ⟨rm {q0 with resident := false}, pk, by decide +kernel, by decide +kernel, by decide +kernel, by decide +kernel, by decide +kernel, _, rfl, by decide +kernel⟩⟩

/-- Each clause of PacketSequence (obligation RemotePackets): a machine and operands that meet its hypotheses. -/
theorem test_meets_PacketSequence :
    (∃ (c : Chip) (p : Packet) (q : Qp),
     (c.qp p.qpn.toNat = some q) ∧
     (q.port = p.port.val) ∧
     (q.sealing = false) ∧
     (q.rqPsn < 2 ^ 24) ∧
     (q.state ≠ .rts)) ∧
    (∃ (c : Chip) (p : Packet) (q : Qp),
     (c.qp p.qpn.toNat = some q) ∧
     (q.port = p.port.val) ∧
     (q.sealing = false) ∧
     (q.rqPsn < 2 ^ 24) ∧
     (q.state = .rts) ∧
     (q.nakked = true) ∧
     (0 < (p.psn.toNat + 2 ^ 24 - q.rqPsn) % 2 ^ 24) ∧
     ((p.psn.toNat + 2 ^ 24 - q.rqPsn) % 2 ^ 24 < 2 ^ 23)) ∧
    (∃ (c : Chip) (p : Packet) (q : Qp),
     (c.qp p.qpn.toNat = some q) ∧
     (q.port = p.port.val) ∧
     (q.sealing = false) ∧
     (q.rqPsn < 2 ^ 24) ∧
     (q.state = .rts) ∧
     (q.nakked = false) ∧
     (0 < (p.psn.toNat + 2 ^ 24 - q.rqPsn) % 2 ^ 24) ∧
     ((p.psn.toNat + 2 ^ 24 - q.rqPsn) % 2 ^ 24 < 2 ^ 23)) ∧
    (∃ (c : Chip) (p : Packet) (q : Qp),
     (c.qp p.qpn.toNat = some q) ∧
     (q.port = p.port.val) ∧
     (q.sealing = false) ∧
     (q.rqPsn < 2 ^ 24) ∧
     (q.state = .rts) ∧
     (p.psn.toNat = q.rqPsn) ∧
     (c.rma.ready = false)) ∧
    (∃ (c : Chip) (p : Packet) (q : Qp),
     (c.qp p.qpn.toNat = some q) ∧
     (q.port = p.port.val) ∧
     (q.sealing = false) ∧
     (q.rqPsn < 2 ^ 24) ∧
     (q.state = .rts) ∧
     (p.psn.toNat = q.rqPsn) ∧
     (c.rma.ready = true) ∧
     (p.op = .other)) ∧
    (∃ (c : Chip) (p : Packet) (q : Qp),
     (c.qp p.qpn.toNat = some q) ∧
     (q.port = p.port.val) ∧
     (q.sealing = false) ∧
     (q.rqPsn < 2 ^ 24) ∧
     (q.state = .rts) ∧
     (p.psn.toNat = q.rqPsn) ∧
     (c.rma.ready = true) ∧
     (p.op ≠ .other) ∧
     (p.pos = .only) ∧
     ((∀ m ∈ q.msgs, m.whole = true))) :=
  ⟨⟨c5 {q0 with state := .error}, pk, {q0 with state := .error}, by decide +kernel⟩,
   ⟨c5 {q0 with nakked := true}, pk (fun p => {p with psn := 105}), {q0 with nakked := true}, by decide +kernel⟩,
   ⟨c5 q0, pk (fun p => {p with psn := 102}), q0, by decide +kernel⟩,
   ⟨c5 q0 false, pk, q0, by decide +kernel⟩,
   ⟨c5 q0, pk (fun p => {p with op := .other}), q0, by decide +kernel⟩,
   ⟨c5 q0, pk, q0, by decide +kernel⟩⟩

/-- Each clause of OutboundRequests (obligation RemoteMessages): a machine and operands that meet its hypotheses. -/
theorem test_meets_OutboundRequests :
    (∃ (s : State) (qpn : BitVec 18) (q : Qp) (o : OutReq) (os : List OutReq),
     (s.chip.clocked = true) ∧
     (s.chip.netServes = true) ∧
     (s.chip.qp qpn.toNat = some q) ∧
     (q.state = .rts) ∧
     (q.outs = o :: os) ∧
     let c := s.chip
     let t := c.twr o.entry
     (t.f 0x14 4 = 0)) ∧
    (∃ (s : State) (qpn : BitVec 18) (q : Qp) (o : OutReq) (os : List OutReq),
     (s.chip.clocked = true) ∧
     (s.chip.netServes = true) ∧
     (s.chip.qp qpn.toNat = some q) ∧
     (q.state = .rts) ∧
     (q.outs = o :: os) ∧
     let c := s.chip
     let t := c.twr o.entry
     (t.f 0x14 4 ≠ 0) ∧
     (t.action = 3)) ∧
    (∃ (s : State) (qpn : BitVec 18) (q : Qp) (o : OutReq) (os : List OutReq),
     (s.chip.clocked = true) ∧
     (s.chip.netServes = true) ∧
     (s.chip.qp qpn.toNat = some q) ∧
     (q.state = .rts) ∧
     (q.outs = o :: os)) ∧
    (∃ (s : State) (qpn : BitVec 18) (q : Qp) (o : OutReq) (os : List OutReq),
     (s.chip.clocked = true) ∧
     (s.chip.netServes = true) ∧
     (s.chip.qp qpn.toNat = some q) ∧
     (q.state = .rts) ∧
     (q.outs = o :: os) ∧
     (q.conn.retry ≤ q.tries)) ∧
    (∃ (s : State) (qpn : BitVec 18) (q : Qp) (o : OutReq) (os : List OutReq),
     (s.chip.clocked = true) ∧
     (s.chip.netServes = true) ∧
     (s.chip.qp qpn.toNat = some q) ∧
     (q.state = .rts) ∧
     (q.outs = o :: os) ∧
     let c := s.chip
     let t := c.twr o.entry
     (q.tries < q.conn.retry) ∧
     (t.action ≠ 1) ∧
     (t.action ≠ 2)) :=
  ⟨⟨oS 3 0, 9, qo, ⟨4,50⟩, [], by decide +kernel⟩,
   ⟨oS 3 0x3007, 9, qo, ⟨4,50⟩, [], by decide +kernel⟩,
   ⟨oS 3 0x3007, 9, qo, ⟨4,50⟩, [], by decide +kernel⟩,
   ⟨oS 2 0 3, 9, qo 3, ⟨4,50⟩, [], by decide +kernel⟩,
   ⟨oS 3 0x3007, 9, qo, ⟨4,50⟩, [], by decide +kernel⟩⟩

/-- Each clause of QueuePairCommands (obligation RemoteCommands): a machine and operands that meet its hypotheses. -/
theorem test_meets_QueuePairCommands :
    (∃ (s : State) (f : Fn) (ix : BitVec 16) (a : Adm),
     (s.chip.clocked = true) ∧
     let c := s.chip
     let e := a.entry
     let n := eField e 4 4
     (c.entryAt f 0 ix 0x40 a) ∧
     (n < 2 ^ 18) ∧
     (c.qp n = none) ∧
     (bitAt (eField e 0xB 1) 0 = false) ∧
     (bitAt (eField e 0xB 1) 1 = false)) ∧
    (∃ (s : State) (f : Fn) (ix : BitVec 16) (a : Adm) (q : Qp),
     (s.chip.clocked = true) ∧
     let c := s.chip
     let e := a.entry
     let n := eField e 4 4
     (c.entryAt f 0 ix 0x40 a) ∧
     (n < 2 ^ 18) ∧
     (c.qp n = some q)) ∧
    (∃ (s : State) (f : Fn) (ix : BitVec 16) (a : Adm) (l : List Byte) (q : Qp),
     (s.chip.clocked = true) ∧
     let c := s.chip
     let e := a.entry
     let n := eField e 4 4
     ∃ k sq rq,
     (c.entryAt f 0 ix 0x41 a) ∧
     (a.data = some l) ∧
     (connOf l = some (k, sq, rq)) ∧
     (c.qp n = some q) ∧
     (q.state = .reset) ∧
     ((q.sealing = false ∨ q.key.isSome = true))) ∧
    (∃ (s : State) (f : Fn) (ix : BitVec 16) (a : Adm) (l : List Byte) (q : Qp),
     (s.chip.clocked = true) ∧
     let c := s.chip
     let e := a.entry
     let n := eField e 4 4
     (c.entryAt f 0 ix 0x44 a) ∧
     (a.data = some l) ∧
     (c.qp n = some q) ∧
     (q.state = .reset) ∧
     (q.tier1 = false)) ∧
    (∃ (s : State) (f : Fn) (ix : BitVec 16) (a : Adm) (q : Qp),
     (s.chip.clocked = true) ∧
     let c := s.chip
     let e := a.entry
     let n := eField e 4 4
     (c.entryAt f 0 ix 0x43 a) ∧
     (eInd e = false) ∧
     (c.qp n = some q)) ∧
    (∃ (s : State) (f : Fn) (ix : BitVec 16) (a : Adm) (q : Qp),
     (s.chip.clocked = true) ∧
     let c := s.chip
     let e := a.entry
     let n := eField e 4 4
     (c.entryAt f 0 ix 0x42 a) ∧
     (c.qp n = some q) ∧
     (q.msgs = []) ∧
     (q.outs = []) ∧
     ((∀ t ∈ c.rma.twrs, t.2.state ≠ 1 ∨ (t.2.trigQp ≠ n ∧ t.2.outQp ≠ n))) ∧
     ((∀ x ∈ c.rma.miss, x.2 ≠ [] ∧ ∀ p ∈ x.2, p.qpn.toNat ≠ n))) ∧
    (∃ (s : State) (f : Fn) (ix : BitVec 16) (a : Adm),
     (s.chip.clocked = true) ∧
     let c := s.chip
     (c.entryAt f 0 ix 0x4F a) ∧
     ((∀ x ∈ c.rma.qps, ∀ y, x.2 = some y → y.tier1 = false))) :=
  ⟨⟨aQ (qc 11), 64, 15, qc 11, by decide +kernel⟩,
   ⟨aQ (qc 9), 64, 15, qc 9, q1, by decide +kernel⟩,
   ⟨aQ qn, 64, 15, qn, cl, q1, by decide +kernel, _, _, _, by decide +kernel, by decide +kernel, rfl, by decide +kernel⟩,
   ⟨aQ ki, 64, 15, ki, ((List.range 16).map (BitVec.ofNat 8)), q1, by decide +kernel⟩,
   ⟨aQ qq, 64, 15, qq, q1, by decide +kernel⟩,
   ⟨aQ qd (fun c => {c with rma := {c.rma with twrs := []}}), 64, 15, qd, q1, by decide +kernel⟩,
   ⟨aQ ch, 64, 15, ch, by decide +kernel⟩⟩

/-- Each clause of WindowsAndRequests (obligation RemoteCommands): a machine and operands that meet its hypotheses. -/
theorem test_meets_WindowsAndRequests :
    (∃ (s : State) (f : Fn) (ix : BitVec 16) (a : Adm),
     (s.chip.clocked = true) ∧
     let c := s.chip
     let e := a.entry
     (c.entryAt f 0 ix 0x48 a) ∧
     (c.registerCheck e = none)) ∧
    (∃ (s : State) (f : Fn) (ix : BitVec 16) (a : Adm),
     (s.chip.clocked = true) ∧
     let c := s.chip
     let e := a.entry
     let n := eField e 4 4
     (c.entryAt f 0 ix 0x48 a) ∧
     (eField e 0xC 1 = 0) ∧
     (n < 2 ^ 20) ∧
     (0x200000000 ≤ eField e 0x10 8) ∧
     (eField e 0x10 8 + eField e 0x18 8 ≤ 0x5C0000000) ∧
     ((c.rmaWin n).lastTag = some (eField e 8 2))) ∧
    (∃ (s : State) (f : Fn) (ix : BitVec 16) (a : Adm),
     (s.chip.clocked = true) ∧
     let c := s.chip
     let e := a.entry
     let n := eField e 4 4
     (c.entryAt f 0 ix 0x49 a) ∧
     (n < 2 ^ 20) ∧
     ((c.rmaWin n).state = .valid)) ∧
    (∃ (s : State) (f : Fn) (a : Adm) (i : BitVec 20),
     (s.chip.clocked = true) ∧
     let c := s.chip
     ((c.rmaWin i.toNat).state = .revoking) ∧
     ((∀ x ∈ c.rma.qps, ∀ q, x.2 = some q → ∀ m ∈ q.msgs, m.key / 4096 ≠ i.toNat)) ∧
     ((c.rmaWin i.toNat).drain = some (f.val, a.pos))) ∧
    (∃ (s : State) (f : Fn) (ix : BitVec 16) (a : Adm) (l : List Byte),
     (s.chip.clocked = true) ∧
     let c := s.chip
     let e := a.entry
     let n := eField e 4 4
     let t : Twr := { state := 1, desc := BitVec.ofNat 512 (ofLe l) }
     (c.entryAt f 0 ix 0x50 a) ∧
     (a.data = some l) ∧
     (twrOk t = true) ∧
     (n < 65536) ∧
     ((c.qp t.trigQp).isSome = true) ∧
     ((c.qp t.outQp).isSome = true) ∧
     ((c.twr n).state = 0)) ∧
    (∃ (s : State) (f : Fn) (ix : BitVec 16) (a : Adm),
     (s.chip.clocked = true) ∧
     let c := s.chip
     let e := a.entry
     let n := eField e 4 4
     (c.entryAt f 0 ix 0x51 a) ∧
     (n < 65536) ∧
     ((c.twr n).state = 1)) ∧
    (∃ (s : State) (f : Fn) (ix : BitVec 16) (a : Adm),
     (s.chip.clocked = true) ∧
     let c := s.chip
     let e := a.entry
     let n := eField e 4 4
     (c.entryAt f 0 ix 0x51 a) ∧
     (n < 65536) ∧
     ((c.twr n).state ≠ 1)) :=
  ⟨⟨aQ (wr 5 2), 64, 15, wr 5 2, by decide +kernel⟩,
   ⟨aQ (wr 3 7) (fun c => {c with rma := {c.rma with wins := [(3, {lastTag := some 7})]}}), 64, 15, wr 3 7, by decide +kernel⟩,
   ⟨aQ wv, 64, 15, wv, by decide +kernel⟩,
   ⟨aQ wv (fun c => {c with rma := {c.rma with wins := [(3, rvk)]}}), 64, wv, 3, by decide +kernel⟩,
   ⟨aQ tp, 64, 15, tp, vecBytes (tw 3 0).desc, by decide +kernel⟩,
   ⟨aQ (tc 4), 64, 15, tc 4, by decide +kernel⟩,
   ⟨aQ (tc 6), 64, 15, tc 6, by decide +kernel⟩⟩

end Sys2Proof.Tests.W12

namespace Sys2Proof.Tests.W12m
open Sys2Proof.Machine
set_option maxRecDepth 100000
set_option Elab.async false

def q0 : Qp := { state := .rts, port := 1, rqPsn := 100, resident := true, conn := { retry := 3 } }

def pk (f : Packet → Packet := id) : Packet := f { port := 1, length := 300, icrcOk := true, ecnCe := false, qpn := 9, psn := 100, op := .write, pos := .only, rkey := 0x3007, addr := 16, dmaLen := 8, payload := [1,2,3,4,5,6,7,8], operand0 := 3, operand1 := 4, sealHdr := none }

def win3 : RmaWin := { state := .valid, tag := 7, lastTag := some 7, pd := 0, access := 7, base := 0x200000000, size := 0x10000 }

def rm (q : Qp) (h : Chip → Chip := id) : State := mk (h { cs { tChip with par := act } with ports := [(1, { linkUp := true })], rma := { ready := true, qps := [(9, some q)], wins := [(3, win3)] } })

def c5 (q : Qp) (rdy := true) : Chip := (rm q fun c => {c with rma := {c.rma with ready := rdy}}).chip

def mg (op : RmaOp) : RmaMsg := { seq := 40, op := op, psn := 100, key := 0x3007, off := 16, len := 8, data := [9,8,7], whole := true, op0 := 0, op1 := 6 }

/-- Each clause of AtomicMessage (obligation RemoteMessages): a machine and operands that meet its hypotheses. -/
theorem test_meets_AtomicMessage :
    (∃ (m : RmaMsg) (old : Nat),
     (old < 2 ^ 64) ∧
     (m.op = .fetchAdd)) ∧
    (∃ (m : RmaMsg) (old : Nat),
     (old < 2 ^ 64) ∧
     (m.op = .cmpSwap) ∧
     (old = m.op0)) ∧
    (∃ (m : RmaMsg) (old : Nat),
     (old < 2 ^ 64) ∧
     (m.op = .cmpSwap) ∧
     (old ≠ m.op0)) ∧
    (∃ (m : RmaMsg) (old : Nat),
     (old < 2 ^ 64) ∧
     ∃ (s : State) (qpn : BitVec 18) (q : Qp) (ms : List RmaMsg),
     (s.chip.clocked = true) ∧
     (s.chip.qp qpn.toNat = some q) ∧
     (q.msgs = m :: ms) ∧
     (q.state = .rts) ∧
     (m.whole = true) ∧
     let c := s.chip
     ((c.msgWin m).volumeType = false) ∧
     (c.blocked m = false) ∧
     ((m.op = .fetchAdd ∨ m.op = .cmpSwap)) ∧
     (ofLe (c.winRead m.key m.off 8) = old)) ∧
    (∃ (m : RmaMsg) (old : Nat),
     (old < 2 ^ 64) ∧
     ∃ (s : State) (qpn : BitVec 18) (q : Qp) (ms : List RmaMsg),
     (s.chip.clocked = true) ∧
     (s.chip.qp qpn.toNat = some q) ∧
     (q.msgs = m :: ms) ∧
     (q.state = .rts) ∧
     (m.whole = true) ∧
     let c := s.chip
     ((c.msgWin m).volumeType = false) ∧
     (c.blocked m = false) ∧
     (m.op = .read)) ∧
    (∃ (m : RmaMsg) (old : Nat),
     (old < 2 ^ 64) ∧
     ∃ (s : State) (qpn : BitVec 18) (q : Qp) (ms : List RmaMsg),
     (s.chip.clocked = true) ∧
     (s.chip.qp qpn.toNat = some q) ∧
     (q.msgs = m :: ms) ∧
     (q.state = .rts) ∧
     (m.whole = true) ∧
     let c := s.chip
     ((c.msgWin m).volumeType = false) ∧
     (c.blocked m = false) ∧
     (m.op = .write ∨ m.op = .send) ∧
     (m.begun = false)) :=
  ⟨⟨mg .fetchAdd, 0, by decide +kernel⟩,
   ⟨mg .cmpSwap, 0, by decide +kernel⟩,
   ⟨mg .cmpSwap, 5, by decide +kernel⟩,
   ⟨mg .fetchAdd, 0, by decide +kernel, rm {q0 with msgs := [mg .fetchAdd]}, 9, {q0 with msgs := [mg .fetchAdd]}, [], by decide +kernel⟩,
   ⟨mg .read, 0, by decide +kernel, rm {q0 with msgs := [mg .read]}, 9, {q0 with msgs := [mg .read]}, [], by decide +kernel⟩,
   ⟨mg .write, 0, by decide +kernel, rm {q0 with msgs := [mg .write]}, 9, {q0 with msgs := [mg .write]}, [], by decide +kernel⟩⟩

end Sys2Proof.Tests.W12m
end

