-- ==== Sys2Proof/Tests/Witness13.lean ====
section
/-! SUPPORT. Machines and operands that meet the hypotheses of the statements, clause by clause. -/

namespace Sys2Proof.Tests.W13
open Sys2Proof.Machine
set_option maxRecDepth 100000
set_option Elab.async false

def U : Nat := 2^16

def hbt (f : Heartbeat → Heartbeat := id) : Heartbeat := f ⟨0, true, true, true, true, true, 77, 8, 0x5000, true⟩

def pr (p : Par) (h : Chip → Chip := id) : State := mk (h { cT 1000000 with par := p, pools := [(3, { held := 9, granted := 9 })] })

def up0 : Nat := 5

def lv : PathState := { lastValid := some 5, degraded := true }

def late (c : Chip) : Chip := { c with tmb := { c.tmb with up := 5 + 20000 * U } }

def frsh : PathState := { lastValid := some (5 + 19000 * U) }

def ms (cls prio : Nat) (l : List Byte) : CouplerMsg := { cls := cls, prio := prio, payload := l }

def l8 : List Byte := [1,2,3,4,5,6,7,8,9,10,11,12,13,14,15,16]

/-- Each clause of Heartbeats (obligation HeartbeatsAndToken): a machine and operands that meet its hypotheses. -/
theorem test_meets_Heartbeats :
    (∃ (s : State),
     (s.chip.clocked = true) ∧
     let c := s.chip
     let p := c.par
     (p.role = .active)) ∧
    (∃ (s : State),
     (s.chip.clocked = true) ∧
     let c := s.chip
     let p := c.par
     (p.role ≠ .active)) ∧
    (∃ (s : State),
     (s.chip.clocked = true) ∧
     let c := s.chip
     let p := c.par
     (p.role ≠ .active) ∧
     (p.trained = true) ∧
     (0 < p.credits)) ∧
    (∃ (s : State),
     (s.chip.clocked = true) ∧
     let c := s.chip
     let p := c.par
     (p.trained = false ∨ p.credits = 0)) ∧
    (∃ (s : State) (hb : Heartbeat),
     (s.chip.clocked = true) ∧
     let c := s.chip
     let p := c.par
     (hb.crcOk = false ∨ hb.unit = p.unit)) ∧
    (∃ (s : State) (hb : Heartbeat),
     (s.chip.clocked = true) ∧
     let c := s.chip
     let p := c.par
     (hb.crcOk = true) ∧
     (hb.unit = !p.unit) ∧
     (p.role = .standby) ∧
     (hb.role ≠ 3) ∧
     (bitAt (c.blk 83).level 4 = false) ∧
     (p.tokenAway = false)) ∧
    (∃ (s : State) (hb : Heartbeat),
     (s.chip.clocked = true) ∧
     let c := s.chip
     let p := c.par
     (hb.crcOk = true) ∧
     (hb.unit = !p.unit) ∧
     (p.role = .standby) ∧
     (hb.role = 3) ∧
     (bitAt (c.blk 83).level 4 = false) ∧
     (p.tokenAway = false)) ∧
    (∃ (s : State) (hb : Heartbeat),
     (s.chip.clocked = true) ∧
     (hb.role = 0) ∧
     (hb.seq ≠ 0)) ∧
    (∃ (s : State),
     (s.chip.clocked = true)) :=
  ⟨⟨pr {role := .active}, by decide +kernel⟩,
   ⟨pr {role := .standby, lastActive := some 3}, by decide +kernel⟩,
   ⟨pr {role := .standby, trained := true, credits := 4, lastTaken := 9}, by decide +kernel⟩,
   ⟨pr {role := .active}, by decide +kernel⟩,
   ⟨pr {role := .alone, trained := true, credits := 0}, hbt fun h => {h with crcOk := false}, by decide +kernel⟩,
   ⟨pr {role := .standby, lastActive := some 3}, hbt, by decide +kernel⟩,
   ⟨pr {role := .standby, seqTop := some 8}, hbt fun h => {h with role := 3}, by decide +kernel⟩,
   ⟨pr {role := .active}, hbt, by decide +kernel⟩,
   ⟨pr {role := .active}, by decide +kernel⟩⟩

/-- Each clause of TokenMoves (obligation HeartbeatsAndToken): a machine and operands that meet its hypotheses. -/
theorem test_meets_TokenMoves :
    (∃ (s : State) (x : Path) (t : Nat),
     (s.chip.clocked = true) ∧
     let c := s.chip
     let p := c.par
     ((p.path x).lastValid = some t) ∧
     (t + nsUp 10000 ≤ c.tmb.up) ∧
     (c.pathUp (p.path (otherPath x)) = true)) ∧
    (∃ (s : State) (x : Path),
     (s.chip.clocked = true) ∧
     let c := s.chip
     let p := c.par
     (c.pathUp (p.path x) = true)) ∧
    (∃ (s : State) (t : Nat),
     (s.chip.clocked = true) ∧
     let c := s.chip
     let p := c.par
     (p.role = .active) ∧
     (p.lastGrant = some t)) ∧
    (∃ (s : State) (t : Nat),
     (s.chip.clocked = true) ∧
     let c := s.chip
     let p := c.par
     (p.role = .standby) ∧
     (p.grantSent = some t) ∧
     ((∀ u, p.lastActive = some u → u ≤ t))) ∧
    (∃ (s : State) (t : Nat),
     (s.chip.clocked = true) ∧
     let c := s.chip
     let p := c.par
     ∃ u,
     (p.role = .standby) ∧
     (p.grantSent = some t) ∧
     (p.lastActive = some u) ∧
     (t < u)) ∧
    (∃ (s : State) (t : Nat),
     (s.chip.clocked = true) ∧
     let c := s.chip
     let p := c.par
     (p.role = .fenced) ∧
     (p.wasActive = true) ∧
     (p.reclaimBlocked = false) ∧
     (p.lastGrant = some t) ∧
     (p.heardSinceGrant = false) ∧
     (p.degradedAtGrant = false) ∧
     (p.rxProved = true)) ∧
    (∃ (s : State) (t : Nat),
     (s.chip.clocked = true) ∧
     let c := s.chip
     let p := c.par
     (p.role = .fenced) ∧
     (p.wasActive = true) ∧
     (p.reclaimBlocked = false) ∧
     (p.lastGrant = some t) ∧
     (t + nsUp 16000 ≤ c.tmb.up)) ∧
    (∃ (s : State) (t : Nat),
     (s.chip.clocked = true) ∧
     let c := s.chip
     let p := c.par
     (p.role = .fenced) ∧
     (p.electing = true) ∧
     (p.coupler.lastValid = none) ∧
     (p.drawbar.lastValid = none) ∧
     (p.hbFirst = some t) ∧
     (c.eff 83 0x100 13 = 1)) ∧
    (∃ (s : State),
     (s.chip.clocked = true) ∧
     let c := s.chip
     let p := c.par
     ∃ w,
     (Who.mayWrite w c = true) ∧
     (p.role = .fenced)) ∧
    (∃ (s : State),
     (s.chip.clocked = true) ∧
     let c := s.chip
     let p := c.par
     ∃ w,
     (Who.mayWrite w c = true) ∧
     (p.role ≠ .fenced)) ∧
    (∃ (s : State),
     (s.chip.clocked = true) ∧
     let c := s.chip
     let p := c.par
     (p.announce = true) ∧
     (c.pwr.waking &&& c.groupsMask 0xFFFF = 0) ∧
     (c.tmb.lockedEver = true) ∧
     ((c.port 0).linkUp = true) ∧
     ((∀ q < 4, 0 < q → (c.port q).linkUp = false))) :=
  ⟨⟨pr {role := .standby, coupler := lv, drawbar := frsh} late, .coupler, 5, by decide +kernel⟩,
   ⟨pr {role := .standby, coupler := frsh, drawbar := lv} late, .coupler, by decide +kernel⟩,
   ⟨pr {role := .active, lastGrant := some 5}, 5, by decide +kernel⟩,
   ⟨pr {role := .standby, grantSent := some 5, lastActive := some 4}, 5, by decide +kernel⟩,
   ⟨pr {role := .standby, grantSent := some 5, lastActive := some 9}, 5, by decide +kernel, _, by decide +kernel, by decide +kernel, rfl, by decide +kernel⟩,
   ⟨pr {role := .fenced, wasActive := true, lastGrant := some 5}, 5, by decide +kernel⟩,
   ⟨pr {role := .fenced, wasActive := true, lastGrant := some 5} late, 5, by decide +kernel⟩,
   ⟨pr {role := .fenced, electing := true, hbFirst := some 5} (setE 83 [(8*0x100+13,1),(8*0x100+16,3)]), 5, by decide +kernel⟩,
   ⟨pr {role := .fenced, wasActive := true, lastGrant := some 5}, by decide +kernel, .firmware, by decide +kernel⟩,
   ⟨pr {role := .standby, coupler := lv, drawbar := frsh} late, by decide +kernel, .firmware, by decide +kernel⟩,
   ⟨pr {role := .active, announce := true, announceSeq := 8} fun c => {c with ports := [(0,{linkUp := true})], tmb := {c.tmb with lockedEver := true}}, by decide +kernel⟩⟩

/-- Each clause of CouplerMessages (obligation CouplerTraffic): a machine and operands that meet its hypotheses. -/
theorem test_meets_CouplerMessages :
    (∃ (s : State),
     (s.chip.clocked = true) ∧
     let c := s.chip
     let p := c.par
     (p.trained = true) ∧
     (0 < p.owed) ∧
     (0 < p.credits)) ∧
    (∃ (s : State) (m : CouplerMsg),
     (s.chip.clocked = true) ∧
     let c := s.chip
     let p := c.par
     (p.trained = true) ∧
     (p.owed = 0) ∧
     (nextMsg p.queue = some m) ∧
     (m.cls ≠ 8) ∧
     (creditsFor m.payload.length ≤ p.credits)) ∧
    (∃ (s : State),
     (s.chip.clocked = true)) ∧
    (∃ (s : State) (off : BitVec 40) (l : List Byte),
     (s.chip.clocked = true) ∧
     let c := s.chip
     let p := c.par
     (p.role = .standby) ∧
     (off.toNat + l.length ≤ 0x200000000)) ∧
    (∃ (s : State),
     (s.chip.clocked = true) ∧
     let c := s.chip
     let p := c.par
     (p.role ≠ .standby) ∧
     (p.copying = false)) ∧
    (∃ (s : State) (off : BitVec 40) (l : List Byte),
     (s.chip.clocked = true) ∧
     let c := s.chip
     let p := c.par
     (p.role = .standby) ∧
     (0x01000000 ≤ off.toNat) ∧
     (off.toNat < 0x11000000) ∧
     (l.length ≤ 256)) ∧
    (∃ (s : State),
     (s.chip.clocked = true) ∧
     let c := s.chip
     let p := c.par
     (p.handing = .none)) ∧
    (∃ (s : State),
     (s.chip.clocked = true) ∧
     let c := s.chip
     let p := c.par
     (p.role = .standby)) ∧
    (∃ (s : State) (off : BitVec 40) (l : List Byte),
     (s.chip.clocked = true) ∧
     let c := s.chip
     let p := c.par
     (p.copying = true) ∧
     (off.toNat + l.length ≤ 0x200000000)) ∧
    (∃ (s : State),
     (s.chip.clocked = true) ∧
     let c := s.chip
     let p := c.par
     (p.role = .fenced) ∧
     (p.copying = true)) :=
  ⟨⟨pr {role := .standby, trained := true, owed := 3, credits := 4}, by decide +kernel⟩,
   ⟨pr {role := .standby, trained := true, credits := 4, queue := [ms 5 3 l8, ms 5 2 l8]}, ms 5 2 l8, by decide +kernel⟩,
   ⟨pr {role := .standby, trained := true, owed := 3, credits := 4}, by decide +kernel⟩,
   ⟨pr {role := .standby, trained := true, owed := 3, credits := 4}, 0x100, l8, by decide +kernel⟩,
   ⟨pr {role := .active} fun c => {c with engines := [(3, {x0 with tickets := [⟨8,true,false⟩,⟨9,false,false⟩,⟨10,true,false⟩]})]}, by decide +kernel⟩,
   ⟨pr {role := .standby, trained := true, credits := 4, queue := [ms 5 3 l8, ms 5 2 l8]}, 0x1000010, l8, by decide +kernel⟩,
   ⟨pr {role := .standby, trained := true, owed := 3, credits := 4}, by decide +kernel⟩,
   ⟨pr {role := .standby, trained := true, owed := 3, credits := 4}, by decide +kernel⟩,
   ⟨pr {role := .fenced, copying := true}, 0x100, l8, by decide +kernel⟩,
   ⟨pr {role := .fenced, copying := true}, by decide +kernel⟩⟩

/-- Each clause of TimeMessages (obligation CouplerTraffic): a machine and operands that meet its hypotheses. -/
theorem test_meets_TimeMessages :
    (∃ (s : State),
     (s.chip.clocked = true) ∧
     let c := s.chip
     let p := c.par
     (p.trained = true) ∧
     (0 < p.credits)) ∧
    (∃ (s : State),
     (s.chip.clocked = true) ∧
     let c := s.chip
     let p := c.par
     (p.timeGot = none ∨ p.timeSent = none)) ∧
    (∃ (s : State) (got sent : Nat),
     (s.chip.clocked = true) ∧
     let c := s.chip
     let p := c.par
     (p.timeGot = some got) ∧
     (p.timeSent = some sent) ∧
     (c.tmb.following = false) ∧
     (c.tmb.state ≠ .holdover)) :=
  ⟨⟨pr {trained := true, credits := 2, timeSent := some 5}, by decide +kernel⟩,
   ⟨pr {trained := true, credits := 2, timeSent := some 5}, by decide +kernel⟩,
   ⟨pr {timeSent := some 1000000, timeGot := some 5000000}, 5000000, 1000000, by decide +kernel⟩⟩

/-- Each clause of PlannedHandover (obligation PlannedHandover): a machine and operands that meet its hypotheses. -/
theorem test_meets_PlannedHandover :
    (∃ (s : State) (k : Fin 9),
     (s.chip.clocked = true) ∧
     let c := s.chip
     let p := c.par
     (p.role = .standby) ∧
     (p.partnerRole = 0) ∧
     (k = 0)) ∧
    (∃ (s : State) (k : Fin 9),
     (s.chip.clocked = true) ∧
     let c := s.chip
     let p := c.par
     (p.role = .standby) ∧
     (p.partnerRole = 0) ∧
     (k ≠ 0)) ∧
    (∃ (s : State),
     (s.chip.clocked = true) ∧
     let c := s.chip
     let p := c.par
     (p.role = .active) ∧
     (p.partnerRole = 1)) ∧
    (∃ (s : State) (w : Who),
     (s.chip.clocked = true) ∧
     let c := s.chip
     let p := c.par
     (Who.mayWrite w c = true) ∧
     (p.role = .active) ∧
     (p.handing = .none) ∧
     (p.partnerRole = 1) ∧
     (p.partnerProofOk = true)) ∧
    (∃ (s : State),
     (s.chip.clocked = true) ∧
     let c := s.chip
     let p := c.par
     (p.handing = .draining) ∧
     (c.drained = true) ∧
     ((∀ x ∈ c.wins, x.2.live = false ∨ x.2.reserved = []))) ∧
    (∃ (s : State),
     (s.chip.clocked = true) ∧
     let c := s.chip
     let p := c.par
     (p.handing = .drained) ∧
     ((∀ j < 16, (c.chan (48 + j)).state ≠ .running))) ∧
    (∃ (s : State),
     (s.chip.clocked = true) ∧
     let c := s.chip
     let p := c.par
     (p.role = .standby)) ∧
    (∃ (s : State),
     (s.chip.clocked = true) ∧
     let c := s.chip
     let p := c.par
     (p.role ≠ .standby)) :=
  ⟨⟨pr {role := .standby, partnerRole := 0, pref := true, clean := 0}, 0, by decide +kernel⟩,
   ⟨pr {role := .standby, partnerRole := 0}, 2, by decide +kernel⟩,
   ⟨pr {role := .active, partnerRole := 1}, by decide +kernel⟩,
   ⟨pr {role := .active, partnerRole := 1, partnerProofOk := true}, .fn 64, by decide +kernel⟩,
   ⟨pr {role := .active, handing := .draining} (fun c => {c with wins := [(3,{})]}), by decide +kernel⟩,
   ⟨pr {role := .active, handing := .drained, handAt := 1000200}, by decide +kernel⟩,
   ⟨pr {role := .standby, partnerRole := 0, pref := true, clean := 0}, by decide +kernel⟩,
   ⟨pr {role := .active, partnerRole := 1}, by decide +kernel⟩⟩

end Sys2Proof.Tests.W13
end

