-- ==== Sys2Proof/Tests/Witness14.lean ====
section
/-! SUPPORT. Machines and operands that meet the hypotheses of the statements, clause by clause. -/

namespace Sys2Proof.Tests.W14
open Sys2Proof.Machine
set_option maxRecDepth 100000
set_option Elab.async false

def g1 (h : Chip → Chip := id) : State := mk (h { cT 1000000 with par := act, pools := [(3, { held := 9, granted := 9 })] })

def bk (r : Nat) (b : Block) (h : Chip → Chip := id) : State := g1 fun c => h { c with blocks := [(r, b)] }

def ck (l : List (Nat × Bool)) (lk : Nat) (c : Chip) : Chip := { c with pwr := { c.pwr with clkBad := l, clkLocked := lk } }

def hb1 (g : Age) : State := setE 90 [(8*0x104+19, 100),(8*0x104,1),(8*0x104+12,50)] (g1 fun c => {c with age := g}).chip |> mk

def po (h : Chip → Chip := id) : State := g1 fun c => h {c with pools := [(0,{granted := 9, held := 4, returned := 5, snap := (9,5,4,0)}), (3,{granted := 3, held := 3})]}

def ev (e : Evr) (h : Chip → Chip := id) : State := g1 fun c => h {c with evr := e}

def k7 : Chip → Chip := setE 92 [(8*0x100+1,255)]

/-- Each clause of CausesAndClears (obligation Causes): a machine and operands that meet its hypotheses. -/
theorem test_meets_CausesAndClears :
    (∃ (s : State) (w : Who) (r : Rec) (v : W32),
     (s.chip.clocked = true) ∧
     (r ≠ 0) ∧
     let c := s.chip
     (Who.mayWrite w c = true) ∧
     ((∀ k < 16, bitAt v.toNat k = true → unseenLevel r k = false ∧ ¬ (r = 90 ∧ k = 4))) ∧
     (bitAt v.toNat 3 = false)) ∧
    (∃ (s : State) (r : Rec),
     (s.chip.clocked = true) ∧
     (r ≠ 0)) ∧
    (∃ (s : State) (r : Rec),
     (s.chip.clocked = true) ∧
     (r ≠ 0) ∧
     let c := s.chip
     ∃ k : Fin 6,
     ((k.val, false) ∉ c.pwr.clkBad) ∧
     (bitAt c.pwr.clkLocked k = true)) ∧
    (∃ (s : State) (r : Rec),
     (s.chip.clocked = true) ∧
     (r ≠ 0) ∧
     let c := s.chip
     ∃ k : Fin 6,
     ((k.val, true) ∉ c.pwr.clkBad)) :=
  ⟨⟨bk 83 { cause := 0x31, handling := true, watch := [0,4] }, .firmware, 83, 0x31, by decide +kernel⟩,
   ⟨bk 83 { cause := 0x31, handling := true, watch := [0,4] }, 83, by decide +kernel⟩,
   ⟨bk 30 { cause := 0x101, handling := true, watch := [0] } (ck [] 63), 30, by decide +kernel, by decide +kernel, 3, by decide +kernel⟩,
   ⟨bk 83 { cause := 0x31, handling := true, watch := [0,4] }, 83, by decide +kernel, by decide +kernel, 3, by decide +kernel⟩⟩

/-- Each clause of GuardWatches (obligation GuardAndHoldUp): a machine and operands that meet its hypotheses. -/
theorem test_meets_GuardWatches :
    (∃ (s : State) (r : Rec) (k : Nat),
     (s.chip.clocked = true) ∧
     let c := s.chip
     let b := c.blk r
     ((b.watch.find? fun k => bitAt (causesS (kindOf r)) k) = some k) ∧
     (b.handling = true)) ∧
    (∃ (s : State) (r : Rec),
     (s.chip.clocked = true) ∧
     let c := s.chip
     let b := c.blk r
     (b.watch = [])) ∧
    (∃ (s : State),
     (s.chip.clocked = true) ∧
     let c := s.chip
     (c.par.role = .alone)) ∧
    (∃ (s : State),
     (s.chip.clocked = true) ∧
     let c := s.chip
     (c.par.role ≠ .alone)) ∧
    (∃ (s : State) (w : Who),
     (s.chip.clocked = true) ∧
     let c := s.chip
     (Who.mayWrite w c = true) ∧
     (c.grd.errOutPin = false)) ∧
    (∃ (s : State),
     (s.chip.clocked = true) ∧
     let c := s.chip
     (c.grd.boot = false) ∧
     ((∀ x ∈ c.blocks, x.2.handling = false ∨ x.2.errOut = false)) ∧
     (c.grd.errOutPin = true)) ∧
    (∃ (s : State),
     (s.chip.clocked = true) ∧
     let c := s.chip
     (c.sec.boot ≠ .rom)) ∧
    (∃ (s : State) (r : Rec),
     (s.chip.clocked = true) ∧
     let c := s.chip
     let b := c.blk r
     (b.resetting = true)) :=
  ⟨⟨bk 83 {watch := [5, 0, 3], handling := true, cause := 0x29}, 83, 5, by decide +kernel⟩,
   ⟨g1 (fun c => {c with par := {role := .alone, fails := 255}, grd := {boot := false, errOutPin := false}}), 83, by decide +kernel⟩,
   ⟨g1 (fun c => {c with par := {role := .alone, fails := 255}, grd := {boot := false, errOutPin := false}}), by decide +kernel⟩,
   ⟨bk 83 {watch := [5, 0, 3], handling := true, cause := 0x29}, by decide +kernel⟩,
   ⟨g1 (fun c => {c with par := {role := .alone, fails := 255}, grd := {boot := false, errOutPin := false}}), .firmware, by decide +kernel⟩,
   ⟨g1 (fun c => {c with grd := {boot := false, errOutPin := true}, sec := {c.sec with boot := .stage2}}), by decide +kernel⟩,
   ⟨g1 (fun c => {c with grd := {boot := false, errOutPin := true}, sec := {c.sec with boot := .stage2}}), by decide +kernel⟩,
   ⟨bk 30 {resetting := true, cause := 5, first := 1, place := 77, handling := true, errOut := true}, 30, by decide +kernel⟩⟩

/-- Each clause of Ageing (obligation Ageing): a machine and operands that meet its hypotheses. -/
theorem test_meets_Ageing :
    (∃ (s : State) (ps : BitVec 10),
     (s.chip.clocked = true) ∧
     (ps.toNat < 25)) ∧
    (∃ (s : State) (ps : BitVec 10),
     (s.chip.clocked = true) ∧
     (25 ≤ ps.toNat)) ∧
    (∃ (s : State) (tj : Int),
     (s.chip.clocked = true) ∧
     let c := s.chip
     let g := c.age
     (105 < tj) ∧
     ((g.seconds + 1) % 86400 ≠ 0)) ∧
    (∃ (s : State),
     (s.chip.clocked = true)) ∧
    (∃ (s : State) (w : Who),
     (s.chip.clocked = true) ∧
     let c := s.chip
     (Who.mayWrite w c = true)) ∧
    (∃ (s : State),
     (s.chip.clocked = true) ∧
     ∃ a b : Int,
     (-40 ≤ a) ∧
     (a < b) ∧
     (b ≤ 125)) :=
  ⟨⟨g1, 10, by decide +kernel⟩,
   ⟨g1, 30, by decide +kernel⟩,
   ⟨g1, 110, by decide +kernel⟩,
   ⟨g1, by decide +kernel⟩,
   ⟨g1, .firmware, by decide +kernel⟩,
   ⟨g1, by decide +kernel, -40, 125, by decide +kernel⟩⟩

/-- Each clause of HoldUpTest (obligation GuardAndHoldUp): a machine and operands that meet its hypotheses. -/
theorem test_meets_HoldUpTest :
    (∃ (s : State) (w : Who),
     (s.chip.clocked = true) ∧
     let c := s.chip
     (Who.mayWrite w c = true)) ∧
    (∃ (s : State),
     (s.chip.clocked = true) ∧
     let c := s.chip
     (c.age.hupNow = true) ∧
     (c.vault.pwrFail = false) ∧
     (c.age.hupRunning = none)) ∧
    (∃ (s : State) (v0 : BitVec 16),
     (s.chip.clocked = true) ∧
     let c := s.chip
     (c.age.hupRunning = some v0.toNat)) ∧
    (∃ (s : State) (v0 : BitVec 16) (e : Nat),
     (s.chip.clocked = true) ∧
     let c := s.chip
     ∃ v1 : BitVec 16,
     (c.age.hupRunning = some v0.toNat) ∧
     (hupEnergy v0.toNat v1.toNat (8 * c.eff 90 0x104 19) (c.eff 90 0x104 0) (c.eff 90 0x104 12) = some e) ∧
     (c.age.eFirst = false) ∧
     (c.age.ePrevAbove = none) ∧
     (c.age.eAcc < e)) ∧
    (∃ (s : State) (g : Age),
     (s.chip.clocked = true) ∧
     (g.eFirst = true)) ∧
    (∃ (s : State) (g : Age) (e : Nat),
     (s.chip.clocked = true) ∧
     (g.eFirst = false) ∧
     (e < g.eAcc)) ∧
    (∃ (s : State) (g : Age) (e : Nat),
     (s.chip.clocked = true) ∧
     (g.eFirst = false) ∧
     (g.ePrevAbove = none) ∧
     (g.eAcc < e)) ∧
    (∃ (s : State) (g : Age) (e f : Nat),
     (s.chip.clocked = true) ∧
     (g.eFirst = false) ∧
     (g.ePrevAbove = none) ∧
     (g.eAcc < e) ∧
     (g.eAcc < f)) :=
  ⟨⟨g1, .fn 64, by decide +kernel⟩,
   ⟨g1 (fun c => {c with age := {hupNow := true}}), by decide +kernel⟩,
   ⟨hb1 {hupRunning := some 3000, hupAt := some 5, eFirst := false, eAcc := 1}, 3000, by decide +kernel⟩,
   ⟨hb1 {hupRunning := some 3000, hupAt := some 5, eFirst := false, eAcc := 1}, 3000, (hupEnergy 3000 255 800 1 50).getD 0, by decide +kernel, 255, by decide +kernel⟩,
   ⟨g1, {}, by decide +kernel⟩,
   ⟨hb1 {hupRunning := some 3000, hupAt := some 5, eFirst := false, eAcc := 1}, {eFirst := false, eAcc := 1000}, 900, by decide +kernel⟩,
   ⟨g1 (fun c => {c with age := {hupNow := true}}), {eFirst := false, eAcc := 700}, 900, by decide +kernel⟩,
   ⟨g1 (fun c => {c with age := {hupNow := true}}), {eFirst := false, eAcc := 700}, 900, 800, by decide +kernel⟩⟩

/-- Each clause of SnapshotsAndAudit (obligation SnapshotsAndRecorder): a machine and operands that meet its hypotheses. -/
theorem test_meets_SnapshotsAndAudit :
    (∃ (s : State),
     (s.chip.clocked = true) ∧
     let c := s.chip
     (c.eff 91 0x100 20 = 1)) ∧
    (∃ (s : State),
     (s.chip.clocked = true) ∧
     let c := s.chip
     (c.eff 91 0x100 20 ≠ 1)) ∧
    (∃ (s : State) (w : Who),
     (s.chip.clocked = true) ∧
     let c := s.chip
     (Who.mayWrite w c = true)) ∧
    (∃ (s : State),
     (s.chip.clocked = true) ∧
     let c := s.chip
     (c.eff 91 0x100 0 ≠ 0)) ∧
    (∃ (s : State),
     (s.chip.clocked = true) ∧
     let c := s.chip
     (c.snp.requests = [])) ∧
    (∃ (s : State),
     (s.chip.clocked = true) ∧
     let c := s.chip
     (c.snp.requests ≠ []) ∧
     (c.snp.last = none)) ∧
    (∃ (s : State),
     (s.chip.clocked = true) ∧
     let c := s.chip
     (c.snp.outHigh = true)) ∧
    (∃ (s : State),
     (s.chip.clocked = true) ∧
     let c := s.chip
     (c.snp.sinceAudit = true) ∧
     ((∀ p < 8, let l := (c.pool p).snap
             l.1 = l.2.1 + (l.2.2.1 + l.2.2.2) ∧ (if p = 5 then l.2.2.1 else l.2.2.1 + l.2.2.2) ≤ c.capacity p))) :=
  ⟨⟨po (setE 91 [(8*0x100+20,1),(8*0x100,3)]), by decide +kernel⟩,
   ⟨po, by decide +kernel⟩,
   ⟨po (setE 91 [(8*0x100+20,1),(8*0x100,3)]), .firmware, by decide +kernel⟩,
   ⟨po (setE 91 [(8*0x100+20,1),(8*0x100,3)]), by decide +kernel⟩,
   ⟨po (setE 91 [(8*0x100+20,1),(8*0x100,3)]), by decide +kernel⟩,
   ⟨po (fun c => {c with snp := {requests := [(2,0)], seq := 0xFFFFFFFF, sinceAudit := false}}), by decide +kernel⟩,
   ⟨po (fun c => {c with snp := {outHigh := true, last := some 2, sinceAudit := true}}), by decide +kernel⟩,
   ⟨po (fun c => {c with snp := {outHigh := true, last := some 2, sinceAudit := true}}), by decide +kernel⟩⟩

/-- Each clause of RecorderControls (obligation SnapshotsAndRecorder): a machine and operands that meet its hypotheses. -/
theorem test_meets_RecorderControls :
    (∃ (s : State) (w : Who),
     (s.chip.clocked = true) ∧
     (Who.mayWrite w s.chip = true)) ∧
    (∃ (s : State) (w : Who),
     (s.chip.clocked = true) ∧
     (Who.mayWrite w s.chip = true) ∧
     let c := s.chip
     (c.evr.frozen = true)) ∧
    (∃ (s : State) (w : Who),
     (s.chip.clocked = true) ∧
     (Who.mayWrite w s.chip = true) ∧
     let c := s.chip
     (c.evr.frozen = true)) ∧
    (∃ (s : State) (w : Who),
     (s.chip.clocked = true) ∧
     (Who.mayWrite w s.chip = true) ∧
     let c := s.chip
     (c.evr.frozen = false)) ∧
    (∃ (s : State) (w : Who),
     (s.chip.clocked = true) ∧
     (Who.mayWrite w s.chip = true) ∧
     let c := s.chip
     (bitAt (c.eff 92 0x100 1) 7 = false)) ∧
    (∃ (s : State) (w : Who),
     (s.chip.clocked = true) ∧
     (Who.mayWrite w s.chip = true) ∧
     let c := s.chip
     (bitAt (c.eff 92 0x100 1) 7 = true) ∧
     (c.evr.frozen = false) ∧
     (c.evr.wrapped = false) ∧
     (c.evr.post = none) ∧
     (c.evr.next < 65535)) :=
  ⟨⟨ev {} (setE 92 [(8*0x100+1,127)]), .firmware, by decide +kernel⟩,
   ⟨ev {frozen := true}, .fn 0, by decide +kernel⟩,
   ⟨ev {frozen := true}, .fn 0, by decide +kernel⟩,
   ⟨ev {} (setE 92 [(8*0x100+1,127)]), .firmware, by decide +kernel⟩,
   ⟨ev {} (setE 92 [(8*0x100+1,127)]), .firmware, by decide +kernel⟩,
   ⟨ev {mark := 0x123456789ABCDEF}, .firmware, by decide +kernel⟩⟩

end Sys2Proof.Tests.W14
end

