-- ==== Sys2Proof/Tests/Witness15.lean ====
section
/-! SUPPORT. Machines and operands that meet the hypotheses of the statements, clause by clause. -/

namespace Sys2Proof.Tests.W15a
open Sys2Proof.Machine
set_option maxRecDepth 100000
set_option Elab.async false

def g1 (h : Chip → Chip := id) : State := mk (h { cT 1000000 with par := act, pools := [(3, { held := 9, granted := 9 })] })

def pt (p : Nat) (x : CflPort) (h : Chip → Chip := id) : State := g1 fun c => h (setE 85 [(8*0x100,3)] { c with cfl := { c.cfl with flash := (List.range 400).map fun a => (a, BitVec.ofNat 8 (a % 255)), ports := [(p, x)], xo := [(1, {base := 4, size := 1, en := true})] } })

/-- Each clause of FlashSequence (obligation CodeFlash): a machine and operands that meet its hypotheses. -/
theorem test_meets_FlashSequence :
    (∃ (s : State) (w : Who) (p : Bool) (v : W32),
     (s.chip.clocked = true) ∧
     (Who.mayPort w p s.chip = true) ∧
     let c := s.chip
     let x := c.cport p
     (x.seq = .locked) ∧
     (x.reading = false) ∧
     (v = 0x4C58)) ∧
    (∃ (s : State) (w : Who) (p : Bool) (v : W32),
     (s.chip.clocked = true) ∧
     (Who.mayPort w p s.chip = true) ∧
     let c := s.chip
     let x := c.cport p
     (x.seq = .locked) ∧
     (x.reading = false) ∧
     (v ≠ 0x4C58)) ∧
    (∃ (s : State) (w : Who) (p : Bool) (v : W32),
     (s.chip.clocked = true) ∧
     (Who.mayPort w p s.chip = true) ∧
     let c := s.chip
     let x := c.cport p
     (x.seq = .key1) ∧
     (c.tmb.up < x.keyAt + nsUp 1000000) ∧
     (v = 0xB3A7)) ∧
    (∃ (s : State) (w : Who) (p : Bool) (v : W32),
     (s.chip.clocked = true) ∧
     (Who.mayPort w p s.chip = true) ∧
     let c := s.chip
     let x := c.cport p
     (x.seq = .key1) ∧
     (c.tmb.up < x.keyAt + nsUp 1000000) ∧
     (v ≠ 0xB3A7)) ∧
    (∃ (s : State) (w : Who) (p : Bool) (addr : BitVec 26),
     (s.chip.clocked = true) ∧
     (Who.mayPort w p s.chip = true) ∧
     let c := s.chip
     let x := c.cport p
     (x.seq = .locked) ∧
     (addr.toNat % 64 ≠ 0)) ∧
    (∃ (s : State) (w : Who) (p : Bool) (addr : BitVec 26),
     (s.chip.clocked = true) ∧
     (Who.mayPort w p s.chip = true) ∧
     let c := s.chip
     let x := c.cport p
     (x.seq = .locked) ∧
     (addr.toNat % 64 = 0) ∧
     (p = true) ∧
     (c.xoAt addr.toNat = true)) ∧
    (∃ (s : State) (w : Who) (p : Bool) (addr : BitVec 26) (n : Nat),
     (s.chip.clocked = true) ∧
     (Who.mayPort w p s.chip = true) ∧
     let c := s.chip
     let x := c.cport p
     (x.seq = .locked) ∧
     (addr.toNat % 64 = 0) ∧
     ((p = false ∨ c.xoAt addr.toNat = false)) ∧
     ((c.bank (bankOf addr.toNat)).prog = none) ∧
     ((c.bank (bankOf addr.toNat)).op = .idle) ∧
     (n ≤ 4) ∧
     (n < c.eff 85 0x100 0)) ∧
    (∃ (s : State) (w : Who) (p : Bool) (addr : BitVec 26),
     (s.chip.clocked = true) ∧
     (Who.mayPort w p s.chip = true) ∧
     let c := s.chip
     let x := c.cport p
     (x.seq = .locked) ∧
     (addr.toNat % 64 = 0) ∧
     ((c.bank (bankOf addr.toNat)).prog = none) ∧
     ((c.bank (bankOf addr.toNat)).op = .erasing) ∧
     ((p = false ∨ c.xoAt addr.toNat = false))) ∧
    (∃ (s : State) (w : Who) (p : Bool),
     (s.chip.clocked = true) ∧
     (Who.mayPort w p s.chip = true) ∧
     let c := s.chip
     let x := c.cport p
     (x.inSequence = true)) :=
  ⟨⟨pt 0 {}, .firmware, false, 0x4C58, by decide +kernel⟩,
   ⟨pt 1 {}, .fn 64, true, 0x4C59, by decide +kernel⟩,
   ⟨pt 1 {seq := .key1, keyAt := 5}, .fn 64, true, 0xB3A7, by decide +kernel⟩,
   ⟨pt 0 {seq := .key1, keyAt := 3}, .firmware, false, 0xB3A8, by decide +kernel⟩,
   ⟨pt 1 {}, .fn 64, true, 63, by decide +kernel⟩,
   ⟨pt 1 {}, .fn 64, true, 0x40040, by decide +kernel⟩,
   ⟨pt 0 {}, .firmware, false, 64, 2, by decide +kernel⟩,
   ⟨pt 0 {} (fun c => {c with cfl := {c.cfl with banks := [(0, {op := .erasing})]}}), .firmware, false, 0x100, by decide +kernel⟩,
   ⟨pt 1 {seq := .key1, keyAt := 5}, .fn 64, true, by decide +kernel⟩⟩

end Sys2Proof.Tests.W15a

namespace Sys2Proof.Tests.W15b
open Sys2Proof.Machine
set_option maxRecDepth 100000
set_option Elab.async false

def g1 (h : Chip → Chip := id) : State := mk (h { cT 1000000 with par := act, pools := [(3, { held := 9, granted := 9 })] })

def pt (p : Nat) (x : CflPort) (h : Chip → Chip := id) : State := g1 fun c => h (setE 85 [(8*0x100,3)] { c with cfl := { c.cfl with flash := (List.range 400).map fun a => (a, BitVec.ofNat 8 (a % 255)), ports := [(p, x)], xo := [(1, {base := 4, size := 1, en := true})] } })

def bk (b : Nat) (x : Bank) (c : Chip) : Chip := { c with cfl := { c.cfl with banks := [(b, x)] } }

def ffs (c : Chip) : Chip := { c with cfl := { c.cfl with flash := (List.range 64).map fun a => (0x4000+a, 0xFF) } }

/-- Each clause of FlashOperations (obligation CodeFlash): a machine and operands that meet its hypotheses. -/
theorem test_meets_FlashOperations :
    (∃ (s : State) (w : Who) (p : Bool),
     (s.chip.clocked = true) ∧
     let c := s.chip
     (Who.mayPort w p c = false)) ∧
    (∃ (s : State) (w : Who) (p : Bool) (i : Fin 16),
     (s.chip.clocked = true) ∧
     let c := s.chip
     let x := c.cport p
     let fresh := c.tmb.up < x.keyAt + nsUp 1000000
     (Who.mayPort w p c = true) ∧
     (x.seq = .data) ∧
     (fresh) ∧
     (x.words = i.val) ∧
     (i.val < 15)) ∧
    (∃ (s : State) (w : Who) (p : Bool) (i : Fin 16),
     (s.chip.clocked = true) ∧
     let c := s.chip
     let x := c.cport p
     let fresh := c.tmb.up < x.keyAt + nsUp 1000000
     (Who.mayPort w p c = true) ∧
     (x.seq = .data) ∧
     (fresh) ∧
     (x.words ≠ i.val)) ∧
    (∃ (s : State) (w : Who) (p : Bool) (addr : BitVec 26),
     (s.chip.clocked = true) ∧
     let c := s.chip
     let x := c.cport p
     let fresh := c.tmb.up < x.keyAt + nsUp 1000000
     (Who.mayPort w p c = true) ∧
     (x.seq = .data) ∧
     (fresh) ∧
     (x.words = 15) ∧
     (c.wpAt x.addr = false) ∧
     ((c.bank (bankOf x.addr)).prog = none) ∧
     ((c.bank (bankOf x.addr)).op = .idle) ∧
     ((∀ y ∈ c.flashBytes x.addr 64, y = 0xFF))) ∧
    (∃ (s : State) (w : Who) (p : Bool) (addr : BitVec 26),
     (s.chip.clocked = true) ∧
     let c := s.chip
     let x := c.cport p
     let fresh := c.tmb.up < x.keyAt + nsUp 1000000
     let a := addr.toNat
     (Who.mayPort w p c = true) ∧
     (x.seq = .armed) ∧
     (fresh) ∧
     (a % 0x10000 = 0) ∧
     (c.wpAt a = false) ∧
     ((c.bank (bankOf a)).op = .idle)) ∧
    (∃ (s : State) (w : Who) (p b : Bool),
     (s.chip.clocked = true) ∧
     let c := s.chip
     let x := c.cport p
     (Who.mayPort w p c = true) ∧
     (x.seq = .locked) ∧
     (x.reading = false) ∧
     (c.bankWith p .erasing = some b) ∧
     ((c.bank b).suspending = none)) ∧
    (∃ (s : State) (w : Who) (p b : Bool),
     (s.chip.clocked = true) ∧
     let c := s.chip
     let x := c.cport p
     (Who.mayPort w p c = true) ∧
     (x.seq = .locked) ∧
     (x.reading = false) ∧
     (c.bankWith p .suspended = some b) ∧
     ((c.bank b).prog = none)) ∧
    (∃ (s : State) (p b : Bool),
     (s.chip.clocked = true) ∧
     let c := s.chip
     ((c.bank b).op = .erasing) ∧
     ((c.bank b).suspending = some p)) ∧
    (∃ (s : State) (p b : Bool),
     (s.chip.clocked = true) ∧
     let c := s.chip
     ∃ u,
     ((c.bank b).prog = some (p, u)) ∧
     ((c.cport false).waiting = none) ∧
     ((c.cport true).waiting = none) ∧
     ((c.bank b).op = .programming)) ∧
    (∃ (s : State) (b : Bool),
     (s.chip.clocked = true) ∧
     let c := s.chip
     ((c.bank b).op = .erasing) ∧
     ((c.bank b).suspending = none) ∧
     ((c.cport (c.bank b).port).erasing = some b)) ∧
    (∃ (s : State) (w : Who),
     (s.chip.clocked = true) ∧
     let c := s.chip
     (Who.mayWrite w c = true)) :=
  ⟨⟨pt 0 {}, .fn 64, false, by decide +kernel⟩,
   ⟨pt 0 {seq := .data, keyAt := 5, words := 3, data := [(2, 7)]}, .firmware, false, 3, by decide +kernel⟩,
   ⟨pt 0 {seq := .data, keyAt := 5, words := 3}, .firmware, false, 4, by decide +kernel⟩,
   ⟨pt 0 {seq := .data, keyAt := 5, words := 15, addr := 0x4000} ffs, .firmware, false, 0x10000, by decide +kernel⟩,
   ⟨pt 0 {seq := .armed, keyAt := 5}, .firmware, false, 0x10000, by decide +kernel⟩,
   ⟨pt 0 {} (bk 0 {op := .erasing}), .firmware, false, false, by decide +kernel⟩,
   ⟨pt 0 {} (bk 0 {op := .suspended}), .firmware, false, false, by decide +kernel⟩,
   ⟨pt 0 {seq := .running} (bk 0 {op := .erasing, suspending := some false}), false, false, by decide +kernel⟩,
   ⟨pt 0 {seq := .running} (fun c => bk 0 {op := .programming, prog := some (false, 0x4000), image := List.replicate 64 9} c), false, false, by decide +kernel, _, rfl, by decide +kernel⟩,
   ⟨pt 0 {seq := .running, erasing := some false} (fun c => bk 0 {op := .erasing, sector := 1} c), false, by decide +kernel⟩,
   ⟨pt 0 {}, .fn 64, by decide +kernel⟩⟩

end Sys2Proof.Tests.W15b

namespace Sys2Proof.Tests.W15c
open Sys2Proof.Machine
set_option maxRecDepth 100000
set_option Elab.async false

def g1 (h : Chip → Chip := id) : State := mk (h { cT 1000000 with par := act, pools := [(3, { held := 9, granted := 9 })] })

def pt (p : Nat) (x : CflPort) (h : Chip → Chip := id) : State := g1 fun c => h (setE 85 [(8*0x100,3)] { c with cfl := { c.cfl with flash := (List.range 400).map fun a => (a, BitVec.ofNat 8 (a % 255)), ports := [(p, x)], xo := [(1, {base := 4, size := 1, en := true})] } })

def fl (h : Chip → Chip := id) : State := g1 h

def se (x : Sec → Sec) : State := g1 fun c => { c with sec := x { c.sec with boot := .stage2, fwVersion := 20, fwRows := [3,5] } }

def hdr (seq : Nat) (b : Nat) : Mem := []

/-- Each clause of FloorsAndMeasurements (obligation SecureBoot): a machine and operands that meet its hypotheses. -/
theorem test_meets_FloorsAndMeasurements_15c :
    (∃ (s : State) (w : Who) (v : W32),
     (s.chip.clocked = true) ∧
     (Who.mayWrite w s.chip = true) ∧
     let c := s.chip
     let ver := v.toNat % 2 ^ 16
     (v.toNat / 2 ^ 16 % 8 = 0) ∧
     (ver ≤ c.fwFloor)) ∧
    (∃ (s : State) (w : Who) (v : W32),
     (s.chip.clocked = true) ∧
     (Who.mayWrite w s.chip = true) ∧
     let c := s.chip
     let ver := v.toNat % 2 ^ 16
     (v.toNat / 2 ^ 16 % 8 = 0) ∧
     (c.fwFloor < ver) ∧
     (32 ≤ c.sec.fwRows.length)) ∧
    (∃ (s : State) (w : Who) (v : W32),
     (s.chip.clocked = true) ∧
     (Who.mayWrite w s.chip = true) ∧
     let c := s.chip
     let ver := v.toNat % 2 ^ 16
     (v.toNat / 2 ^ 16 % 8 = 0) ∧
     (c.fwFloor < ver) ∧
     (c.sec.fwRows.length < 32) ∧
     (c.sec.fwVersion < ver)) ∧
    (∃ (s : State) (w : Who) (v : W32),
     (s.chip.clocked = true) ∧
     (Who.mayWrite w s.chip = true) ∧
     let c := s.chip
     let ver := v.toNat % 2 ^ 16
     (v.toNat / 2 ^ 16 % 8 = 0) ∧
     (c.fwFloor < ver) ∧
     (c.sec.fwRows.length < 32) ∧
     (ver ≤ c.sec.fwVersion)) ∧
    (∃ (s : State) (w : Who) (v : W32),
     (s.chip.clocked = true) ∧
     (Who.mayWrite w s.chip = true) ∧
     (4 < v.toNat / 2 ^ 16 % 8)) ∧
    (∃ (s : State) (w : Who),
     (s.chip.clocked = true) ∧
     (Who.mayWrite w s.chip = true)) :=
  ⟨⟨se id, .firmware, 5, by decide +kernel⟩,
   ⟨se (fun x => {x with fwRows := List.replicate 32 3}), .fn 64, 9, by decide +kernel⟩,
   ⟨se id, .fn 64, 21, by decide +kernel⟩,
   ⟨se id, .fn 64, 20, by decide +kernel⟩,
   ⟨se id, .fn 64, 0x50007, by decide +kernel⟩,
   ⟨se id, .firmware, by decide +kernel⟩⟩

end Sys2Proof.Tests.W15c

namespace Sys2Proof.Tests.W15d
open Sys2Proof.Machine
set_option maxRecDepth 100000
set_option Elab.async false

def g1 (h : Chip → Chip := id) : State := mk (h { cT 1000000 with par := act, pools := [(3, { held := 9, granted := 9 })] })

def pt (p : Nat) (x : CflPort) (h : Chip → Chip := id) : State := g1 fun c => h (setE 85 [(8*0x100,3)] { c with cfl := { c.cfl with flash := (List.range 400).map fun a => (a, BitVec.ofNat 8 (a % 255)), ports := [(p, x)], xo := [(1, {base := 4, size := 1, en := true})] } })

def fw : List Byte := leBytes 4096 0x9186dc6be18dd5d0c04ffaecabd14bcd2ccd898487bd55cddb6143a0096b4008a2b7cbd82b94cc5a0d42f4793e88f1be6eeef2f9f5ad8d433028a67f9dc6544a00000000000000000000000000000000000000000000000000000000000000000000000000000000000000000000000000000000000000000000000000000000000000000000000000000000000000000000000000000000000000000000000000000000000000000000000000000000000000000000000000000000000000000000000000000000000000000000000000000000000000000000000000000000000000000000000000000000000000000000000000000000000000000000000000000000000000000000000000000000000000000000000000000000000000000000000000000000000000000000000000000000000000000000000000000000000000000000000000000000000000000000000000000000000000000000000000000000000000000000000000000000000000000000000000000000000000000000000000000000000000000000000000000000000000000000000000000000000000000000000000000000000000000000000000000000000000000000000000000000000000000000000000000000000000000000000000000000000000000000000000000000000000000000000000000000000000000000000000000000000000000000000000000000000000000000000000000000000000000000000000000000000000000000000000000000000000000000000000000000000000000000000000000000000000000000000000000000000000000000000000000000000000000000000000000000000000000000000000000000000000000000000000000000000000000000000000000000000000000000000000000000000000000000000000000000000000000000000000000000000000000000000000000000000000000000000000000000000000000000000000000000000000000000000000000000000000000000000000000000000000000000000000000000000000000000000000000000000000000000000000000000000000000000000000000000000000000000000000000000000000000000000000000000000000000000000000000000000000000000000000000000000000000000000000000000000000000000000000000000000000000000000000000000000000000000000000000000000000000000000000000000000000000000000000000000000000000000000000000000000000000000000000000000000000000000000000000000000000000000000000000000000000000000000000000000000000000000000000000000000000000000000000000000000000000000000000000000000000000000000000000000000000000000000000000000000000000000000000000000000000000000000000000000000000000000000000000000000000000000000000000000000000000000000000000000000000000000000000000000000000000000000000000000000000000000000000000000000000000000000000000000000000000000000000000000000000000000000000000000000000000000000000000000000000000000000000000000000000000000000000000000000000000000000000000000000000000000000000000000000000000000000000000000000000000000000000000000000000000000000000000000000000000000000000000000000000000000000000000000000000000000000000000000000000000000000000000000000000000000000000000000000000000000000000000000000000000000000000000000000000000000000000000000000000000000000000000000000000000000000000000000000000000000000000000000000000000000000000000000000000000000000000000000000000000000000000000000000000000000000000000000000000000000000000000000000000000000000000000000000000000000000000000000000000000000000000000000000000000000000000000000000000000000000000000000000000000000000000000000000000000000000000000000000000000000000000000000000000000000000000000000000000000000000000000000000000000000000000000000000000000000000000000000000000000000000000000000000000000000000000000000000000000000000000000000000000000000000000000000000000000000000000000000000000000000000000000000000000000000000000000000000000000000000000000000000000000000000000000000000000000000000000000000000000000000000000000000000000000000000000000000000000000000000000000000000000000000000000000000000000000000000000000000000000000000000000000000000000000000000000000000000000000000000000000000000000000000000000000000000000000000000000000000000000000000000000000000000000000000000000000000000000000000000000000000000000000000000000000000000000000000000000000000000000000000000000000000000000000000000000000000000000000000000000000000000000000000000000000000000000000000000000000000000000000000000000000000000000000000000000000000000000000000000000000000000000000000000000000000000000000000000000000000000000000000000000000000000000000000000000000000000000000000000000000000000000000000000000000000000000000000000000000000000000000000000000000000000000000000000000000000000000000000000000000000000000000000000000000000000000000000000000000000000000000000000000000000000000000000000000000000000000000000000000000000000000000000000000000000000000000000000000000000000000000000000000000000000000000000000000000000000000000000000000000000000000000000000000000000000000000000000000000000000000000000000000000000000000000000000000000000000000000000000000000000000000000000000000000000000000000000000000000000000000000000000000000000000000000000000000000000000000000000000000000000000000000000000000000000000000000000000000000000000000000000000000000000000000000000000000000000000000000000000000000000000000000000000000000000000000000000000000000000000000000000000000000000000000000000000000000000000000000000000000000000000000000000000000000000000000000000000000000000000000000000000000000000000000000000000000000000000000000000000000000000000000000000000000000000000000000000000000000000000000000000000000000000000000000000000000000000000000000000000000000000000000000000000000000000000000000000000000000000000000000000000000000000000000000000000000000000000000000000000000000000000000000000000000000000000000000000000000000000000000000000000000000000000000000000000000000000000000000000000000000000000000000000000000000000000000000000000000000000000000000000000000000000000000000000000000000000000000000000000000000000000000000000000000000000000000000000000000000000000000000000000000000000000000000000000000000000000000000000000000000000000000000000000000000000000000000000000000000000000000000000000000000000000000000000000000000000000000000000000000000000000000000000000000000000000000000000000000000000000000000000000000000000000000000000000000000000000000000000000000000000000000000000000000000000000000000000000000000000000000000000000000000000000000000000000000000000000000000000000000000000000000000000000000000000000000000000000000000000000000000000000000000000000000000000000000000000000000000000000000000000000000000000000000000000000000000000000000000000000000000000000000000000000000000000000000000000000000000000000000000000000000000000000000000000000000000000000000000000000000000000000000000000000000000000000000000000000000000000000000000000000000000000000000000000000000000000000000000000000000000000000000000000000000000000000000000000000000000000000000000000000000000000000000000000000000000000000000000000000000000000000000000000000000000000000000000000000000000000000000000000000000000000000000000000000000000000000000000000000000000000000000000000000000000000000000000000000000000000000000000000000000000000000000000000000000000000000000000000000000000000000000000000000000000000000000000000000000000000000000000000000000000000000000000000000000000000000000000000000000000000000000000000000000000000000000000000000000000000000000000000000000000000000000000000000000000000000000000000000000000000000000000000000000000000000000000000000000000000000000000000000000000000000000000000000000000000000000000000000000000000000000000000000000000000000000000000000000000000000000000000000000000000000000000000000000000000000000000000000000000000000000000000000000000000000000000000000000000000000000000000000000000000000000000000000000000000000000000000000000000000000000000000000000000000000000000000000000000000000000000000000000000000000000000000000000000000000000000000000000000000000000000000000000000000000000000000000000000000000000000000000000000000000000000000000000000000000000000000000000000000000000000000000000000000000000000000000000000000000000000000000000000000000000000000000000000000000000000000000000000000000000000000000000002baa8250eb35d07e74fbfe28c7c8be228f1ae8314819618e7fa1cf55831db21a2baa8250eb35d07e74fbfe28c7c8be228f1ae8314819618e7fa1cf55831db21a2baa8250eb35d07e74fbfe28c7c8be228f1ae8314819618e7fa1cf55831db21a00000000000000000000000000000000e6f6587403ddacaa925204cde50e407c0f15728ac0cec5ccf58e688cd85d0b53bf9e50d0f11869e244223045d96b3fa14ce241db8caa2dbeb493c9b3d47c7fa900000000000000010014000148425a56

def fws : State := g1 fun c => { c with sec := { c.sec with rootKey := sm3 ((fw.drop 16).take 64) }, cfl := { c.cfl with flash := listAt 0 (fw ++ List.replicate 64 0) ++ [(0x2000000, 0), (0x2000001, 0), (0x2000002, 0), (0x2000003, 0)] } }

def pubB : List Byte := (fw.drop 16).take 64

def zB : List Byte := [150, 146, 51, 60, 131, 248, 221, 49, 120, 175, 71, 166, 138, 119, 32, 40, 26, 234, 11, 51, 249, 179, 200, 2, 63, 44,  189, 8, 170, 47, 127, 17]

theorem z_eq : sm3 (beBytes 2 (8 * (ascii "VZ-FIRMWARE").length) ++ ascii "VZ-FIRMWARE" ++ beBytes 32 sm2A ++ beBytes 32 sm2B ++ beBytes 32 sm2Gx ++ beBytes 32 sm2Gy ++ pubB) = zB := by
  decide +kernel

def msgB : List Byte := zB ++ fw.take 0xFBC

def padB : List Byte := msgB ++ [0x80] ++ List.replicate 27 0 ++ beBytes 8 (8 * 4060)

def v0 : List Nat := [1937774191, 1226093241, 388252375, 3666478592, 2842636476, 372324522, 3817729613, 2969243214]

def v1 : List Nat := [4243040703, 3588780368, 2033604334, 2331326337, 3897082877, 1569022878, 2336176238, 4228202291]

def v2 : List Nat := [3031766098, 1709718201, 913160928, 2388278008, 4128756965, 4140569166, 691772084, 2929505265]

def v3 : List Nat := [4208007199, 917931562, 2240943137, 3948819514, 2616845821, 69252157, 528427880, 4079079268]

def v4 : List Nat := [1154226136, 4158792926, 3790763373, 2426206432, 2118747785, 3943729431, 3825652589, 3309963672]

def v5 : List Nat := [2805820943, 696443615, 2694793617, 3536959338, 4013505012, 299539501, 2239827331, 3830777835]

def v6 : List Nat := [2245629588, 4182517411, 629660702, 1101905236, 179561052, 3335457577, 1691925391, 821170895]

def v7 : List Nat := [1084534883, 885600195, 3980185474, 829934528, 4208323171, 802918342, 2077892948, 4076231079]

def v8 : List Nat := [1818506311, 731670162, 1171203918, 2648659303, 2297679734, 611670207, 3781207216, 950290864]

theorem blocks_0 : sm3Blocks 8 v0 (padB.drop 0) = v1 := by decide +kernel

theorem blocks_1 : sm3Blocks 8 v1 (padB.drop 512) = v2 := by decide +kernel

theorem blocks_2 : sm3Blocks 8 v2 (padB.drop 1024) = v3 := by decide +kernel

theorem blocks_3 : sm3Blocks 8 v3 (padB.drop 1536) = v4 := by decide +kernel

theorem blocks_4 : sm3Blocks 8 v4 (padB.drop 2048) = v5 := by decide +kernel

theorem blocks_5 : sm3Blocks 8 v5 (padB.drop 2560) = v6 := by decide +kernel

theorem blocks_6 : sm3Blocks 8 v6 (padB.drop 3072) = v7 := by decide +kernel

theorem blocks_7 : sm3Blocks 8 v7 (padB.drop 3584) = v8 := by decide +kernel

theorem rest_7 : sm3Blocks 8 v7 (padB.drop 3584) = v8 := blocks_7

theorem rest_6 : sm3Blocks 16 v6 (padB.drop 3072) = v8 := by
  have h := sm3Blocks_add 8 8 v6 (padB.drop 3072)
  rw [blocks_6, List.drop_drop] at h
  exact h.trans rest_7

theorem rest_5 : sm3Blocks 24 v5 (padB.drop 2560) = v8 := by
  have h := sm3Blocks_add 8 16 v5 (padB.drop 2560)
  rw [blocks_5, List.drop_drop] at h
  exact h.trans rest_6

theorem rest_4 : sm3Blocks 32 v4 (padB.drop 2048) = v8 := by
  have h := sm3Blocks_add 8 24 v4 (padB.drop 2048)
  rw [blocks_4, List.drop_drop] at h
  exact h.trans rest_5

theorem rest_3 : sm3Blocks 40 v3 (padB.drop 1536) = v8 := by
  have h := sm3Blocks_add 8 32 v3 (padB.drop 1536)
  rw [blocks_3, List.drop_drop] at h
  exact h.trans rest_4

theorem rest_2 : sm3Blocks 48 v2 (padB.drop 1024) = v8 := by
  have h := sm3Blocks_add 8 40 v2 (padB.drop 1024)
  rw [blocks_2, List.drop_drop] at h
  exact h.trans rest_3

theorem rest_1 : sm3Blocks 56 v1 (padB.drop 512) = v8 := by
  have h := sm3Blocks_add 8 48 v1 (padB.drop 512)
  rw [blocks_1, List.drop_drop] at h
  exact h.trans rest_2

theorem rest_0 : sm3Blocks 64 v0 (padB.drop 0) = v8 := by
  have h := sm3Blocks_add 8 56 v0 (padB.drop 0)
  rw [blocks_0, List.drop_drop] at h
  exact h.trans rest_1

theorem digest_eq : sm3 msgB = v8.flatMap fun w => beBytes 4 w :=
  (sm3_eq msgB padB 64 (by decide +kernel) (by decide +kernel)).trans (congrArg _ rest_0)

theorem fw_digest : sm2Digest (ascii "VZ-FIRMWARE") pubB (fw.take 0xFBC) = 49026833163029622899622281371102088966826401570959696514028353005550821460400 := by
  unfold sm2Digest
  rw [z_eq]
  exact (congrArg ofBe digest_eq).trans (by decide +kernel)

theorem fw_signed : sm2Verify (ascii "VZ-FIRMWARE") pubB (fw.take 0xFBC) ((fw.drop 0xFBC).take 64) = true := by
  unfold sm2Verify
  rw [fw_digest]
  decide +kernel

theorem fw_length : (fw ++ List.replicate 64 (0 : Byte)).length = 4160 := by decide +kernel

theorem fws_read (o n : Nat) (h : o + n ≤ 4160) : fws.chip.flashBytes o n = ((fw ++ List.replicate 64 0).drop o).take n :=
  mread_listAt _ _ _ n o (by rw [fw_length]; exact h)

theorem read_pub : fws.chip.flashBytes (bankBase false + 0x10) 64 = pubB := (fws_read _ _ (by decide)).trans (by decide +kernel)

theorem read_msg : fws.chip.flashBytes (bankBase false + 0) 0xFBC = fw.take 0xFBC := (fws_read _ _ (by decide)).trans (by decide +kernel)

theorem read_sig : fws.chip.flashBytes (bankBase false + 0xFBC) 64 = (fw.drop 0xFBC).take 64 := (fws_read _ _ (by decide)).trans (by decide +kernel)

theorem read_size : fws.chip.hdr false 0x50 4 = 0 := by
  rw [Chip.hdr, fws_read _ _ (by decide)]; decide +kernel

theorem read_magic : fws.chip.hdr false 0 4 = 0x48425A56 := by
  rw [Chip.hdr, fws_read _ _ (by decide)]; decide +kernel

theorem read_format : fws.chip.hdr false 4 2 = 1 := by
  rw [Chip.hdr, fws_read _ _ (by decide)]; decide +kernel

theorem read_stage : fws.chip.flashBytes (bankBase false + 0x60) 32 = sm3 [] := (fws_read _ _ (by decide)).trans (by decide +kernel)

theorem no_floor : fws.chip.fwFloor = 0 := by decide +kernel

theorem root_eq : fws.chip.sec.rootKey = sm3 pubB := rfl

theorem no_stage : fws.chip.flashBytes (bankBase false + 0x10000) 0 = [] := rfl

theorem fws_valid : fws.chip.bankValid false = true := by
  unfold Chip.bankValid Chip.hdrBytes
  simp only [read_pub, read_msg, read_sig, read_size, read_magic, read_format, read_stage, fw_signed, no_floor, root_eq, no_stage, Nat.zero_le, decide_true, Bool.and_self]

theorem fws_other : fws.chip.bankValid true = false := by
  have t : ∀ k, 4160 ≤ k → tget fws.chip.cfl.flash (flashInit k) k = tget [(0x2000000, 0), (0x2000001, 0), (0x2000002, 0), (0x2000003, 0)] (flashInit k) k :=
    fun k h => tget_beyond _ _ _ 0 k (by rw [fw_length]; omega)
  have z : fws.chip.hdr true 0 4 = 0 := by
    simp only [Chip.hdr, Chip.flashBytes, mread, mget]
    rw [t _ (by decide), t _ (by decide), t _ (by decide), t _ (by decide)]; decide +kernel
  unfold Chip.bankValid
  simp only [z, show ((0 : Nat) = 0x48425A56) = False by simp, decide_false, Bool.false_and]

theorem fws_marked : fws.chip.marked false confirmAt = true := by
  unfold Chip.marked Chip.hdrBytes
  rw [fws_read _ _ (by decide)]; decide +kernel

theorem boots_bank0 {c : Chip} (h : c.bankValid false = true) (h' : c.bankValid true = false) (m : c.marked false confirmAt = true) : c.bootBank = some false := by
  unfold Chip.bootBank Chip.bootable
  rw [h, h', m]; rfl

theorem fws_boots : fws.chip.bootBank = some false := boots_bank0 fws_valid fws_other fws_marked

def s1 (x : Sec → Sec) : State := mk { fws.chip with sec := x fws.chip.sec }

def mkd : State := g1 fun c => { c with sec := { c.sec with boot := .stage2 }, cfl := { c.cfl with flash := listAt 4096 (List.replicate 64 0) } }

/-- Each clause of FloorsAndMeasurements (obligation SecureBoot): a machine and operands that meet its hypotheses. -/
theorem test_meets_FloorsAndMeasurements_15d :
    (∃ (s : State) (w : Who),
     (s.chip.clocked = true) ∧
     (Who.mayWrite w s.chip = true) ∧
     let c := s.chip
     (c.sec.boot = .stage2) ∧
     (c.marked c.sec.bank confirmAt = false)) ∧
    (∃ (s : State) (w : Who),
     (s.chip.clocked = true) ∧
     (Who.mayWrite w s.chip = true) ∧
     let c := s.chip
     (c.sec.boot = .stage2) ∧
     (c.marked c.sec.bank confirmAt = true)) :=
  ⟨⟨mk {mkd.chip with cfl := {mkd.chip.cfl with flash := (List.range 64).map fun i => (4096 + i, 0xFF)}}, .firmware, by decide +kernel⟩,
   ⟨mkd, .fn 64, by decide +kernel⟩⟩

/-- Each clause of BootAndAttest (obligation SecureBoot): a machine and operands that meet its hypotheses. -/
theorem test_meets_BootAndAttest :
    (∃ (s : State) (b : Bool),
     (s.chip.clocked = true) ∧
     let c := s.chip
     (c.sec.boot = .rom) ∧
     (c.bootBank = some b) ∧
     (c.marked b confirmAt = true)) ∧
    (∃ (s : State),
     (s.chip.clocked = true) ∧
     let c := s.chip
     (c.sec.boot ≠ .rom)) ∧
    (∃ (s : State),
     (s.chip.clocked = true)) ∧
    (∃ (s : State),
     (s.chip.clocked = true) ∧
     let c := s.chip
     (c.sec.boot ≠ .stage1)) ∧
    (∃ (s : State),
     (s.chip.clocked = true) ∧
     let c := s.chip
     (c.sec.boot = .stage1) ∧
     (sm3 (c.flashBytes (bankBase c.sec.bank + 0x100000) (c.hdr c.sec.bank 0x54 4)) = c.hdrBytes c.sec.bank 0x80 32) ∧
     (sm3 (c.flashBytes (bankBase c.sec.bank + 0x1000000) (c.hdr c.sec.bank 0x58 4)) = c.hdrBytes c.sec.bank 0xA0 32) ∧
     (c.aon.kind ≠ 2)) ∧
    (∃ (s : State) (w : Who),
     (s.chip.clocked = true) ∧
     let c := s.chip
     (Who.mayWrite w c = true)) ∧
    (∃ (s : State),
     (s.chip.clocked = true) ∧
     let c := s.chip
     (c.sec.attBusy = true)) :=
  ⟨⟨fws, false, by decide +kernel, by decide +kernel, fws_boots, fws_marked⟩,
   ⟨s1 fun x => {x with boot := .stage1}, by decide +kernel⟩,
   ⟨fws, by decide +kernel⟩,
   ⟨fws, by decide +kernel⟩,
   ⟨s1 fun x => {x with boot := .stage1}, by decide +kernel⟩,
   ⟨fws, .firmware, by decide +kernel⟩,
   ⟨s1 fun x => {x with boot := .stage2, attBusy := true}, by decide +kernel⟩⟩

end Sys2Proof.Tests.W15d
end

