-- ==== Sys2Proof/Tests/Witness16.lean ====
section
/-! SUPPORT. Machines and operands that meet the hypotheses of the statements, clause by clause. -/

namespace Sys2Proof.Tests.W16
open Sys2Proof.Machine
set_option maxRecDepth 100000
set_option Elab.async false

def g1 (h : Chip → Chip := id) : State := mk (h { cT 1000000 with par := {role := .standby, unit := true}, pools := [(3, { held := 9, granted := 9 })] })

def pw (p : Pwr → Pwr) (h : Chip → Chip := id) : State := g1 fun c => h { c with pwr := p c.pwr }

def am (x : Comparator) (h : Chip → Chip := id) : State := g1 fun c => h {c with aon := {cmps := [(3,x)]}}

def rs (h : Chip → Chip := id) : State := g1 fun c => h {c with sec := {c.sec with fwRows := [3], keyRows := [(1,[4])], keys := [(1,[5])]}, members := [(5,{media := [(3,4)], state := .ready})], hbm := [(5,6)], engines := [(3,x0)], vault := {slot0 := some { seq := 4, clean := false, unit := false, planQ := 8, pages := 100, arrays := [], startNs := 0 }, armed := true}}

def fs (p : Pwr → Pwr) (h : Chip → Chip := id) : State := pw p fun c => h {c with funcs := [(3,{enable := true}),(64,{enable := true})]}

/-- Each clause of UnitPower (obligation PowerStates): a machine and operands that meet its hypotheses. -/
theorem test_meets_UnitPower :
    (∃ (s : State) (u : Fin 28),
     (s.chip.clocked = true) ∧
     let c := s.chip
     let p := c.pwr
     (p.state = .running) ∧
     (c.isGated u = false) ∧
     (bitAt (c.gateable p.modeEff) u = true) ∧
     (p.switching = false) ∧
     (bitAt c.requested u = false) ∧
     (c.unitIdle u = true)) ∧
    (∃ (s : State) (u : Fin 28),
     (s.chip.clocked = true) ∧
     let c := s.chip
     (bitAt c.requested u = true)) ∧
    (∃ (s : State),
     (s.chip.clocked = true) ∧
     let c := s.chip
     let p := c.pwr
     (c.gateable p.modeEff = 0)) ∧
    (∃ (s : State) (u : Fin 28),
     (s.chip.clocked = true) ∧
     let c := s.chip
     let p := c.pwr
     (c.isGated u = true) ∧
     (bitAt p.waking u = true) ∧
     (p.wakePulse = false)) ∧
    (∃ (s : State) (u : Fin 28),
     (s.chip.clocked = true) ∧
     let c := s.chip
     (c.isGated u = false)) ∧
    (∃ (s : State),
     (s.chip.clocked = true) ∧
     let c := s.chip
     let p := c.pwr
     (p.switching = true) ∧
     (p.gated &&& c.needed c.modeSet = 0)) ∧
    (∃ (s : State),
     (s.chip.clocked = true) ∧
     let c := s.chip
     let p := c.pwr
     (p.switching = false)) ∧
    (∃ (s : State),
     (s.chip.clocked = true)) :=
  ⟨⟨pw (fun p => {p with modeEff := 2}), 3, by decide +kernel⟩,
   ⟨pw (fun p => {p with modeEff := 2}) (fun c => {c with engines := [(3,x0)]}), 3, by decide +kernel⟩,
   ⟨pw (fun p => {p with modeEff := 0}), by decide +kernel⟩,
   ⟨pw (fun p => {p with gated := 0xFFFFFFF, waking := 9}), 3, by decide +kernel⟩,
   ⟨pw (fun p => {p with modeEff := 2}), 3, by decide +kernel⟩,
   ⟨pw (fun p => {p with modeEff := 1, switching := true}), by decide +kernel⟩,
   ⟨pw (fun p => {p with modeEff := 2}), by decide +kernel⟩,
   ⟨pw (fun p => {p with modeEff := 2}), by decide +kernel⟩⟩

/-- Each clause of Siding (obligation PowerStates): a machine and operands that meet its hypotheses. -/
theorem test_meets_Siding :
    (∃ (s : State) (w : Who),
     let c := s.chip
     (c.clocked = true) ∧
     (Who.mayWrite w c = true) ∧
     (c.par.role = .active)) ∧
    (∃ (s : State) (w : Who),
     let c := s.chip
     (c.clocked = true) ∧
     (Who.mayWrite w c = true) ∧
     (c.sidingRefusal = none)) ∧
    (∃ (s : State),
     let c := s.chip
     let p := c.pwr
     (p.state = .entry) ∧
     (c.quiet = true)) ∧
    (∃ (s : State) (x : WakeSrc),
     let c := s.chip
     let p := c.pwr
     (p.state = .siding) ∧
     (p.leaving = false) ∧
     (c.wakeEnabled x = true)) ∧
    (∃ (s : State) (x : WakeSrc),
     let c := s.chip
     (c.wakeEnabled x = false)) ∧
    (∃ (s : State),
     let c := s.chip
     let p := c.pwr
     (p.state = .siding) ∧
     (p.leaving = true)) :=
  ⟨⟨g1 (fun c => {c with par := act}), .firmware, by decide +kernel⟩,
   ⟨g1, .fn 64, by decide +kernel⟩,
   ⟨pw (fun p => {p with state := .entry}) (fun c => {c with hbm := [(5,6)], par := {trained := true}}), by decide +kernel⟩,
   ⟨pw (fun p => {p with state := .siding}) (fun c => {c with aon := {wakeInEn := 4}}), .pin 2, by decide +kernel⟩,
   ⟨pw (fun p => {p with state := .siding}), .pin 2, by decide +kernel⟩,
   ⟨pw (fun p => {p with state := .siding, leaving := true, sidingAt := 77}) (fun c => {c with aon := {copy := 99}}), by decide +kernel⟩⟩

/-- Each clause of AlwaysOn (obligation PowerStates): a machine and operands that meet its hypotheses. -/
theorem test_meets_AlwaysOn :
    (∃ (s : State) (w : Who) (v : W64),
     let c := s.chip
     (c.clocked = true) ∧
     (Who.mayWrite w c = true) ∧
     (bitAt v.toNat 0 = true)) ∧
    (∃ (s : State) (n : Fin 8),
     let c := s.chip
     let x := c.cmp n
     (x.arm = true) ∧
     (c.clocked = true) ∧
     (c.timeValid = true) ∧
     (x.wake = false)) ∧
    (∃ (s : State) (n : Fin 8),
     let c := s.chip
     let x := c.cmp n
     (x.arm = false)) ∧
    (∃ (s : State) (i : Fin 4) (width : Nat),
     let c := s.chip
     (c.pwr.state ≠ .off) ∧
     (1000 ≤ width) ∧
     (bitAt c.aon.wakeInEn i = false)) ∧
    (∃ (width : Nat),
     (width < 1000)) ∧
    (∃ (s : State),
     let c := s.chip
     (c.clocked = true)) ∧
    (∃ (s : State) (p : Port),
     let c := s.chip
     (c.clocked = true) ∧
     ((c.port p).state ≠ .running) ∧
     ((c.port p).calAt = none)) ∧
    (∃ (s : State) (p : Port),
     let c := s.chip
     (c.clocked = true) ∧
     ((c.port p).linkUp = true) ∧
     ((c.port p).calAt = none)) ∧
    (∃ (s : State) (p : Port),
     let c := s.chip
     (c.clocked = true) ∧
     ((c.port p).linkUp = false)) :=
  ⟨⟨am {}, .fn 64, 0x500070003, by decide +kernel⟩,
   ⟨am {arm := true, target := 1000007, period := 3, groups := 5}, 3, by decide +kernel⟩,
   ⟨am {}, 3, by decide +kernel⟩,
   ⟨am {}, 2, 1000, by decide +kernel⟩,
   ⟨10, by decide +kernel⟩,
   ⟨am {}, by decide +kernel⟩,
   ⟨am {}, 1, by decide +kernel⟩,
   ⟨am {} (fun c => {c with ports := [(1,{linkUp := true})]}), 1, by decide +kernel⟩,
   ⟨am {}, 1, by decide +kernel⟩⟩

/-- Each clause of Resets (obligation ResetsAndStart): a machine and operands that meet its hypotheses. -/
theorem test_meets_Resets :
    (∃ (s : State) (w : Who),
     let c := s.chip
     (c.clocked = true) ∧
     (Who.mayWrite w c = true)) ∧
    (∃ (s : State),
     let c := s.chip
     (c.clocked = true)) ∧
    (∃ (s : State),
     let c := s.chip
     (c.pwr.state = .off)) ∧
    (∃ (s : State),
     let c := s.chip
     (c.pwr.state ≠ .off)) ∧
    (∃ (s : State),
     let c := s.chip
     (c.pwr.state = .off)) :=
  ⟨⟨rs, .firmware, by decide +kernel⟩,
   ⟨rs, by decide +kernel⟩,
   ⟨rs (fun c => {c with pwr := {state := .off}}), by decide +kernel⟩,
   ⟨rs, by decide +kernel⟩,
   ⟨rs (fun c => {c with pwr := {state := .off}}), by decide +kernel⟩⟩

/-- Each clause of FirstSecond (obligation ResetsAndStart): a machine and operands that meet its hypotheses. -/
theorem test_meets_FirstSecond :
    (∃ (s : State),
     let c := s.chip
     let p := c.pwr
     (p.state ≠ .off)) ∧
    (∃ (s : State) (port : Bool),
     let c := s.chip
     let p := c.pwr
     (bitAt p.perst (b2n port) = true)) ∧
    (∃ (s : State) (port : Bool),
     let c := s.chip
     let p := c.pwr
     (bitAt p.perst (b2n port) = false)) ∧
    (∃ (s : State) (g : Fin 12),
     let c := s.chip
     let p := c.pwr
     (c.clocked = true) ∧
     (g.val ∉ p.groupsTrained)) ∧
    (∃ (s : State) (g : Fin 12),
     let c := s.chip
     let p := c.pwr
     (c.clocked = true) ∧
     (g.val ∈ p.groupsTrained)) ∧
    (∃ (s : State),
     let c := s.chip
     (c.clocked = true)) ∧
    (∃ (s : State),
     let c := s.chip
     (c.clocked = true) ∧
     ((c.pool 3).held = 0)) :=
  ⟨⟨fs (fun p => {p with perst := 0}), by decide +kernel⟩,
   ⟨fs (fun p => {p with perst := 2, groupsTrained := [3]}), true, by decide +kernel⟩,
   ⟨fs (fun p => {p with perst := 0}), true, by decide +kernel⟩,
   ⟨fs (fun p => {p with perst := 0}), 3, by decide +kernel⟩,
   ⟨fs (fun p => {p with perst := 2, groupsTrained := [3]}), 3, by decide +kernel⟩,
   ⟨fs (fun p => {p with perst := 0}), by decide +kernel⟩,
   ⟨fs (fun p => {p with perst := 0}) (fun c => {c with pools := []}), by decide +kernel⟩⟩

end Sys2Proof.Tests.W16
end

section
/-! Settles O29 (`Obligations.Commits`): one equation for each case of the operations behind GO, DISCARD, CLAMP_LOG and COMMIT_CHECKS_DONE, then the
obligation from them. -/

namespace Sys2Proof.Machine

/-- A register write that reaches the register space while the clocks run has its operation's effect (R57). -/
theorem onWrite_reached {w : Who} {s : State} (h : Chip → Chip) (clocked : s.chip.clocked = true) (reach : Who.mayWrite w s.chip = true) :
    onWrite w h s = .next (s.put (h s.chip)) := by
  rcases onWrite_cases w h s with ⟨-, -, e⟩ | ⟨hno, -⟩
  · exact e
  · simp [clocked, reach] at hno

/-! ## GO, DISCARD and CLAMP_LOG -/

section
variable {c : Chip} {r : Rec}

/-- GO takes the shadow, with the verdict on its key against the SHADOW_GEN it met (R73). -/
theorem goOp_idle (hr : r ≠ 0) (free : (c.blk r).taken = none) (unheld : (c.blk r).groupHeld = false) (useKey : Bool) (key : BitVec 16) :
    goOp r useKey key c =
      c.setBlk r { c.blk r with taken := some ⟨(c.blk r).shadow, !useKey || decide (key.toNat = (c.blk r).gen)⟩ } := by
  simp [goOp, hr, Chip.modBlk, free, unheld, beq_eq_decide]

/-- A GO while the checks run, or while a group holds the block, is dropped (R75, R97). -/
theorem goOp_busy (hr : r ≠ 0) (busy : (c.blk r).taken.isSome = true ∨ (c.blk r).groupHeld = true) (useKey : Bool) (key : BitVec 16) :
    goOp r useKey key c = c.setBlk r { c.blk r with goDropped := true } := by
  simp [goOp, hr, Chip.modBlk, busy]

/-- DISCARD reloads the shadow from the accepted set and counts once in SHADOW_GEN (R87). -/
theorem discardOp_idle (hr : r ≠ 0) (free : (c.blk r).taken = none) :
    discardOp r c = c.setBlk r { c.blk r with shadow := (c.blk r).accepted, gen := ((c.blk r).gen + 1) % 2 ^ 16 } := by
  simp [discardOp, hr, Chip.modBlk, free]

/-- CLAMP_LOG is cleared whole (R72). -/
theorem clampLogClearOp_eq (hr : r ≠ 0) : clampLogClearOp r c = c.setBlk r { c.blk r with clamp := {} } := if_neg hr

/-! ## The checks of a GO -/

variable {k : GoTaken}

/-- A GO with a wrong key is refused with reason 2, before any check (R77). -/
theorem commitChecksDoneOp_wrongKey (taken : (c.blk r).taken = some k) (bad : k.keyOk = false) :
    commitChecksDoneOp r c = c.setBlk r ({ c.blk r with taken := none }.refuse { valid := true, reason := 2 }) := by
  simp [commitChecksDoneOp, taken, bad]

/-- A failing check refuses the commit (R79, R80). -/
theorem commitChecksDoneOp_failed {f : CheckFail} (taken : (c.blk r).taken = some k) (good : k.keyOk = true)
    (fails : checks c (c.viewOne r k.set) r = some f) :
    commitChecksDoneOp r c = c.setBlk r ({ c.blk r with taken := none }.refuse (errOf r f)) := by
  simp [commitChecksDoneOp, taken, good, fails]

/-- A commit that passes every check is accepted and staged (R76). -/
theorem commitChecksDoneOp_passed (taken : (c.blk r).taken = some k) (good : k.keyOk = true)
    (passes : checks c (c.viewOne r k.set) r = none) :
    commitChecksDoneOp r c = c.setBlk r ({ c.blk r with taken := none }.accept k.set) := by
  simp [commitChecksDoneOp, taken, good, passes]

/-- On a block that is no port, the checks have no consequence beyond their verdict. -/
theorem commitChecksOp_of_not_trd (kind : kindOf r ≠ .trd) : commitChecksOp r c = commitChecksDoneOp r c := by
  simp [commitChecksOp, kind]

end

/-! ## An accepted set of a port -/

/-- The port after its set was accepted at time `now`: it is armed where it was stopped and the set has RUN 1 (R581). -/
def NetPort.commitAccepted (x : NetPort) (now run : Nat) : NetPort :=
  { x with acceptedAt := now, state := if x.state = .stopped ∧ run = 1 then .armed else x.state }

theorem Chip.modPort_modPort (c : Chip) (p : Nat) (f g : NetPort → NetPort) : (c.modPort p f).modPort p g = c.modPort p fun x => g (f x) := by
  simp [Chip.modPort]

/-- Arming a port posts no event (R575). -/
theorem Chip.setTrd_armed (c : Chip) (p : Nat) : c.setTrd p .armed = c.modPort p fun x => { x with state := .armed } := by
  simp [Chip.setTrd]

/-- An accepted TRD_ set changes its block and its port, and nothing else (R76, R581). -/
theorem commitChecksOp_trd_passed {c : Chip} {r : Rec} {k : GoTaken} (kind : kindOf r = .trd) (taken : (c.blk r).taken = some k)
    (good : k.keyOk = true) (passes : checks c (c.viewOne r k.set) r = none) :
    commitChecksOp r c = (c.setBlk r ({ c.blk r with taken := none }.accept k.set)).modPort (instOf r) fun x =>
      x.commitAccepted c.nowNs (fieldOf r k.set 0x108 0) := by
  have now (b : Block) : (c.setBlk r b).nowNs = c.nowNs := rfl
  have port (b : Block) : (c.setBlk r b).port (instOf r) = c.port (instOf r) := rfl
  have acc (f : NetPort → NetPort) (b : Block) : ((c.setBlk r b).modPort (instOf r) f).acc r 0x108 0 = fieldOf r b.accepted 0x108 0 := by
    simp [Chip.acc, Chip.blk, Chip.setBlk]
  have notRefused : ({ c.blk r with taken := none }.accept k.set).lastRefused = false := rfl
  have accepted : ({ c.blk r with taken := none }.accept k.set).accepted = k.set := rfl
  simp only [commitChecksOp, commitChecksDoneOp_passed taken good passes, kind, taken, Chip.blk_setBlk_self, notRefused, Option.isSome_some,
    Bool.not_false, and_self, if_true, now, acc, accepted, Chip.port_modPort_self, port]
  split
  next arms =>
    rw [Chip.setTrd_armed, Chip.modPort_modPort]
    simp [Chip.modPort, port, NetPort.commitAccepted, arms]
  next stays => simp [Chip.modPort, port, NetPort.commitAccepted, stays]

/-! ## The obligation -/

/-- Settles O29, from the equations above: each clause is one case of its operation. -/
theorem commits : Obligations.Commits := by
  unfold Obligations.Commits
  constructor
  · intro s w r useKey key clocked reach hr
    refine ⟨fun free unheld => ?go, fun busy => ?dropped, fun free => ?discard, ?clampLog⟩
    case go => exact (onWrite_reached _ clocked reach).trans (by rw [goOp_idle hr free unheld])
    case dropped => exact (onWrite_reached _ clocked reach).trans (by rw [goOp_busy hr busy])
    case discard => exact (onWrite_reached _ clocked reach).trans (by rw [discardOp_idle hr free])
    case clampLog => exact (onWrite_reached _ clocked reach).trans (by rw [clampLogClearOp_eq hr])
  · intro s r k clocked b taken
    have runs : exec (.commitChecksDone r) s = .next (s.put (commitChecksOp r s.chip)) := onChip_clocked _ clocked
    refine ⟨fun bad kind => ?wrongKey, fun f good kind fails => ?failed, fun good kind passes => ?passed, fun good kind passes => ?port⟩
    case wrongKey => rw [runs, commitChecksOp_of_not_trd kind, commitChecksDoneOp_wrongKey taken bad]; rfl
    case failed => rw [runs, commitChecksOp_of_not_trd kind, commitChecksDoneOp_failed taken good fails]; rfl
    case passed => rw [runs, commitChecksOp_of_not_trd kind, commitChecksDoneOp_passed taken good passes]; rfl
    case port =>
      refine ⟨_, runs, rfl, ?_⟩
      rw [commitChecksOp_trd_passed kind taken good passes, State.put_chip, Chip.port_modPort_self]
      exact ⟨Chip.blk_setBlk_self .., rfl, fun stopped run => if_pos ⟨stopped, run⟩, rfl⟩

end Sys2Proof.Machine
end

section
/-! Rules for the registers of an engine, and for an instruction that retires: what each read gives after a write, and what a write leaves. -/

namespace Sys2Proof.Machine

/-! ## Bits of a number -/

theorem bitAt_eq_testBit (v i : Nat) : bitAt v i = v.testBit i := by
  rw [Nat.testBit_eq_decide_div_mod_eq]; rfl

/-- Bit `i` of a number taken out and put in anew. -/
theorem bitAt_replace (p i k : Nat) (v : Bool) : bitAt (p - b2n (bitAt p i) * 2 ^ i + b2n v * 2 ^ i) k = if k = i then v else bitAt p k := by
  obtain ⟨m, lo, hlo, rfl⟩ : ∃ m lo, lo < 2 ^ i ∧ p = 2 ^ i * m + lo :=
    ⟨p / 2 ^ i, p % 2 ^ i, Nat.mod_lt _ (Nat.two_pow_pos i), (Nat.div_add_mod p (2 ^ i)).symm⟩
  have hbit : b2n (bitAt (2 ^ i * m + lo) i) = m % 2 := by
    rw [bitAt_eq_testBit, Nat.testBit_two_pow_mul_add _ hlo]
    rcases Nat.mod_two_eq_zero_or_one m with h | h <;> simp [b2n, h]
  have hnew : 2 ^ i * m + lo - b2n (bitAt (2 ^ i * m + lo) i) * 2 ^ i + b2n v * 2 ^ i = 2 ^ i * (2 * (m / 2) + b2n v) + lo := by
    have hm : 2 ^ i * m = 2 ^ i * (2 * (m / 2)) + 2 ^ i * (m % 2) := by rw [← Nat.mul_add, Nat.div_add_mod]
    rw [hbit, Nat.mul_add, Nat.mul_comm (m % 2), Nat.mul_comm (b2n v)]
    omega
  rw [hnew, bitAt_eq_testBit, bitAt_eq_testBit, Nat.testBit_two_pow_mul_add _ hlo, Nat.testBit_two_pow_mul_add _ hlo]
  rcases Nat.lt_trichotomy k i with h | rfl | h
  · simp [h, Nat.ne_of_lt h]
  · cases v <;> simp [b2n]
  · obtain ⟨j, rfl⟩ : ∃ j, k = i + (j + 1) := ⟨k - i - 1, by omega⟩
    have hhalf : (2 * (m / 2) + b2n v) / 2 = m / 2 := by cases v <;> simp [b2n]; omega
    simp [Nat.testBit_succ, hhalf]

/-! ## The registers of an engine -/

section
variable (x : Engine)

/-- A write to a g register changes the g registers alone. -/
theorem Engine.setG_eq (d : Nat) (v : W64) : x.setG d v = { x with g := (x.setG d v).g } := by
  unfold Engine.setG
  split <;> rfl

@[simp] theorem Engine.setG_w (d : Nat) (v : W64) : (x.setG d v).w = x.w := by rw [x.setG_eq]
@[simp] theorem Engine.setG_p (d : Nat) (v : W64) : (x.setG d v).p = x.p := by rw [x.setG_eq]
@[simp] theorem Engine.setG_pc (d : Nat) (v : W64) : (x.setG d v).pc = x.pc := by rw [x.setG_eq]
@[simp] theorem Engine.setG_loops (d : Nat) (v : W64) : (x.setG d v).loops = x.loops := by rw [x.setG_eq]
@[simp] theorem Engine.setG_pend (d : Nat) (v : W64) : (x.setG d v).pend = x.pend := by rw [x.setG_eq]
@[simp] theorem Engine.setG_issued (d : Nat) (v : W64) : (x.setG d v).issued = x.issued := by rw [x.setG_eq]
@[simp] theorem Engine.setG_confirmed (d : Nat) (v : W64) : (x.setG d v).confirmed = x.confirmed := by rw [x.setG_eq]
@[simp] theorem Engine.setG_run (d : Nat) (v : W64) : (x.setG d v).run = x.run := by rw [x.setG_eq]
@[simp] theorem Engine.setG_lm (d : Nat) (v : W64) : (x.setG d v).lm = x.lm := by rw [x.setG_eq]

theorem Engine.getG_setG_self {d : Nat} (v : W64) (h : d ≠ 0) : (x.setG d v).getG d = v := by
  simp [Engine.getG, Engine.setG, h]

theorem Engine.getG_setG_ne {d k : Nat} (v : W64) (h : k ≠ d) : (x.setG d v).getG k = x.getG k := by
  unfold Engine.getG Engine.setG
  split
  · rfl
  · split
    · rfl
    · exact tget_put_ne _ _ _ h

/-- A write to a predicate changes the predicates alone. -/
theorem Engine.setP_eq (i : Nat) (v : Bool) : x.setP i v = { x with p := (x.setP i v).p } := by
  unfold Engine.setP
  split <;> rfl

@[simp] theorem Engine.setP_g (i : Nat) (v : Bool) : (x.setP i v).g = x.g := by rw [x.setP_eq]
@[simp] theorem Engine.setP_w (i : Nat) (v : Bool) : (x.setP i v).w = x.w := by rw [x.setP_eq]
@[simp] theorem Engine.setP_pc (i : Nat) (v : Bool) : (x.setP i v).pc = x.pc := by rw [x.setP_eq]
@[simp] theorem Engine.setP_loops (i : Nat) (v : Bool) : (x.setP i v).loops = x.loops := by rw [x.setP_eq]
@[simp] theorem Engine.setP_lm (i : Nat) (v : Bool) : (x.setP i v).lm = x.lm := by rw [x.setP_eq]

theorem Engine.getP_setP_self {i : Nat} (v : Bool) (h : i ≠ 0) (hi : i < 8) : (x.setP i v).getP i = v := by
  simp [Engine.getP, Engine.setP, h, Nat.not_le.mpr hi, bitAt_replace]

theorem Engine.getP_setP_ne {i k : Nat} (v : Bool) (h : k ≠ i) : (x.setP i v).getP k = x.getP k := by
  unfold Engine.getP Engine.setP
  split
  · rfl
  · split
    · rfl
    · simp [bitAt_replace, h]

end

/-! ## An instruction that retires -/

section
variable (s : State) (e : Eng) (f : Engine → Engine)

@[simp] theorem State.eng_retire_self : (s.retire e f).chip.eng e = (f { s.chip.eng e with anchor := none }).advance := s.chip.eng_setEng_self ..
theorem State.eng_retire_ne {o : Nat} (h : o ≠ e) : (s.retire e f).chip.eng o = s.chip.eng o := s.chip.eng_setEng_ne _ h

@[simp] theorem Engine.advance_g (x : Engine) : x.advance.g = x.g := rfl
@[simp] theorem Engine.advance_w (x : Engine) : x.advance.w = x.w := rfl
@[simp] theorem Engine.advance_p (x : Engine) : x.advance.p = x.p := rfl
@[simp] theorem Engine.advance_pend (x : Engine) : x.advance.pend = x.pend := rfl
@[simp] theorem Engine.advance_lm (x : Engine) : x.advance.lm = x.lm := rfl
@[simp] theorem Engine.advance_run (x : Engine) : x.advance.run = x.run := rfl
@[simp] theorem Engine.advance_issued (x : Engine) : x.advance.issued = x.issued := rfl
@[simp] theorem Engine.advance_confirmed (x : Engine) : x.advance.confirmed = x.confirmed := rfl

@[simp] theorem Engine.advance_getG (x : Engine) (k : Nat) : x.advance.getG k = x.getG k := rfl
@[simp] theorem Engine.advance_getP (x : Engine) (k : Nat) : x.advance.getP k = x.getP k := rfl
end

section
variable {s : State} {e : Eng} {r : Run} {i : Instr}

/-- The word of a ready instruction decodes (R153, R154). -/
theorem Chip.wf_of_ready {c : Chip} (h : c.ready e r i) : i.wf = true := h.2.2.2.2.2

/-- A ready instruction that writes gd, with the value that its registers give. -/
theorem issueG_ready (h : s.chip.ready e r i) (ha : anchorable i = false) (d : BitVec 5) (f : Engine → W64) {v : W64}
    (hv : f { s.chip.eng e with anchor := none } = v) : onChip (fun c => c.issueG e i d f) s = .next (s.wroteG e d v) := by
  subst hv
  exact Chip.issueReg_ready h ha _

/-- A ready instruction that writes a predicate, with the value that its registers give. -/
theorem issueP_ready (h : s.chip.ready e r i) (ha : anchorable i = false) (d : BitVec 5) (f : Engine → Bool) {v : Bool}
    (hv : f { s.chip.eng e with anchor := none } = v) : onChip (fun c => c.issueP e i d f) s = .next (s.wroteP e d v) := by
  subst hv
  exact Chip.issueReg_ready h ha _

/-- A ready instruction that writes wd, with the value that its registers give. -/
theorem issueW_ready (h : s.chip.ready e r i) (ha : anchorable i = false) (d : BitVec 4) (f : Engine → Vec) {v : Vec}
    (hv : f { s.chip.eng e with anchor := none } = v) : onChip (fun c => c.issueW e i d f) s = .next (s.wroteW e d v) := by
  subst hv
  exact Chip.issueReg_ready h ha _

theorem Chip.modEng_setEng (c : Chip) (e : Nat) (x : Engine) (f : Engine → Engine) : (c.setEng e x).modEng e f = c.setEng e (f x) := by
  simp [Chip.modEng]

theorem Chip.modEng_modEng (c : Chip) (e : Nat) (f g : Engine → Engine) : (c.modEng e f).modEng e g = c.modEng e fun x => g (f x) := by
  simp [Chip.modEng]

/-- The engine once issue has closed its anchored run. -/
@[simp] theorem Chip.eng_closed (c : Chip) (e : Eng) : (c.closed e).eng e = { c.eng e with anchor := none } := c.eng_setEng_self ..

/-- A ready instruction whose effect, past its checks, is on its engine alone, and which goes on to the next word. -/
theorem issue_retire (h : s.chip.ready e r i) (ha : anchorable i = false) (f : Run → Chip → Lx) (g : Engine → Engine)
    (hf : f r (s.chip.closed e) = .ok ((s.chip.closed e).modEng e fun x => (g x).advance)) :
    onChip (fun c => c.issue e i f) s = .next (s.retire e g) := by
  rw [Chip.issue_ok h ha f _ hf, Chip.closed, Chip.modEng_setEng]
  rfl

/-- A retirement depends on what its effect makes of the engine, and on nothing else. -/
theorem State.retire_congr {f g : Engine → Engine} (same : f { s.chip.eng e with anchor := none } = g { s.chip.eng e with anchor := none }) :
    s.retire e f = s.retire e g := by
  rw [State.retire, State.retire, same]

/-- A ready instruction that, past its checks, writes a number to gd. -/
theorem issue_retG (h : s.chip.ready e r i) (ha : anchorable i = false) (f : Run → Chip → Lx) (d : BitVec 5) (n : Nat)
    (hf : f r (s.chip.closed e) = .ok ((s.chip.closed e).retG e d n)) :
    onChip (fun c => c.issue e i f) s = .next (s.wroteG e d (BitVec.ofNat 64 n)) := issue_retire h ha f _ hf

/-- A ready instruction that, past its checks, begins to wait. -/
theorem issue_waits (h : s.chip.ready e r i) (ha : anchorable i = false) (f : Run → Chip → Lx) (w : Wait)
    (hf : f r (s.chip.closed e) = .ok ((s.chip.closed e).modEng e fun x => { x with wait := some w })) :
    onChip (fun c => c.issue e i f) s = .next (s.waits e w) := by
  rw [Chip.issue_ok h ha f _ hf, Chip.closed, Chip.modEng_setEng]
  rfl

/-- A ready instruction whose own checks fail, where it would close the anchored run. -/
theorem issue_faults (h : s.chip.ready e r i) (ha : anchorable i = false) (f : Run → Chip → Lx) (code soft : Nat)
    (hf : f r (s.chip.closed e) = .error (code, soft)) : onChip (fun c => c.issue e i f) s = .next (s.faults e i code soft) :=
  Chip.issue_fault h f code soft (by rw [ha]; exact hf)
end

end Sys2Proof.Machine
end

section
/-! Settles O7 and O8: the arithmetic of the table's results, then the ALU, immediate and CMP groups from the rules above (R157–R159). -/

namespace Sys2Proof.Machine

/-! ## The results of the ALU group as numbers -/

theorem shiftLeft_eq_ofNat (A : W64) (n : Nat) : A <<< n = BitVec.ofNat 64 (A.toNat * 2 ^ n) := by
  apply BitVec.eq_of_toNat_eq
  simp [Nat.shiftLeft_eq]

theorem ushiftRight_eq_ofNat (A : W64) (n : Nat) : A >>> n = BitVec.ofNat 64 (A.toNat / 2 ^ n) := by
  apply BitVec.eq_of_toNat_eq
  simp [Nat.shiftRight_eq_div_pow, Nat.mod_eq_of_lt (Nat.lt_of_le_of_lt (Nat.div_le_self A.toNat (2 ^ n)) A.isLt)]

theorem sshiftRight_eq_ofInt (A : W64) (n : Nat) : A.sshiftRight n = BitVec.ofInt 64 (A.toInt / 2 ^ n) := by
  rw [BitVec.sshiftRight, Int.shiftRight_eq_div_pow]
  norm_cast

theorem mul_eq_ofNat (A B : W64) : A * B = BitVec.ofNat 64 (A.toNat * B.toNat) := by
  apply BitVec.eq_of_toNat_eq
  simp

theorem ite_le_eq_ofNat_min (A B : W64) : (if A ≤ B then A else B) = BitVec.ofNat 64 (min A.toNat B.toNat) := by
  simp only [BitVec.le_def]
  split
  next h => simp [Nat.min_eq_left h]
  next h => simp [Nat.min_eq_right (Nat.le_of_not_le h)]

theorem ite_le_eq_ofNat_max (A B : W64) : (if A ≤ B then B else A) = BitVec.ofNat 64 (max A.toNat B.toNat) := by
  simp only [BitVec.le_def]
  split
  next h => simp [Nat.max_eq_right h]
  next h => simp [Nat.max_eq_left (Nat.le_of_not_le h)]

theorem udiv_eq_ofNat (A B : W64) : A / B = BitVec.ofNat 64 (A.toNat / B.toNat) := by
  apply BitVec.eq_of_toNat_eq
  simp [Nat.mod_eq_of_lt (Nat.lt_of_le_of_lt (Nat.div_le_self A.toNat B.toNat) A.isLt)]

/-- The remainder by 0 is the dividend (R157). -/
theorem ite_umod_eq_ofNat (A B : W64) : (if B = 0 then A else A % B) = BitVec.ofNat 64 (A.toNat % B.toNat) := by
  split
  next h => simp [h]
  next h =>
    apply BitVec.eq_of_toNat_eq
    simp [Nat.mod_eq_of_lt (Nat.lt_of_le_of_lt (Nat.mod_le A.toNat B.toNat) A.isLt)]

/-- A field of `n` bits replaced: lane `h` takes the new bits, every other bit stays. -/
theorem getLsbD_replaceLane {w n : Nat} (hn : 0 < n) (old mask new : BitVec w) (h : Nat) {i : Nat} (hi : i < w)
    (hmask : ∀ j < w, mask.getLsbD j = decide (j < n)) (hnew : ∀ j, n ≤ j → new.getLsbD j = false) :
    ((old &&& ~~~(mask <<< (n * h))) ||| (new <<< (n * h))).getLsbD i = if i / n = h then new.getLsbD (i % n) else old.getLsbD i := by
  simp only [BitVec.getLsbD_or, BitVec.getLsbD_and, BitVec.getLsbD_not, BitVec.getLsbD_shiftLeft, hi, decide_true, Bool.true_and]
  split
  next lane =>
    subst lane
    have start : ¬ i < n * (i / n) := Nat.not_lt.mpr (Nat.mul_div_le i n)
    have place : i - n * (i / n) = i % n := (Nat.mod_eq_sub_mul_div ..).symm
    have inside : mask.getLsbD (i % n) = true := by
      rw [hmask _ (Nat.lt_of_le_of_lt (Nat.mod_le i n) hi)]
      exact decide_eq_true (Nat.mod_lt i hn)
    simp [start, place, inside]
  next other =>
    rcases Nat.lt_or_ge i (n * h) with below | above
    · simp [below]
    · have beyond : n ≤ i - n * h := by
        have : h < i / n := Nat.lt_of_le_of_ne ((Nat.le_div_iff_mul_le hn).mpr (by rwa [Nat.mul_comm])) (Ne.symm other)
        have : n * (h + 1) ≤ i := Nat.le_trans (Nat.mul_le_mul_left n this) (Nat.mul_div_le i n)
        rw [Nat.mul_add] at this
        omega
      simp [hnew _ beyond, hmask _ (Nat.lt_of_le_of_lt (Nat.sub_le i _) hi), Nat.not_lt.mpr beyond]

/-- MOVK replaces lane `h` of 16 bits (R159). -/
theorem movkVal_getLsbD (old : W64) (h : Nat) (imm : BitVec 16) {i : Nat} (hi : i < 64) :
    (movkVal old h imm).getLsbD i = if i / 16 = h then imm.getLsbD (i % 16) else old.getLsbD i := by
  have mask : ∀ j < 64, (0xFFFF : W64).getLsbD j = decide (j < 16) := by decide
  have new (j : Nat) (hj : 16 ≤ j) : (imm.setWidth 64 : W64).getLsbD j = false := by simp [BitVec.getLsbD_of_ge imm j hj]
  rw [movkVal, getLsbD_replaceLane (by decide) old _ _ h hi mask new]
  simp [Nat.lt_trans (Nat.mod_lt i (by decide : 16 > 0)) (by decide : 16 < 64)]

/-! ## What a write of gd or of a predicate leaves -/

section
variable (s : State) (e : Eng)

theorem State.getG_wroteG_self {d : BitVec 5} (v : W64) (hd : d ≠ 0) : ((s.wroteG e d v).chip.eng e).getG d.toNat = v := by
  simp only [State.wroteG, State.eng_retire_self, Engine.advance_getG]
  exact Engine.getG_setG_self _ v fun h => hd (BitVec.eq_of_toNat_eq h)

theorem State.getG_wroteG_ne {d : BitVec 5} (v : W64) {k : Nat} (hk : k ≠ d.toNat) :
    ((s.wroteG e d v).chip.eng e).getG k = (s.chip.eng e).getG k := by
  simp only [State.wroteG, State.eng_retire_self, Engine.advance_getG]
  exact Engine.getG_setG_ne _ v hk

theorem State.getP_wroteP_self {d : BitVec 5} (v : Bool) (hd : d ≠ 0) (h8 : d.toNat < 8) : ((s.wroteP e d v).chip.eng e).getP d.toNat = v := by
  simp only [State.wroteP, State.eng_retire_self, Engine.advance_getP, Nat.mod_eq_of_lt h8]
  exact Engine.getP_setP_self _ v (fun h => hd (BitVec.eq_of_toNat_eq h)) h8

theorem State.getP_wroteP_ne {d : BitVec 5} (v : Bool) (h8 : d.toNat < 8) {k : Nat} (hk : k ≠ d.toNat) :
    ((s.wroteP e d v).chip.eng e).getP k = (s.chip.eng e).getP k := by
  simp only [State.wroteP, State.eng_retire_self, Engine.advance_getP, Nat.mod_eq_of_lt h8]
  exact Engine.getP_setP_ne _ v hk

end

/-! ## O7 -/

section
variable {s : State} {e : Eng} {r : Run} {d a b : BitVec 5} {imm : BitVec 16}

/-- The shift amounts that the immediate shifts allow (R159). -/
theorem shiftAmount_mod_of_wf (h : decide (imm.toNat < 64) = true) : imm.toNat % 64 = imm.toNat := Nat.mod_eq_of_lt (of_decide_eq_true h)

theorem exec_shli (h : s.chip.ready e r (.shli e d a imm)) :
    exec (.shli e d a imm) s = .next (s.wroteG e d (BitVec.ofNat 64 (((s.chip.eng e).getG a.toNat).toNat * 2 ^ imm.toNat))) :=
  issueG_ready h rfl d _ (by rw [shiftAmount_mod_of_wf (Chip.wf_of_ready h)]; exact shiftLeft_eq_ofNat ..)

theorem exec_shri (h : s.chip.ready e r (.shri e d a imm)) :
    exec (.shri e d a imm) s = .next (s.wroteG e d (BitVec.ofNat 64 (((s.chip.eng e).getG a.toNat).toNat / 2 ^ imm.toNat))) :=
  issueG_ready h rfl d _ (by rw [shiftAmount_mod_of_wf (Chip.wf_of_ready h)]; exact ushiftRight_eq_ofNat ..)

theorem exec_sari (h : s.chip.ready e r (.sari e d a imm)) :
    exec (.sari e d a imm) s = .next (s.wroteG e d (BitVec.ofInt 64 (((s.chip.eng e).getG a.toNat).toInt / 2 ^ imm.toNat))) :=
  issueG_ready h rfl d _ (by rw [shiftAmount_mod_of_wf (Chip.wf_of_ready h)]; exact sshiftRight_eq_ofInt ..)

/-- MOVK keeps the lanes of gd that it does not name (R159). -/
theorem exec_movk (h : s.chip.ready e r (.movk e d a imm)) : ∃ v : W64, exec (.movk e d a imm) s = .next (s.wroteG e d v) ∧
    ∀ i, i < 64 → v.getLsbD i = if i / 16 = a.toNat then imm.getLsbD (i % 16) else ((s.chip.eng e).getG d.toNat).getLsbD i := by
  have ha : a.toNat % 4 = a.toNat := Nat.mod_eq_of_lt (of_decide_eq_true (Chip.wf_of_ready h))
  exact ⟨movkVal ((s.chip.eng e).getG d.toNat) a.toNat imm, issueG_ready h rfl d _ (by rw [ha]; rfl), fun i hi => movkVal_getLsbD _ _ _ hi⟩

end

/-- Settles O7: the table's result for each instruction of the two groups, then what a write of gd leaves. -/
theorem integerArithmetic : Obligations.IntegerArithmetic := by
  unfold Obligations.IntegerArithmetic
  refine ⟨?alu, ?immediate, ?frame⟩
  case alu =>
    intro s e r d a b p A B sh
    exact ⟨fun h => issueG_ready h rfl d _ rfl, fun h => issueG_ready h rfl d _ rfl, fun h => issueG_ready h rfl d _ rfl,
      fun h => issueG_ready h rfl d _ rfl, fun h => issueG_ready h rfl d _ rfl,
      fun h => issueG_ready h rfl d _ (shiftLeft_eq_ofNat A sh), fun h => issueG_ready h rfl d _ (ushiftRight_eq_ofNat A sh),
      fun h => issueG_ready h rfl d _ (sshiftRight_eq_ofInt A sh), fun h => issueG_ready h rfl d _ (mul_eq_ofNat A B),
      fun h => issueG_ready h rfl d _ rfl, fun h => issueG_ready h rfl d _ (ite_le_eq_ofNat_min A B),
      fun h => issueG_ready h rfl d _ (ite_le_eq_ofNat_max A B),
      fun h => issueG_ready h rfl d _ (congrArg (fun v => if B = 0 then (0xFFFFFFFFFFFFFFFF : W64) else v) (udiv_eq_ofNat A B)),
      fun h => issueG_ready h rfl d _ (ite_umod_eq_ofNat A B), fun h => issueG_ready h rfl d _ rfl⟩
  case immediate =>
    intro s e r d a imm A old
    refine ⟨fun h => issueG_ready h rfl d _ rfl, fun h => issueG_ready h rfl d _ rfl, fun h => issueG_ready h rfl d _ rfl,
      fun h => issueG_ready h rfl d _ rfl, exec_shli, exec_shri, exec_sari, fun h => issueG_ready h rfl d _ rfl, exec_movk, ?_, ?_, ?_⟩
    · exact fun h => ⟨decide_eq_false (Nat.not_lt.mpr h), decide_eq_false (Nat.not_lt.mpr h), decide_eq_false (Nat.not_lt.mpr h)⟩
    · exact fun h => beq_eq_false_iff_ne.mpr h
    · exact fun h => decide_eq_false (Nat.not_lt.mpr h)
  case frame =>
    intro s e d v t
    have written : t.chip.eng e = (({ s.chip.eng e with anchor := none } : Engine).setG d.toNat v).advance := s.eng_retire_self e _
    refine ⟨rfl, s.getG_wroteG_self e v, fun k => s.getG_wroteG_ne e v, fun k => ?_, fun k => ?_, fun k => ?_, ?_, ?_, ?_, ?_,
      fun o => s.eng_retire_ne e _, rfl, rfl⟩
    all_goals simp [written, Engine.getW, Engine.getP, Engine.getPend]

/-! ## O8 -/

section
variable {s : State} {e : Eng} {r : Run} {d a b : BitVec 5}

theorem exec_pand (h : s.chip.ready e r (.pand e d a b)) :
    exec (.pand e d a b) s = .next (s.wroteP e d ((s.chip.eng e).getP a.toNat && (s.chip.eng e).getP b.toNat)) := by
  have wf := Chip.wf_of_ready h
  simp only [Instr.wf, Bool.and_eq_true, decide_eq_true_eq] at wf
  obtain ⟨⟨-, ha⟩, hb⟩ := wf
  exact issueP_ready h rfl d _ (by simp only [Engine.p5, Nat.mod_eq_of_lt ha, Nat.mod_eq_of_lt hb]; rfl)

theorem exec_por (h : s.chip.ready e r (.por e d a b)) :
    exec (.por e d a b) s = .next (s.wroteP e d ((s.chip.eng e).getP a.toNat || (s.chip.eng e).getP b.toNat)) := by
  have wf := Chip.wf_of_ready h
  simp only [Instr.wf, Bool.and_eq_true, decide_eq_true_eq] at wf
  obtain ⟨⟨-, ha⟩, hb⟩ := wf
  exact issueP_ready h rfl d _ (by simp only [Engine.p5, Nat.mod_eq_of_lt ha, Nat.mod_eq_of_lt hb]; rfl)

theorem exec_pnot (h : s.chip.ready e r (.pnot e d a b)) : exec (.pnot e d a b) s = .next (s.wroteP e d (!(s.chip.eng e).getP a.toNat)) := by
  have wf := Chip.wf_of_ready h
  simp only [Instr.wf, Bool.and_eq_true, decide_eq_true_eq] at wf
  obtain ⟨⟨-, ha⟩, -⟩ := wf
  exact issueP_ready h rfl d _ (by simp only [Engine.p5, Nat.mod_eq_of_lt ha]; rfl)

end

theorem bne_eq_decide_ne (A B : W64) : (A != B) = decide (A ≠ B) := by
  by_cases h : A = B <;> simp [h]

/-- Not below, unsigned, is at least. -/
theorem not_ult_eq_decide_le (A B : W64) : (!A.ult B) = decide (B.toNat ≤ A.toNat) := by
  simp [BitVec.ult, ← decide_not]

/-- Not below, signed, is at least. -/
theorem not_slt_eq_decide_le (A B : W64) : (!A.slt B) = decide (B.toInt ≤ A.toInt) := by
  simp [BitVec.slt, ← decide_not]

/-- Settles O8: the table's result for each instruction of the group, the field values it forbids, then what a write of a predicate leaves. -/
theorem predicates : Obligations.Predicates := by
  unfold Obligations.Predicates
  refine ⟨?cmp, ?frame⟩
  case cmp =>
    intro s e r d a b A B P Q
    refine ⟨fun h => issueP_ready h rfl d _ rfl, fun h => issueP_ready h rfl d _ (bne_eq_decide_ne A B), fun h => issueP_ready h rfl d _ rfl,
      fun h => issueP_ready h rfl d _ rfl, fun h => issueP_ready h rfl d _ (not_ult_eq_decide_le A B),
      fun h => issueP_ready h rfl d _ (not_slt_eq_decide_le A B), fun h => issueP_ready h rfl d _ rfl, exec_pand, exec_por, exec_pnot, ?_, ?_, ?_, ?_⟩
    · exact fun h => by simp [Instr.wf, Nat.not_lt.mpr h]
    · exact fun h => by simp [Instr.wf, Nat.not_lt.mpr h]
    · exact fun h => by simp [Instr.wf, Nat.not_lt.mpr h]
    · exact fun h => by simpa [Instr.wf] using fun _ _ => h
  case frame =>
    intro s e d v h8 t
    have written : t.chip.eng e = (({ s.chip.eng e with anchor := none } : Engine).setP (d.toNat % 8) v).advance := s.eng_retire_self e _
    refine ⟨rfl, fun hd => s.getP_wroteP_self e v hd h8, fun k => s.getP_wroteP_ne e v h8, fun k => ?_, fun k => ?_, ?_,
      fun o => s.eng_retire_ne e _, rfl, rfl⟩
    all_goals simp [written, Engine.getG, Engine.getW]

end Sys2Proof.Machine
end

section
/-! Rules for bytes: those of a number, of a vector and of a memory space, after a write and where nothing was written. -/

namespace Sys2Proof.Machine

/-! ## Bytes of numbers and vectors -/

@[simp] theorem leBytes_length (n v : Nat) : (leBytes n v).length = n := by
  induction n generalizing v with
  | zero => rfl
  | succ n ih => simp [leBytes, ih]

theorem leBytes_getElem (n v i : Nat) (h : i < (leBytes n v).length) : (leBytes n v)[i] = BitVec.ofNat 8 (v / 256 ^ i) := by
  induction n generalizing v i with
  | zero => simp at h
  | succ n ih =>
    cases i with
    | zero => simp [leBytes]
    | succ i =>
      have hi : i < (leBytes n (v / 256)).length := by simpa using h
      simp [leBytes, ih _ _ hi, Nat.div_div_eq_div_mul, Nat.pow_succ']

theorem ofLe_lt (l : List Byte) : ofLe l < 256 ^ l.length := by
  induction l with
  | nil => decide
  | cons b r ih =>
    have := b.isLt
    simp only [ofLe, List.length_cons, Nat.pow_succ']
    omega

/-- A digit to base 256 of the number that bytes spell is its byte. -/
theorem ofLe_digit (l : List Byte) (i : Nat) (h : i < l.length) : ofLe l / 256 ^ i % 256 = l[i].toNat := by
  induction l generalizing i with
  | nil => simp at h
  | cons b r ih =>
    have hb : b.toNat < 256 := b.isLt
    cases i with
    | zero => simp [ofLe, Nat.mod_eq_of_lt hb]
    | succ i =>
      have tail : ofLe (b :: r) / 256 = ofLe r := by simp only [ofLe]; omega
      rw [Nat.pow_succ', ← Nat.div_div_eq_div_mul, tail]
      simpa using ih i (by simpa using h)

/-- A vector reads back the bytes that it was made of. -/
theorem byte_vecOf (l : List Byte) (hl : l.length = 64) (i : Nat) (hi : i < 64) : Vec.byte (vecOf l) i = l[i] := by
  have fits : ofLe l < 2 ^ (8 * 64) := by
    rw [Nat.pow_mul, ← hl]
    exact ofLe_lt l
  apply BitVec.eq_of_toNat_eq
  rw [Vec.byte, vecOf, List.take_of_length_le (by omega), BitVec.extractLsb'_toNat, BitVec.toNat_ofNat, Nat.mod_eq_of_lt fits,
    Nat.shiftRight_eq_div_pow, Nat.pow_mul, ← ofLe_digit l i (by omega)]

@[simp] theorem vecBytes_length (v : Vec) : (vecBytes v).length = 64 := by simp [vecBytes]
theorem vecBytes_getElem (v : Vec) (i : Nat) (h : i < (vecBytes v).length) : (vecBytes v)[i] = Vec.byte v i := by simp [vecBytes, Vec.byte]

/-! ## Bytes of memories -/

theorem mread_eq_map (d : Nat → Byte) (m : Mem) (a n : Nat) : mread d m a n = (List.range n).map fun i => mget d m (a + i) := by
  induction n generalizing a with
  | zero => rfl
  | succ n ih => simp [mread, ih, List.range_succ_eq_map, Function.comp_def, Nat.add_assoc, Nat.add_comm 1]

/-- A byte of a space as engine `e` sees it. -/
def Chip.spByte (c : Chip) (e sp a : Nat) : Byte := (c.spRead e sp a 1).headD 0

section
variable (c : Chip) (e : Nat)

theorem Chip.spRead_one (sp a : Nat) : c.spRead e sp a 1 = [c.spByte e sp a] := by
  unfold Chip.spByte Chip.spRead
  split_ifs <;> rfl

theorem Chip.spRead_eq_map (sp a n : Nat) : c.spRead e sp a n = (List.range n).map fun i => c.spByte e sp (a + i) := by
  unfold Chip.spByte Chip.spRead
  split_ifs <;> simp [mread_eq_map]

/-- Which memory a write to a space changes (R174, R426): LM of the engine, STG, HBM with the audit counters of pool 2, or none. -/
theorem Chip.spWrite_cases (sp a : Nat) (l : List Byte) :
    (sp = 0 ∧ c.spWrite e sp a l = c.modEng e fun x => { x with lm := mwrite zeros x.lm a l }) ∨
    (sp = 1 ∧ c.spWrite e sp a l = { c with stg := mwrite zeros c.stg a l }) ∨
    (sp = 2 ∧ ∃ p, c.spWrite e sp a l = { c with hbm := mwrite hbmInit c.hbm a l, pools := p }) ∨
    (3 ≤ sp ∧ c.spWrite e sp a l = c) := by
  match sp with
  | 0 => exact .inl ⟨rfl, rfl⟩
  | 1 => exact .inr (.inl ⟨rfl, rfl⟩)
  | 2 => exact .inr (.inr (.inl ⟨rfl, c.hbmWrite_eq a l⟩))
  | n + 3 => exact .inr (.inr (.inr ⟨by omega, by simp [Chip.spWrite]⟩))

/-- A write to a space puts its bytes there. -/
theorem Chip.spByte_spWrite_in {sp : Nat} (a : Nat) (l : List Byte) {i : Nat} (hsp : sp < 3) (hi : i < l.length) :
    (c.spWrite e sp a l).spByte e sp (a + i) = l[i] := by
  rcases c.spWrite_cases e sp a l with ⟨rfl, w⟩ | ⟨rfl, w⟩ | ⟨rfl, p, w⟩ | ⟨out, -⟩
  · simp [Chip.spByte, Chip.spRead, mread, w, mget_write_in _ _ _ _ _ hi]
  · simp [Chip.spByte, Chip.spRead, mread, w, mget_write_in _ _ _ _ _ hi]
  · simp [Chip.spByte, Chip.spRead, mread, w, mget_write_in _ _ _ _ _ hi]
  · omega

/-- A write to a space leaves every other byte of it, and every other space. -/
theorem Chip.spByte_spWrite_out (sp a : Nat) (l : List Byte) {q x : Nat} (h : q ≠ sp ∨ x < a ∨ a + l.length ≤ x) :
    (c.spWrite e sp a l).spByte e q x = c.spByte e q x := by
  have read : ∀ d m, q = sp → mget d (mwrite d m a l) x = mget d m x := fun d m same => mget_write_out d l m a x (h.resolve_left (· same))
  unfold Chip.spByte Chip.spRead
  rcases c.spWrite_cases e sp a l with ⟨rfl, w⟩ | ⟨rfl, w⟩ | ⟨rfl, p, w⟩ | ⟨-, w⟩
  · by_cases same : q = 0
    · simp [w, same, mread, read _ _ same]
    · simp [w, same]
  · by_cases same : q = 1
    · simp [w, same, mread, read _ _ same]
    · simp [w, same, Chip.eng]
  · by_cases same : q = 2
    · simp [w, same, mread, read _ _ same]
    · simp [w, same, Chip.eng]
  · rw [w]

/-- What keeps LM of its engine keeps every byte of every space. -/
theorem Chip.spByte_modEng {f : Engine → Engine} (keeps : (f (c.eng e)).lm = (c.eng e).lm) (sp a : Nat) :
    (c.modEng e f).spByte e sp a = c.spByte e sp a := by
  simp [Chip.spByte, Chip.spRead, keeps]

theorem Chip.spByte_closed (c : Chip) (e : Eng) (sp a : Nat) : (c.closed e).spByte e sp a = c.spByte e sp a :=
  c.spByte_modEng e (f := fun x => { x with anchor := none }) rfl sp a

/-- A write to a space leaves the registers of its engine. -/
theorem Chip.eng_spWrite (sp a : Nat) (l : List Byte) : (c.spWrite e sp a l).eng e = { c.eng e with lm := ((c.spWrite e sp a l).eng e).lm } := by
  rcases c.spWrite_cases e sp a l with ⟨rfl, w⟩ | ⟨rfl, w⟩ | ⟨rfl, p, w⟩ | ⟨-, w⟩
  · simp [w]
  · rw [w]; rfl
  · rw [w]; rfl
  · rw [w]

/-- A write to a space changes engines, STG, HBM and the audit counters alone. -/
theorem Chip.spWrite_frame (sp a : Nat) (l : List Byte) :
    c.spWrite e sp a l =
      { c with engines := (c.spWrite e sp a l).engines, stg := (c.spWrite e sp a l).stg, hbm := (c.spWrite e sp a l).hbm
               pools := (c.spWrite e sp a l).pools } := by
  rcases c.spWrite_cases e sp a l with ⟨rfl, w⟩ | ⟨rfl, w⟩ | ⟨rfl, p, w⟩ | ⟨-, w⟩
  · rw [w]; rfl
  all_goals rw [w]

end

end Sys2Proof.Machine
end

section
/-! Settles O9: LD, ST, SLOAD and SSTORE from the rules for bytes (R172–R174). -/

namespace Sys2Proof.Machine

/-- An aligned access inside the windows of its slot has its effect (R147, R149). -/
theorem Chip.access_granted {r : Run} {e : Eng} {sp a n align : Nat} {write : Bool} (k : Lx) (aligned : a % align = 0)
    (inside : r.inside e sp a n write = true) : Chip.access r e sp a n align write k = k := by
  simp [Chip.access, aligned, inside]

section
variable {s : State} {e : Eng} {r : Run} {d a : BitVec 5} {off : BitVec 14}

theorem exec_ld {sz : BitVec 2} (h : s.chip.ready e r (.ld e d a sz off)) {ad n : Nat} (hn : 2 ^ sz.toNat = n)
    (had : offAddr ((s.chip.eng e).getG a.toNat) off n = ad) (aligned : ad % n = 0) (inside : r.inside e 0 ad n false = true) :
    exec (.ld e d a sz off) s = .next (s.wroteG e d (BitVec.ofNat 64 (ofLe ((List.range n).map fun i => (s.chip.eng e).lmByte (ad + i))))) := by
  refine (issue_retire h rfl _ (fun x => x.setG d.toNat (BitVec.ofNat 64 (ofLe (mread zeros x.lm ad n)))) ?_).trans (congrArg _ (State.retire_congr ?_))
  · subst hn had
    rw [Chip.eng_closed]
    exact Chip.access_granted _ aligned inside
  · rw [mread_eq_map]; rfl

/-- ST leaves LM with the low bytes of gd at its address (R172). -/
theorem exec_st {sz : BitVec 2} (h : s.chip.ready e r (.st e d a sz off)) {ad n : Nat} (hn : 2 ^ sz.toNat = n)
    (had : offAddr ((s.chip.eng e).getG a.toNat) off n = ad) (aligned : ad % n = 0) (inside : r.inside e 0 ad n true = true) :
    exec (.st e d a sz off) s =
      .next (s.retire e fun x => { x with lm := mwrite zeros (s.chip.eng e).lm ad (leBytes n ((s.chip.eng e).getG d.toNat).toNat) }) := by
  refine (issue_retire h rfl _ (fun x => { x with lm := mwrite zeros x.lm ad (leBytes n (x.g5 d).toNat) }) ?_).trans
    (congrArg _ (State.retire_congr rfl))
  subst hn had
  rw [Chip.eng_closed]
  exact Chip.access_granted _ aligned inside

/-- SLOAD and SSTORE name one of w0 to w15 (R173). -/
theorem wIndex_mod_of_wf (h : (e.isSe && decide (d.toNat < 16)) = true) : d.toNat % 16 = d.toNat :=
  Nat.mod_eq_of_lt (of_decide_eq_true (Bool.and_eq_true_iff.mp h).2)

theorem exec_sload {sp : BitVec 2} (h : s.chip.ready e r (.sload e d a sp off)) {ad : Nat}
    (had : offAddr ((s.chip.eng e).getG a.toNat) off 64 = ad) (aligned : ad % 64 = 0) (inside : r.inside e sp.toNat ad 64 false = true) :
    exec (.sload e d a sp off) s = .next (s.wroteW e (d.setWidth 4) (vecOf (s.chip.spRead e sp.toNat ad 64))) := by
  have read : (s.chip.closed e).spRead e sp.toNat ad 64 = s.chip.spRead e sp.toNat ad 64 := by
    simp only [Chip.spRead_eq_map]
    exact List.map_congr_left fun i _ => s.chip.spByte_closed e _ _
  refine (issue_retire h rfl _ (fun x => x.setW (d.toNat % 16) (vecOf (s.chip.spRead e sp.toNat ad 64))) ?_).trans (congrArg _ (State.retire_congr ?_))
  · subst had
    rw [Chip.eng_closed, ← read]
    exact Chip.access_granted _ aligned inside
  · simp

/-- The machine that an SSTORE leaves: the 64 bytes of wd in their space, and the engine at its next word (R173). -/
def Chip.sstored (c : Chip) (e : Eng) (sp ad : Nat) (v : Vec) : Chip := ((c.closed e).spWrite e sp ad (vecBytes v)).modEng e Engine.advance

theorem exec_sstore {sp : BitVec 2} (h : s.chip.ready e r (.sstore e d a sp off)) {ad : Nat}
    (had : offAddr ((s.chip.eng e).getG a.toNat) off 64 = ad) (aligned : ad % 64 = 0) (notPkt : sp.toNat ≠ 3)
    (inside : r.inside e sp.toNat ad 64 true = true) :
    exec (.sstore e d a sp off) s = .next (s.put (s.chip.sstored e sp.toNat ad ((s.chip.eng e).getW d.toNat))) := by
  subst had
  have index : d.toNat % 16 = d.toNat := wIndex_mod_of_wf (e := e) (Chip.wf_of_ready h)
  refine Chip.issue_ok h rfl _ _ ?_
  simp only [Chip.eng_setEng_self]
  rw [if_neg (by exact fun k => k aligned), if_neg notPkt, index]
  exact Chip.access_granted _ aligned inside

/-- An SSTORE to the packet buffer faults with WRITE_PROT before it stores anything (R174). -/
theorem exec_sstore_pkt (h : s.chip.ready e r (.sstore e d a 3 off)) {ad : Nat} (had : offAddr ((s.chip.eng e).getG a.toNat) off 64 = ad)
    (aligned : ad % 64 = 0) : exec (.sstore e d a 3 off) s = .next (s.faults e (.sstore e d a 3 off) 4 0) := by
  subst had
  refine issue_faults h rfl _ _ _ ?_
  rw [Chip.eng_closed, if_neg (by exact fun k => k aligned)]
  rfl

section
variable (c : Chip) (sp ad : Nat) (v : Vec)

theorem Chip.spByte_sstored_in (hsp : sp < 3) {i : Nat} (hi : i < 64) : (c.sstored e sp ad v).spByte e sp (ad + i) = Vec.byte v i := by
  rw [Chip.sstored, Chip.spByte_modEng _ _ rfl, Chip.spByte_spWrite_in _ _ _ _ hsp (by simpa using hi), vecBytes_getElem]

theorem Chip.spByte_sstored_out {q x : Nat} (h : q ≠ sp ∨ x < ad ∨ ad + 64 ≤ x) : (c.sstored e sp ad v).spByte e q x = c.spByte e q x := by
  rw [Chip.sstored, Chip.spByte_modEng _ _ rfl, Chip.spByte_spWrite_out _ _ _ _ _ (by simpa using h), Chip.spByte_closed]

theorem Chip.eng_sstored : (c.sstored e sp ad v).eng e =
    ({ c.eng e with anchor := none, lm := (((c.closed e).spWrite e sp ad (vecBytes v)).eng e).lm } : Engine).advance := by
  rw [Chip.sstored, Chip.eng_modEng_self, Chip.eng_spWrite, Chip.eng_closed]

theorem Chip.sstored_frame : c.sstored e sp ad v =
    { c with engines := (c.sstored e sp ad v).engines, stg := (c.sstored e sp ad v).stg, hbm := (c.sstored e sp ad v).hbm
             pools := (c.sstored e sp ad v).pools } := by
  have w := (c.closed e).spWrite_frame e sp ad (vecBytes v)
  rw [Chip.sstored, w]
  rfl

end
end

/-- Settles O9: each instruction's equation, then the bytes that it puts and those that it leaves. -/
theorem loadsAndStores : Obligations.LoadsAndStores := by
  unfold Obligations.LoadsAndStores
  refine ⟨?scalar, ?vector⟩
  case scalar =>
    intro s e r d a sz off n ad
    refine ⟨fun h aligned inside => exec_ld (ad := ad) (n := n) h rfl rfl aligned inside,
      fun h aligned inside => ⟨_, exec_st (ad := ad) (n := n) h rfl rfl aligned inside, ?_, ?_, ?_⟩⟩
    · intro i hi
      rw [mget_write_in _ _ _ _ _ (by simpa using hi), leBytes_getElem]
    · exact fun x hx => mget_write_out _ _ _ _ _ (by simpa using hx)
    · exact memory_wf_write _ _ _ _
  case vector =>
    intro s e r d a sp off ad
    refine ⟨fun h aligned inside => ⟨_, exec_sload (ad := ad) h rfl aligned inside, ?_⟩, fun h aligned notPkt inside =>
      ⟨_, exec_sstore (ad := ad) h rfl aligned notPkt inside, rfl, ?_, ?_, ?_, ?_, ?_⟩, fun h aligned => exec_sstore_pkt (ad := ad) h rfl aligned, ?_⟩
    · intro i hi
      change _ = s.chip.spByte e sp.toNat (ad + i)
      rw [byte_vecOf _ (by simp [Chip.spRead_eq_map]) i hi]
      simp [Chip.spRead_eq_map]
    · exact fun i hi => Chip.spByte_sstored_in _ _ _ _ (by omega) hi
    · intro q x _ hx
      rw [Chip.spRead_one, Chip.spRead_one, State.put_chip, Chip.spByte_sstored_out _ _ _ _ hx]
    · intro k; rw [State.put_chip, Chip.eng_sstored]; rfl
    · intro k; rw [State.put_chip, Chip.eng_sstored]; rfl
    · exact Chip.sstored_frame ..
    · exact fun h => by simp [Instr.wf, Nat.not_lt.mpr h]

end Sys2Proof.Machine
end

section
/-! Settles O10: the end of a word, then BRP and LOOP (R160–R163). -/

namespace Sys2Proof.Machine

/-! ## The end of a word (R161) -/

theorem wordEnd_of_ne_stop {l : Level} (r : List Level) {n : Nat} (h : n ≠ l.stop) : wordEnd (l :: r) n = (l :: r, n + 1) := by
  simp [wordEnd, h]

/-- A level with iterations left repeats its body. -/
theorem wordEnd_repeats {l : Level} (r : List Level) (h : 1 < l.left) :
    wordEnd (l :: r) l.stop = ({ l with left := l.left - 1, index := l.index + 1 } :: r, l.start) := by
  simp [wordEnd, Nat.not_le.mpr h]

/-- A level without iterations left passes the step to the level around it. -/
theorem wordEnd_passes {l : Level} (r : List Level) (h : l.left ≤ 1) : wordEnd (l :: r) l.stop = wordEnd r l.stop := by
  simp [wordEnd, h]

theorem wordEnd_all_done (ls : List Level) (n : Nat) (h : ∀ l ∈ ls, l.stop = n ∧ l.left ≤ 1) : wordEnd ls n = ([], n + 1) := by
  induction ls with
  | nil => rfl
  | cons l r ih =>
    obtain ⟨rfl, done⟩ := h l (by simp)
    rw [wordEnd_passes r done]
    exact ih fun k hk => h k (by simp [hk])

/-! ## BRP and LOOP -/

section
variable {s : State} {e : Eng} {r : Run}

theorem exec_brp_taken {sense : Bool} {p : BitVec 3} {off : BitVec 16} (h : s.chip.ready e r (.brp e sense p off))
    (taken : (s.chip.eng e).getP p.toNat = sense) :
    exec (.brp e sense p off) s =
      .next (s.put (s.chip.setEng e (({ s.chip.eng e with anchor := none } : Engine).branch ((s.chip.eng e).pc + off.toNat)))) := by
  refine Chip.issue_ok h rfl _ _ ?_
  rw [Chip.modEng_setEng, if_pos (by exact beq_iff_eq.mpr taken)]

theorem exec_brp_not_taken {sense : Bool} {p : BitVec 3} {off : BitVec 16} (h : s.chip.ready e r (.brp e sense p off))
    (taken : (s.chip.eng e).getP p.toNat ≠ sense) : exec (.brp e sense p off) s = .next (s.retire e id) := by
  refine Chip.issue_ok h rfl _ _ ?_
  rw [Chip.modEng_setEng, if_neg (by exact fun k => taken (beq_iff_eq.mp k))]
  rfl

variable {k : BitVec 5} {bound : BitVec 13} {len : BitVec 8}

/-- A fifth level, or a body that does not nest, faults with LOOP (R161). -/
theorem exec_loop_faults (h : s.chip.ready e r (.loop e k bound len)) (bad : (s.chip.eng e).loops.length = 4 ∨
    ((s.chip.eng e).loops.head?.any fun l => decide (l.stop < (s.chip.eng e).pc + len.toNat)) = true) :
    exec (.loop e k bound len) s = .next (s.faults e (.loop e k bound len) 5 0) := by
  refine issue_faults h rfl _ _ _ ?_
  simp only [Chip.eng_closed]
  rcases bad with full | crosses
  · rw [if_pos full]; rfl
  · split <;> rfl

/-- Otherwise the LOOP begins its body or passes it (R161). -/
theorem exec_loop_nests (h : s.chip.ready e r (.loop e k bound len)) (room : (s.chip.eng e).loops.length ≠ 4)
    (nests : ((s.chip.eng e).loops.head?.all fun l => decide ((s.chip.eng e).pc + len.toNat ≤ l.stop)) = true) :
    exec (.loop e k bound len) s = .next (s.put (s.chip.setEng e
      (({ s.chip.eng e with anchor := none } : Engine).loop ((s.chip.eng e).getG k.toNat).toNat bound.toNat len.toNat))) := by
  have crosses : ¬ ((s.chip.eng e).loops.head?.any fun l => decide (l.stop < (s.chip.eng e).pc + len.toNat)) = true := by
    cases top : (s.chip.eng e).loops.head? with
    | none => simp
    | some l => simpa [top] using nests
  refine Chip.issue_ok h rfl _ _ ?_
  simp only [Chip.eng_setEng_self, Chip.modEng_setEng]
  rw [if_neg room, if_neg crosses]
  rfl

end

section
variable (x : Engine) {n bound : Nat} (len : Nat)

/-- A LOOP with a count begins its body (R161, R162). -/
theorem Engine.loop_begins (count : min n bound ≠ 0) : x.loop n bound len =
    { x.setP 7 (decide (bound < n)) with loops := ⟨x.pc + 1, x.pc + len, min n bound, 0⟩ :: x.loops, pc := x.pc + 1 } := by
  simp only [Engine.loop, if_neg count, Engine.setP_pc, Engine.setP_loops]

/-- A LOOP with a count of 0 passes its body as if the last word of it had retired (R161). -/
theorem Engine.loop_passes (count : min n bound = 0) : x.loop n bound len =
    { x.setP 7 (decide (bound < n)) with loops := (wordEnd x.loops (x.pc + len)).1, pc := (wordEnd x.loops (x.pc + len)).2 } := by
  simp only [Engine.loop, if_pos count, Engine.setP_pc, Engine.setP_loops]

end

/-- Settles O10: each outcome of BRP and LOOP, and the cases of the end of a word. -/
theorem controlFlow : Obligations.ControlFlow := by
  unfold Obligations.ControlFlow
  refine ⟨?brp, ?loop, ?wordEnd⟩
  case brp =>
    intro s e r sense p off x
    exact ⟨fun h taken => exec_brp_taken h taken, fun h taken => exec_brp_not_taken h taken, rfl⟩
  case loop =>
    intro s e r k bound len x n x7
    refine ⟨exec_loop_faults, fun h room nests => ⟨fun count => ?_, fun count => ?_⟩, ?_⟩
    · rw [exec_loop_nests h room nests, Engine.loop_begins _ _ count]
    · rw [exec_loop_nests h room nests, Engine.loop_passes _ _ count]
    · rintro (rfl | rfl) <;> simp [Instr.wf]
  case wordEnd =>
    exact ⟨fun _ => rfl, fun _ r _ => wordEnd_of_ne_stop r, fun _ r => wordEnd_repeats r, fun _ r => wordEnd_passes r, wordEnd_all_done⟩

end Sys2Proof.Machine
end

section
/-! Settles O12: `gf_mul` is additive in both operands, so its laws need only be checked on the powers of two; the powers of 2 then give the exponents, the
logarithms and the inverses (R165, R167). -/

namespace Sys2Proof.Machine

/-! ## `gf_mul` is additive in both operands -/

theorem gfDouble_xor (a b : Byte) : gfDouble (a ^^^ b) = gfDouble a ^^^ gfDouble b := by
  have split (x : Byte) : gfDouble x = (x <<< 1) ^^^ (if x.getLsbD 7 then 0x1D else 0) := by
    unfold gfDouble
    split <;> simp
  rw [split, split a, split b, BitVec.getLsbD_xor, BitVec.shiftLeft_xor_distrib]
  have parts : (if (a.getLsbD 7 ^^ b.getLsbD 7) = true then (0x1D : Byte) else 0) =
      (if a.getLsbD 7 = true then 0x1D else 0) ^^^ (if b.getLsbD 7 = true then 0x1D else 0) := by
    cases a.getLsbD 7 <;> cases b.getLsbD 7 <;> rfl
  rw [parts]
  ac_rfl

theorem gfMulLoop_xor_left (n : Nat) (a a' b r r' : Byte) :
    gfMulLoop n (a ^^^ a') b (r ^^^ r') = gfMulLoop n a b r ^^^ gfMulLoop n a' b r' := by
  induction n generalizing a a' b r r' with
  | zero => rfl
  | succ n ih =>
    simp only [gfMulLoop, gfDouble_xor]
    cases b.getLsbD 0
    · exact ih ..
    · rw [if_pos rfl, if_pos rfl, if_pos rfl, ← ih]
      congr 1
      ac_rfl

theorem gfMulLoop_xor_right (n : Nat) (a b b' r r' : Byte) :
    gfMulLoop n a (b ^^^ b') (r ^^^ r') = gfMulLoop n a b r ^^^ gfMulLoop n a b' r' := by
  induction n generalizing a b b' r r' with
  | zero => rfl
  | succ n ih =>
    have step : (if (b.getLsbD 0 ^^ b'.getLsbD 0) = true then r ^^^ r' ^^^ a else r ^^^ r') =
        (if b.getLsbD 0 = true then r ^^^ a else r) ^^^ (if b'.getLsbD 0 = true then r' ^^^ a else r') := by
      cases b.getLsbD 0 <;> cases b'.getLsbD 0
      · rfl
      · exact BitVec.xor_assoc ..
      · exact (BitVec.xor_assoc ..).trans ((congrArg _ (BitVec.xor_comm ..)).trans (BitVec.xor_assoc ..).symm)
      · have twice : r ^^^ a ^^^ (r' ^^^ a) = r ^^^ r' ^^^ (a ^^^ a) := by ac_rfl
        simp [twice]
    simp only [gfMulLoop, BitVec.ushiftRight_xor_distrib, BitVec.getLsbD_xor, step, ih]

theorem gfMul_xor_left (a a' b : Byte) : gfMul (a ^^^ a') b = gfMul a b ^^^ gfMul a' b := gfMulLoop_xor_left 8 a a' b 0 0
theorem gfMul_xor_right (a b b' : Byte) : gfMul a (b ^^^ b') = gfMul a b ^^^ gfMul a b' := gfMulLoop_xor_right 8 a b b' 0 0

theorem gfMul_zero_right (a : Byte) : gfMul a 0 = 0 := by
  simpa using gfMul_xor_right a 0 0

/-! ## Laws that hold of every byte because they hold of every power of two -/

/-- What holds of every power of two, and of a sum of two bytes of which it holds, holds of every byte. -/
theorem byte_induction {P : Byte → Prop} (bit : ∀ i < 8, P (BitVec.twoPow 8 i)) (sum : ∀ a b, P a → P b → P (a ^^^ b)) (a : Byte) : P a := by
  have zero : P 0 := by simpa using sum _ _ (bit 0 (by decide)) (bit 0 (by decide))
  have part (i : Nat) (hi : i < 8) : P (a &&& BitVec.twoPow 8 i) := by
    rw [BitVec.and_twoPow]
    split
    · exact bit i hi
    · exact zero
  have whole : a = (a &&& .twoPow 8 0) ^^^ (a &&& .twoPow 8 1) ^^^ (a &&& .twoPow 8 2) ^^^ (a &&& .twoPow 8 3) ^^^ (a &&& .twoPow 8 4) ^^^
      (a &&& .twoPow 8 5) ^^^ (a &&& .twoPow 8 6) ^^^ (a &&& .twoPow 8 7) := by
    clear part
    revert a; decide
  rw [whole]
  exact sum _ _ (sum _ _ (sum _ _ (sum _ _ (sum _ _ (sum _ _ (sum _ _ (part 0 (by decide)) (part 1 (by decide))) (part 2 (by decide)))
    (part 3 (by decide))) (part 4 (by decide))) (part 5 (by decide))) (part 6 (by decide))) (part 7 (by decide))

theorem gfMul_comm (a b : Byte) : gfMul a b = gfMul b a := by
  have bits : ∀ i < 8, ∀ j < 8, gfMul (.twoPow 8 i) (.twoPow 8 j) = gfMul (.twoPow 8 j) (.twoPow 8 i) := by decide
  induction a using byte_induction with
  | sum a a' h h' => rw [gfMul_xor_left, gfMul_xor_right, h, h']
  | bit i hi =>
    induction b using byte_induction with
    | sum b b' h h' => rw [gfMul_xor_left, gfMul_xor_right, h, h']
    | bit j hj => exact bits i hi j hj

theorem gfMul_gfDouble_left (a b : Byte) : gfMul (gfDouble a) b = gfDouble (gfMul a b) := by
  have bits : ∀ i < 8, ∀ j < 8, gfMul (gfDouble (.twoPow 8 i)) (.twoPow 8 j) = gfDouble (gfMul (.twoPow 8 i) (.twoPow 8 j)) := by decide
  induction a using byte_induction with
  | sum a a' h h' => rw [gfDouble_xor, gfMul_xor_left, gfMul_xor_left, gfDouble_xor, h, h']
  | bit i hi =>
    induction b using byte_induction with
    | sum b b' h h' => rw [gfMul_xor_right, gfMul_xor_right, gfDouble_xor, h, h']
    | bit j hj => exact bits i hi j hj

theorem gfMul_one_left (a : Byte) : gfMul 1 a = a := by
  induction a using byte_induction with
  | sum a a' h h' => rw [gfMul_xor_right, h, h']
  | bit i hi => revert i; decide

/-! ## The powers of 2 -/

theorem gfPow_succ (n : Nat) : gfPow (n + 1) = gfDouble (gfPow n) := by
  rw [gfPow, gfMul_comm, show (2 : Byte) = gfDouble 1 from rfl, gfMul_gfDouble_left, gfMul_one_left]

theorem gfMul_gfPow (i j : Nat) : gfMul (gfPow i) (gfPow j) = gfPow (i + j) := by
  induction i with
  | zero => rw [Nat.zero_add]; exact gfMul_one_left _
  | succ i ih => rw [gfPow_succ, gfMul_gfDouble_left, ih, Nat.succ_add, gfPow_succ]

theorem gfPow_255 : gfPow 255 = 1 := by decide +kernel

theorem gfExp_eq_gfPow {k : Nat} (h : k < 255) : gfExp k = gfPow k := by
  rw [gfExp, Nat.mod_eq_of_lt h]

/-- The count of GFLOG, from a power of 2 on, finds the byte where it answers below its end (R167). -/
theorem gfLogLoop_found (n k : Nat) (a : Byte) (found : gfLogLoop n k (gfPow k) a < 255) :
    gfPow (gfLogLoop n k (gfPow k) a) = a := by
  induction n generalizing k with
  | zero => simp [gfLogLoop] at found
  | succ n ih =>
    simp only [gfLogLoop] at found ⊢
    split
    next here => exact here
    next later =>
      rw [if_neg later] at found
      rw [← gfPow_succ] at found ⊢
      exact ih (k + 1) found

/-- 2 generates the field: the count of GFLOG meets every byte but 0 (R165). -/
theorem gfLog_lt {a : Byte} (h : a ≠ 0) : gfLog a < 255 := by
  revert a; decide +kernel

theorem gfExp_gfLog {a : Byte} (h : a ≠ 0) : gfExp (gfLog a) = a := by
  have lt := gfLog_lt h
  rw [gfExp_eq_gfPow lt]
  rw [gfLog, if_neg h] at lt ⊢
  exact gfLogLoop_found 255 0 a lt

/-! ## Inverses -/

theorem gfInv_zero : gfInv 0 = 0 := by
  have missing : (List.range 256).find? (fun x => gfMul (BitVec.ofNat 8 x) 0 == 1) = none :=
    List.find?_eq_none.mpr fun x _ => by rw [gfMul_zero_right]; decide
  rw [gfInv, missing]

/-- Every byte but 0 has an inverse, which GFINV finds (R167). -/
theorem gfMul_gfInv {a : Byte} (h : a ≠ 0) : gfMul (gfInv a) a = 1 := by
  have inverse : gfMul (gfPow (255 - gfLog a)) a = 1 := by
    have lt := gfLog_lt h
    have log : gfPow (gfLog a) = a := by rw [← gfExp_eq_gfPow lt, gfExp_gfLog h]
    calc gfMul (gfPow (255 - gfLog a)) a = gfMul (gfPow (255 - gfLog a)) (gfPow (gfLog a)) := by rw [log]
      _ = gfPow 255 := by rw [gfMul_gfPow, Nat.sub_add_cancel (Nat.le_of_lt lt)]
      _ = 1 := gfPow_255
  unfold gfInv
  split
  next x found => exact eq_of_beq (List.find?_some (p := fun x => gfMul (BitVec.ofNat 8 x) a == 1) found)
  next missing =>
    have := List.find?_eq_none.mp missing (gfPow (255 - gfLog a)).toNat (List.mem_range.mpr (gfPow _).isLt)
    simp [inverse] at this

/-! ## O12 -/

theorem lowByte_eq_setWidth (g : W64) : lowByte g = g.setWidth 8 := by
  simp [lowByte, BitVec.setWidth_eq_extractLsb']

/-- Settles O12: the GF scalar group reads its operands' low bytes, and the field's laws. -/
theorem galoisField : Obligations.GaloisField := by
  unfold Obligations.GaloisField
  refine ⟨?scalar, ?field⟩
  case scalar =>
    intro s e r d a b A x y
    have hx : lowByte A = x := lowByte_eq_setWidth A
    refine ⟨fun h => issueG_ready h rfl d _ ?_, fun h => ⟨gfInv x, issueG_ready h rfl d _ ?_, ?_, gfMul_gfInv⟩,
      fun h => issueG_ready h rfl d _ rfl, fun h => ⟨gfLog x, issueG_ready h rfl d _ ?_, ?_, fun hx => ⟨gfLog_lt hx, gfExp_gfLog hx⟩⟩, ?_⟩
    · exact congrArg byteG (congrArg₂ gfMul hx (lowByte_eq_setWidth _))
    · exact congrArg (fun v => byteG (gfInv v)) hx
    · exact fun hx => hx ▸ gfInv_zero
    · exact congrArg (fun v => BitVec.ofNat 64 (gfLog v)) hx
    · exact fun hx => if_pos hx
    · exact fun h => by simpa [Instr.wf] using fun _ => h
  case field =>
    refine ⟨by decide, by decide, gfMul_comm, gfMul_xor_right, gfMul_one_left, fun k => ?_, fun a h => gfExp_gfLog h⟩
    rw [gfExp, Nat.add_mod_right]; rfl

end Sys2Proof.Machine
end

section
/-! Settles O11: the vector group byte by byte (R166), then SYNDB: what one byte of it does, a run of bytes, and the units of the whole (R168–R170). -/

namespace Sys2Proof.Machine

/-! ## The vector group -/

theorem byte_xor (a b : Vec) (i : Nat) : Vec.byte (a ^^^ b) i = Vec.byte a i ^^^ Vec.byte b i := BitVec.extractLsb'_xor

theorem byte_gfScale (k : Byte) (v : Vec) {i : Nat} (hi : i < 64) : Vec.byte (gfScale k v) i = gfMul k (Vec.byte v i) := by
  rw [gfScale, byte_vecOf _ (by simp) i hi]
  simp [vecBytes_getElem]

theorem byte_vecOf_replicate (b : Byte) {i : Nat} (hi : i < 64) : Vec.byte (vecOf (List.replicate 64 b)) i = b := by
  rw [byte_vecOf _ (by simp) i hi, List.getElem_replicate]

/-- VINS replaces lane `h` of 64 bits (R166). -/
theorem setLane_getLsbD (v : Vec) (h : Nat) (g : W64) {i : Nat} (hi : i < 512) :
    (setLane v h g).getLsbD i = if i / 64 = h then g.getLsbD (i % 64) else v.getLsbD i := by
  have mask : ∀ j < 512, (BitVec.ofNat 512 (2 ^ 64 - 1)).getLsbD j = decide (j < 64) := fun j hj => by
    simp only [BitVec.getLsbD_ofNat, hj, decide_true, Bool.true_and, Nat.testBit_two_pow_sub_one]
  have new (j : Nat) (hj : 64 ≤ j) : (g.setWidth 512 : Vec).getLsbD j = false := by simp [BitVec.getLsbD_of_ge g j hj]
  rw [setLane, getLsbD_replaceLane (by decide) v _ _ h hi mask new]
  simp [Nat.lt_trans (Nat.mod_lt i (by decide : 64 > 0)) (by decide : 64 < 512)]

section
variable {s : State} {e : Eng} {r : Run} {vd va vb : BitVec 4} {g : BitVec 5}

/-- The lane that VEXT and VINS name (R166). -/
theorem lane_mod_of_wf {vd : BitVec 4} (h : (e.isSe && vd == 0 && decide (vb.toNat < 8)) = true) : vb.toNat % 8 = vb.toNat :=
  Nat.mod_eq_of_lt (of_decide_eq_true (Bool.and_eq_true_iff.mp h).2)

theorem exec_vext (h : s.chip.ready e r (.vext e vd va vb g)) : ∃ v : W64, exec (.vext e vd va vb g) s = .next (s.wroteG e g v) ∧
    ∀ i, i < 64 → v.getLsbD i = ((s.chip.eng e).getW va.toNat).getLsbD (64 * vb.toNat + i) := by
  refine ⟨_, (Chip.issueReg_ready h rfl _).trans (congrArg _ (State.retire_congr rfl)), fun i hi => ?_⟩
  rw [lane_mod_of_wf (e := e) (Chip.wf_of_ready h), BitVec.getLsbD_extractLsb']
  simp [hi, Engine.w4, Engine.getW]

theorem exec_vins (h : s.chip.ready e r (.vins e vd va vb g)) : ∃ v, exec (.vins e vd va vb g) s = .next (s.wroteW e vd v) ∧
    ∀ i, i < 512 → v.getLsbD i =
      if i / 64 = vb.toNat then ((s.chip.eng e).getG g.toNat).getLsbD (i % 64) else ((s.chip.eng e).getW vd.toNat).getLsbD i :=
  ⟨_, issueW_ready h rfl vd _ rfl, fun i hi => by rw [lane_mod_of_wf (e := e) (Chip.wf_of_ready h)]; exact setLane_getLsbD _ _ _ hi⟩

end

/-! ## One byte of SYNDB (R168) -/

/-- The byte of P after a source byte `x`. -/
def syndP (m : Nat) (x old : Byte) : Byte := if m % 2 = 1 then old ^^^ x else old

/-- The byte of Q after a source byte `x`. -/
def syndQ (m : Nat) (cf x old : Byte) : Byte := if m = 0 then gfMul cf x else if 2 ≤ m then old ^^^ gfMul cf x else old

section
variable {e sp m : Nat} {cf : Byte}

theorem spByte_put_self (c : Chip) (a : Nat) (b : Byte) (hsp : sp < 3) : (c.spWrite e sp a [b]).spByte e sp a = b :=
  c.spByte_spWrite_in e a [b] (i := 0) hsp (by simp)

theorem spByte_put_ne (c : Chip) {a : Nat} (b : Byte) {k y : Nat} (h : k ≠ sp ∨ y ≠ a) : (c.spWrite e sp a [b]).spByte e k y = c.spByte e k y :=
  c.spByte_spWrite_out e sp a [b] (h.imp_right fun n => by simp; omega)

/-- A byte of SYNDB in the four modes, with the bytes that it reads (R168). -/
theorem syndbByte_cases (e sp : Nat) (cf x : Byte) (p q : Nat) (c : Chip) (hm : m < 4) :
    (m = 0 ∧ syndbByte e sp m cf x p q c = c.spWrite e sp q [gfMul cf x]) ∨
    (m = 1 ∧ syndbByte e sp m cf x p q c = c.spWrite e sp p [c.spByte e sp p ^^^ x]) ∨
    (m = 2 ∧ syndbByte e sp m cf x p q c = c.spWrite e sp q [c.spByte e sp q ^^^ gfMul cf x]) ∨
    (m = 3 ∧ syndbByte e sp m cf x p q c = (c.spWrite e sp p [c.spByte e sp p ^^^ x]).spWrite e sp q
      [(c.spWrite e sp p [c.spByte e sp p ^^^ x]).spByte e sp q ^^^ gfMul cf x]) := by
  obtain rfl | rfl | rfl | rfl : m = 0 ∨ m = 1 ∨ m = 2 ∨ m = 3 := by omega
  · exact .inl ⟨rfl, rfl⟩
  · exact .inr (.inl ⟨rfl, rfl⟩)
  · exact .inr (.inr (.inl ⟨rfl, rfl⟩))
  · exact .inr (.inr (.inr ⟨rfl, rfl⟩))

variable (x : Byte) {p q : Nat} (c : Chip) (hm : m < 4)
include hm

theorem spByte_syndbByte_out {k y : Nat} (h : k ≠ sp ∨ (y ≠ p ∧ y ≠ q)) : (syndbByte e sp m cf x p q c).spByte e k y = c.spByte e k y := by
  have hp : k ≠ sp ∨ y ≠ p := h.imp_right And.left
  have hq : k ≠ sp ∨ y ≠ q := h.imp_right And.right
  rcases syndbByte_cases e sp cf x p q c hm with ⟨rfl, w⟩ | ⟨rfl, w⟩ | ⟨rfl, w⟩ | ⟨rfl, w⟩
  · rw [w, spByte_put_ne _ _ hq]
  · rw [w, spByte_put_ne _ _ hp]
  · rw [w, spByte_put_ne _ _ hq]
  · rw [w, spByte_put_ne _ _ hq, spByte_put_ne _ _ hp]

theorem spByte_syndbByte_p (hsp : sp < 3) (apart : p ≠ q) : (syndbByte e sp m cf x p q c).spByte e sp p = syndP m x (c.spByte e sp p) := by
  rcases syndbByte_cases e sp cf x p q c hm with ⟨rfl, w⟩ | ⟨rfl, w⟩ | ⟨rfl, w⟩ | ⟨rfl, w⟩
  · rw [w, spByte_put_ne _ _ (.inr apart)]; rfl
  · rw [w, spByte_put_self _ _ _ hsp]; rfl
  · rw [w, spByte_put_ne _ _ (.inr apart)]; rfl
  · rw [w, spByte_put_ne _ _ (.inr apart), spByte_put_self _ _ _ hsp]; rfl

theorem spByte_syndbByte_q (hsp : sp < 3) (apart : p ≠ q) : (syndbByte e sp m cf x p q c).spByte e sp q = syndQ m cf x (c.spByte e sp q) := by
  rcases syndbByte_cases e sp cf x p q c hm with ⟨rfl, w⟩ | ⟨rfl, w⟩ | ⟨rfl, w⟩ | ⟨rfl, w⟩
  · rw [w, spByte_put_self _ _ _ hsp]; rfl
  · rw [w, spByte_put_ne _ _ (.inr apart.symm)]; rfl
  · rw [w, spByte_put_self _ _ _ hsp]; rfl
  · rw [w, spByte_put_self _ _ _ hsp, spByte_put_ne _ _ (.inr apart.symm)]; rfl

/-- A chip that differs from `c` in STG, HBM and the audit counters at most. -/
def Chip.BulkOnly (c t : Chip) : Prop := ∃ stg hbm pools, t = { c with stg := stg, hbm := hbm, pools := pools }

omit hm in
theorem Chip.BulkOnly.refl : c.BulkOnly c := ⟨_, _, _, rfl⟩

omit hm in
theorem Chip.BulkOnly.trans {c d t : Chip} (h : c.BulkOnly d) (k : d.BulkOnly t) : c.BulkOnly t := by
  obtain ⟨_, _, _, rfl⟩ := h
  obtain ⟨_, _, _, rfl⟩ := k
  exact ⟨_, _, _, rfl⟩

omit hm in
theorem Chip.BulkOnly.eq {t : Chip} (h : c.BulkOnly t) : t = { c with stg := t.stg, hbm := t.hbm, pools := t.pools } := by
  obtain ⟨_, _, _, rfl⟩ := h
  rfl

omit hm in
theorem Chip.spWrite_bulkOnly (a : Nat) (l : List Byte) (hsp : sp = 1 ∨ sp = 2) : c.BulkOnly (c.spWrite e sp a l) := by
  rcases c.spWrite_cases e sp a l with ⟨rfl, w⟩ | ⟨rfl, w⟩ | ⟨rfl, p, w⟩ | ⟨big, w⟩
  · omega
  · exact ⟨_, _, _, w⟩
  · exact ⟨_, _, _, w⟩
  · omega

theorem syndbByte_bulkOnly (hsp : sp = 1 ∨ sp = 2) : c.BulkOnly (syndbByte e sp m cf x p q c) := by
  rcases syndbByte_cases e sp cf x p q c hm with ⟨rfl, w⟩ | ⟨rfl, w⟩ | ⟨rfl, w⟩ | ⟨rfl, w⟩
  · rw [w]; exact c.spWrite_bulkOnly _ _ hsp
  · rw [w]; exact c.spWrite_bulkOnly _ _ hsp
  · rw [w]; exact c.spWrite_bulkOnly _ _ hsp
  · rw [w]; exact (c.spWrite_bulkOnly _ _ hsp).trans (Chip.spWrite_bulkOnly _ _ _ hsp)

end

/-! ## A run of bytes -/

section
variable {e sp m : Nat} {cf : Byte} (hm : m < 4)
include hm

theorem spByte_syndbBytes_out (l : List Byte) {p q : Nat} (c : Chip) {k y : Nat}
    (h : k ≠ sp ∨ ((y < p ∨ p + l.length ≤ y) ∧ (y < q ∨ q + l.length ≤ y))) :
    (syndbBytes e sp m cf l p q c).spByte e k y = c.spByte e k y := by
  induction l generalizing p q c with
  | nil => rfl
  | cons x r ih =>
    simp only [List.length_cons] at h
    rw [syndbBytes, ih _ (h.imp_right fun ⟨hp, hq⟩ => by omega), spByte_syndbByte_out x c hm (h.imp_right fun ⟨hp, hq⟩ => by omega)]

/-- Each source byte of a run takes its effect on its own byte of P and on its own byte of Q, where the two runs lie apart. -/
theorem spByte_syndbBytes_in (l : List Byte) {p q : Nat} (c : Chip) (hsp : sp < 3) (apart : p + l.length ≤ q ∨ q + l.length ≤ p) {j : Nat}
    (hj : j < l.length) :
    (syndbBytes e sp m cf l p q c).spByte e sp (p + j) = syndP m l[j] (c.spByte e sp (p + j)) ∧
      (syndbBytes e sp m cf l p q c).spByte e sp (q + j) = syndQ m cf l[j] (c.spByte e sp (q + j)) := by
  induction l generalizing p q c j with
  | nil => simp at hj
  | cons x r ih =>
    simp only [List.length_cons] at apart hj
    rw [syndbBytes]
    cases j with
    | zero =>
      rw [spByte_syndbBytes_out hm r _ (.inr (by omega)), spByte_syndbBytes_out hm r _ (.inr (by omega))]
      exact ⟨spByte_syndbByte_p x c hm hsp (by omega), spByte_syndbByte_q x c hm hsp (by omega)⟩
    | succ j =>
      have next := ih (p := p + 1) (q := q + 1) (syndbByte e sp m cf x p q c) (by omega) (j := j) (by omega)
      rw [spByte_syndbByte_out x c hm (.inr (by omega)), spByte_syndbByte_out x c hm (.inr (by omega))] at next
      simpa [Nat.add_assoc, Nat.add_comm 1] using next

theorem syndbBytes_bulkOnly (l : List Byte) (p q : Nat) (c : Chip) (hsp : sp = 1 ∨ sp = 2) : c.BulkOnly (syndbBytes e sp m cf l p q c) := by
  induction l generalizing p q c with
  | nil => exact .refl c
  | cons x r ih => exact (syndbByte_bulkOnly x c hm hsp).trans (ih ..)

omit hm in
theorem syndbBytes_append (l l' : List Byte) (p q : Nat) (c : Chip) :
    syndbBytes e sp m cf (l ++ l') p q c = syndbBytes e sp m cf l' (p + l.length) (q + l.length) (syndbBytes e sp m cf l p q c) := by
  induction l generalizing p q c with
  | nil => rfl
  | cons x r ih => simp [syndbBytes, ih, Nat.add_assoc, Nat.add_comm 1]

/-! ## The units of SYNDB -/

/-- Where source, P and Q lie apart, the units together are one run over the source bytes as they stood before it (R168). -/
theorem syndbLoop_eq_syndbBytes {ssp : Nat} (n s p q : Nat) (c : Chip) (apart : ssp ≠ sp ∨
    ((p + 64 * n ≤ s ∨ s + 64 * n ≤ p) ∧ (q + 64 * n ≤ s ∨ s + 64 * n ≤ q))) :
    syndbLoop e ssp sp m cf n s p q c = syndbBytes e sp m cf (c.spRead e ssp s (64 * n)) p q c := by
  induction n generalizing s p q c with
  | zero => simp [syndbLoop, Chip.spRead_eq_map, syndbBytes]
  | succ n ih =>
    have unit : (c.spRead e ssp s 64).length = 64 := by simp [Chip.spRead_eq_map]
    have cut : c.spRead e ssp s (64 * (n + 1)) = c.spRead e ssp s 64 ++ c.spRead e ssp (s + 64) (64 * n) := by
      rw [show 64 * (n + 1) = 64 + 64 * n by omega, Chip.spRead_eq_map, Chip.spRead_eq_map, Chip.spRead_eq_map, List.range_add]
      simp [Nat.add_assoc]
    have rest (l : List Byte) (hl : l.length = 64) :
        (syndbBytes e sp m cf l p q c).spRead e ssp (s + 64) (64 * n) = c.spRead e ssp (s + 64) (64 * n) := by
      rw [Chip.spRead_eq_map, Chip.spRead_eq_map]
      refine List.map_congr_left fun i hi => spByte_syndbBytes_out hm _ c (apart.imp_right fun ⟨hp, hq⟩ => ?_)
      have := List.mem_range.mp hi
      omega
    rw [syndbLoop, ih _ _ _ _ (apart.imp_right fun ⟨hp, hq⟩ => by omega), rest _ unit, cut, syndbBytes_append, unit]

end

/-! ## O11 -/

section
variable {s : State} {e : Eng} {r : Run} {d a b k : BitVec 5} {mode : BitVec 2} {ssp dsp : Bool}

/-- The machine that SYNDB leaves after its units (R168–R170). -/
def Chip.syndbed (c : Chip) (e : Eng) (src dst m : Nat) (cf : Byte) (units s p q : Nat) : Chip :=
  (syndbLoop e src dst m cf units s p q (c.closed e)).modEng e Engine.advance

/-- A count that is no multiple of 64, or above 262,144, faults with RANGE (R169). -/
theorem exec_syndb_count {n : Nat} (h : s.chip.ready e r (.syndb e d a b k mode ssp dsp)) (hn : ((s.chip.eng e).getG b.toNat).toNat = n)
    (bad : n % 64 ≠ 0 ∨ 262144 < n) : exec (.syndb e d a b k mode ssp dsp) s = .next (s.faults e (.syndb e d a b k mode ssp dsp) 3 0) := by
  subst hn
  refine issue_faults h rfl _ _ _ ?_
  rw [Chip.eng_closed]
  exact if_pos (bad.imp_right .inl)

/-- Windows that grant every access of SYNDB grant those that its mode makes (R170). -/
theorem syndb_granted {usesP usesQ fresh a b c d e : Bool} (ha : a = true) (hb : b = true) (hc : c = true) (hd : d = true) (he : e = true) :
    ¬ (!a || (usesP && !(b && c)) || (usesQ && !((fresh || d) && e))) = true := by
  simp [ha, hb, hc, hd, he]

/-- Past its checks, SYNDB runs over its units. -/
theorem exec_syndb {n src p q : Nat} (h : s.chip.ready e r (.syndb e d a b k mode ssp dsp))
    (hp : ((s.chip.eng e).getG d.toNat).toNat = p) (hq : ((s.chip.eng e).getG (d.toNat + 1)).toNat = q)
    (hs : ((s.chip.eng e).getG a.toNat).toNat = src) (hn : ((s.chip.eng e).getG b.toNat).toNat = n)
    (short : r.tooLong (s.chip.eng e).pc n = false) (units : n % 64 = 0) (le : n ≤ 262144)
    (alignedS : src % 64 = 0) (alignedP : p % 64 = 0) (alignedQ : q % 64 = 0)
    (insideS : r.inside e (if ssp then 2 else 1) src n false = true) (insideP : ∀ write, r.inside e (if dsp then 2 else 1) p n write = true)
    (insideQ : ∀ write, r.inside e (if dsp then 2 else 1) q n write = true) :
    exec (.syndb e d a b k mode ssp dsp) s = .next (s.put (s.chip.syndbed e (if ssp then 2 else 1) (if dsp then 2 else 1) mode.toNat
      (((s.chip.eng e).getG k.toNat).setWidth 8) (n / 64) src p q)) := by
  subst hp hq hs hn
  refine Chip.issue_ok h rfl _ _ ?_
  rw [Chip.eng_setEng_self, ← lowByte_eq_setWidth]
  have count : ¬ (((s.chip.eng e).getG b.toNat).toNat % 64 ≠ 0 ∨ 262144 < ((s.chip.eng e).getG b.toNat).toNat ∨
      r.tooLong (s.chip.eng e).pc ((s.chip.eng e).getG b.toNat).toNat = true) := by
    simp [units, Nat.not_lt.mpr le, short]
  refine (if_neg count).trans ((if_neg ?_).trans ((if_neg ?_).trans rfl))
  · rintro (bad | bad | bad)
    · exact bad alignedS
    · exact bne_iff_ne.mp (Bool.and_eq_true_iff.mp bad).2 alignedP
    · exact bne_iff_ne.mp (Bool.and_eq_true_iff.mp bad).2 alignedQ
  · exact syndb_granted insideS (insideP false) (insideP true) (insideQ false) (insideQ true)

end

section
variable (c : Chip) (e : Eng) {src dst m : Nat} (cf : Byte) {n s p q : Nat} (hm : m < 4) (units : n % 64 = 0)
  (apart : src ≠ dst ∨ ((p + n ≤ s ∨ s + n ≤ p) ∧ (q + n ≤ s ∨ s + n ≤ q)))
include hm units apart

/-- SYNDB is one run over the source bytes as they stood before it, where source, P and Q lie apart. -/
theorem Chip.syndbed_eq : c.syndbed e src dst m cf (n / 64) s p q =
    (syndbBytes e dst m cf (c.spRead e src s n) p q (c.closed e)).modEng e Engine.advance := by
  have whole : 64 * (n / 64) = n := Nat.mul_div_cancel' (Nat.dvd_of_mod_eq_zero units)
  have source : (c.closed e).spRead e src s n = c.spRead e src s n := by simp only [Chip.spRead_eq_map, Chip.spByte_closed]
  rw [Chip.syndbed, syndbLoop_eq_syndbBytes hm _ _ _ _ _ (by rwa [whole]), whole, source]

theorem Chip.spByte_syndbed_in (hd : dst < 3) (pq : p + n ≤ q ∨ q + n ≤ p) {j : Nat} (hj : j < n) :
    (c.syndbed e src dst m cf (n / 64) s p q).spByte e dst (p + j) = syndP m (c.spByte e src (s + j)) (c.spByte e dst (p + j)) ∧
      (c.syndbed e src dst m cf (n / 64) s p q).spByte e dst (q + j) = syndQ m cf (c.spByte e src (s + j)) (c.spByte e dst (q + j)) := by
  have bytes := spByte_syndbBytes_in hm (cf := cf) (e := e) (c.spRead e src s n) (c.closed e) hd (by simpa [Chip.spRead_eq_map] using pq)
    (j := j) (by simpa [Chip.spRead_eq_map] using hj)
  rw [c.syndbed_eq e cf hm units apart, Chip.spByte_modEng _ _ rfl, Chip.spByte_modEng _ _ rfl]
  simpa [Chip.spRead_eq_map, Chip.spByte_closed] using bytes

theorem Chip.spByte_syndbed_out {k y : Nat} (h : k ≠ dst ∨ ((y < p ∨ p + n ≤ y) ∧ (y < q ∨ q + n ≤ y))) :
    (c.syndbed e src dst m cf (n / 64) s p q).spByte e k y = c.spByte e k y := by
  rw [c.syndbed_eq e cf hm units apart, Chip.spByte_modEng _ _ rfl,
    spByte_syndbBytes_out hm _ _ (by simpa [Chip.spRead_eq_map] using h), Chip.spByte_closed]

/-- SYNDB changes the PC and the loop stack of its engine, STG, HBM and the audit counters, and nothing else. -/
theorem Chip.syndbed_frame (hd : dst = 1 ∨ dst = 2) :
    Chip.BulkOnly (c.setEng e (({ c.eng e with anchor := none } : Engine).advance)) (c.syndbed e src dst m cf (n / 64) s p q) := by
  obtain ⟨stg, hbm, pools, bulk⟩ := syndbBytes_bulkOnly hm (c.spRead e src s n) p q (c.closed e) hd (cf := cf) (e := e)
  rw [c.syndbed_eq e cf hm units apart, bulk, ← c.modEng_setEng]
  exact ⟨stg, hbm, pools, rfl⟩

end

/-- Settles O11: the vector group by the bytes of its results, then SYNDB by those of P and Q. -/
theorem vectorsAndSyndromes : Obligations.VectorsAndSyndromes := by
  unfold Obligations.VectorsAndSyndromes
  refine ⟨?vectors, ?syndb⟩
  case vectors =>
    intro s e r vd va vb g x c A B D
    have coefficient : lowByte (x.getG g.toNat) = c := lowByte_eq_setWidth _
    refine ⟨fun h => issueW_ready h rfl vd _ rfl, fun h => issueW_ready h rfl vd _ rfl, fun h => issueW_ready h rfl vd _ rfl,
      fun h => ⟨gfScale c A, issueW_ready h rfl vd _ (congrArg (gfScale · A) coefficient), fun i => byte_gfScale c A⟩,
      fun h => ⟨D ^^^ gfScale c A, issueW_ready h rfl vd _ (congrArg (D ^^^ gfScale · A) coefficient), fun i hi => ?_⟩,
      fun h => ⟨D ^^^ A, B ^^^ gfScale c A, (Chip.issueReg_ready h rfl _).trans (congrArg _ (State.retire_congr ?_)), fun i hi => ⟨?_, ?_⟩⟩,
      exec_vext, exec_vins,
      fun h => ⟨_, issueW_ready h rfl vd _ (congrArg (fun b => vecOf (List.replicate 64 b)) coefficient), fun i => byte_vecOf_replicate c⟩, ?_, ?_, ?_⟩
    · rw [byte_xor, byte_gfScale _ _ hi]
    · rw [← coefficient]; rfl
    · rw [byte_xor]
    · rw [byte_xor, byte_gfScale _ _ hi]
    · simp only [Instr.wf, Bool.and_eq_false_iff, beq_eq_false_iff_ne]
      tauto
    · rintro rfl; simp [Instr.wf]
    · exact fun h => by simp [Instr.wf, Nat.not_lt.mpr h]
  case syndb =>
    intro s e r d a b k mode ssp dsp x p q src n cf m ss ds rd i h short
    have hm : m < 4 := mode.isLt
    have hds : ds = 1 ∨ ds = 2 := by cases dsp <;> simp [ds]
    refine ⟨exec_syndb_count h rfl, fun zero alignedS alignedP alignedQ => ?_,
      fun units le alignedS alignedP alignedQ insideS rdP wrP rdQ wrQ pq apart =>
        ⟨_, exec_syndb h rfl rfl rfl rfl short units le alignedS alignedP alignedQ insideS (Bool.forall_bool.mpr ⟨rdP, wrP⟩)
          (Bool.forall_bool.mpr ⟨rdQ, wrQ⟩), rfl, ?_, ?_, ?_, ?_⟩⟩
    · have inside (sp y : Nat) (write : Bool) : r.inside e sp y n write = true := by simp [Run.inside, zero]
      rw [exec_syndb (n := n) h rfl rfl rfl rfl short (by omega) (by omega) alignedS alignedP alignedQ (inside ..) (inside _ _) (inside _ _), zero]
      exact congrArg _ (congrArg s.put (Chip.modEng_setEng ..))
    · intro j hj
      exact (s.chip.spByte_syndbed_in e cf hm units apart (by omega) pq hj).1
    · intro j hj
      exact (s.chip.spByte_syndbed_in e cf hm units apart (by omega) pq hj).2
    · intro sp y _ hy
      exact s.chip.spByte_syndbed_out e cf hm units apart hy
    · exact (s.chip.syndbed_frame e cf hm units apart hds).eq

end Sys2Proof.Machine
end

section
/-! Settles O15: CMPL with its faults (R192–R194), and the completion of an item of a host entry (R193, R382). -/

namespace Sys2Proof.Machine

/-! ## CMPL -/

section
variable {s : State} {e : Eng} {r : Run} {d a b : BitVec 5}

/-- The machine with the item of a handle taken from the program of engine `e`, which goes on to its next word. -/
def Chip.untaken (c : Chip) (e : Eng) (handle : Nat) : Chip := (c.closed e).modEng e fun y => (y.untake handle).advance

theorem Chip.landedNow_untaken (c : Chip) (e : Eng) (handle : Nat) : (c.untaken e handle).landedNow e = c.landedNow e := by
  simp only [Chip.landedNow, Chip.untaken, Chip.eng_modEng_self, Chip.eng_closed]
  rfl

/-- The program holds the item no longer (R193). -/
theorem Chip.untaken_run {c : Chip} (run : (c.eng e).run = some r) (handle : Nat) :
    ∃ q, ((c.untaken e handle).eng e).run = some q ∧ ∀ j ∈ q.taken, j.handle ≠ handle := by
  refine ⟨{ r with taken := r.taken.filter fun i => i.handle != handle }, ?_, fun j hj => ?_⟩
  · simp [Chip.untaken, Engine.untake, run]
  · simpa using (List.mem_filter.mp hj).2

theorem exec_cmpl (h : s.chip.ready e r (.cmpl e d a b)) {i : Item} {handle status : Nat} (hh : ((s.chip.eng e).getG a.toNat).toNat = handle)
    (hs : ((s.chip.eng e).getG b.toNat).toNat = status) (same : i.handle = handle)
    (found : (r.taken.find? fun j => j.handle == handle) = some i) (byte : status < 256) (free : reservedStatus status = false) :
    exec (.cmpl e d a b) s = .next (s.put ((s.chip.untaken e handle).completeItem e i status (s.chip.detailOf e status) (s.chip.landedNow e))) := by
  subst hh hs
  refine Chip.issue_ok h rfl _ _ ?_
  rw [Chip.eng_setEng_self]
  dsimp only
  split
  next missing => exact nomatch found.symm.trans missing
  next j hit =>
    obtain rfl : i = j := Option.some.inj (found.symm.trans hit)
    rw [if_neg (by exact fun bad => bad.elim (Nat.not_le.mpr byte) fun k => Bool.noConfusion (free.symm.trans k)), same]
    exact congrArg _ (congrArg _ (Chip.landedNow_untaken ..))

/-- A handle that the program has not taken, or has already completed, faults with RANGE (R194). -/
theorem exec_cmpl_handle (h : s.chip.ready e r (.cmpl e d a b)) (foreign : ∀ i ∈ r.taken, i.handle ≠ ((s.chip.eng e).getG a.toNat).toNat) :
    exec (.cmpl e d a b) s = .next (s.faults e (.cmpl e d a b) 3 0) := by
  refine issue_faults h rfl _ _ _ ?_
  have missing : (r.taken.find? fun i => i.handle == ((s.chip.eng e).getG a.toNat).toNat) = .none :=
    List.find?_eq_none.mpr fun i hi => by simpa using foreign i hi
  rw [Chip.eng_closed]
  dsimp only
  split
  next => rfl
  next i hit => exact nomatch missing.symm.trans hit

/-- A status beyond a byte faults with RANGE (R192). -/
theorem exec_cmpl_status (h : s.chip.ready e r (.cmpl e d a b)) (big : 256 ≤ ((s.chip.eng e).getG b.toNat).toNat) :
    exec (.cmpl e d a b) s = .next (s.faults e (.cmpl e d a b) 3 0) := by
  refine issue_faults h rfl _ _ _ ?_
  rw [Chip.eng_closed]
  dsimp only
  split
  · rfl
  · exact if_pos (.inl big)

end

/-! ## An item of a host entry -/

theorem Func.queue_setQueue_self (x : Func) (g : Nat) (q : Queue) : (x.setQueue g q).queue g = q := tget_put_self ..

section
variable (c : Chip) (i : Item) (code detail : Nat)

/-- What the completion of an item makes of the entry at its place: one item fewer, the worst status of the lowest part, and the entry's status with the
last of them (R382). -/
def Adm.itemDone (a : Adm) : Adm :=
  { a with left := a.left - 1, worst := worse a.worst i.part code detail
           status := if a.left - 1 = 0 ∧ a.status = none then some (statusOf (worse a.worst i.part code detail)) else a.status }

theorem Chip.hostItemDone_eq : c.hostItemDone i code detail =
    c.modAdm (64 * i.port + i.origin % 64) (bits i.origin 6 8 + 1) i.pos fun a => a.itemDone i code detail := by
  refine congrArg (c.modAdm _ _ i.pos) (funext fun a => ?_)
  simp only [Option.isNone_iff_eq_none, Adm.itemDone]
  split <;> rfl

theorem Chip.modAdm_work (f g pos : Nat) (h : Adm → Adm) :
    (((c.modAdm f g pos h).fn f).queue g).work = ((c.fn f).queue g).work.map fun a => if a.pos = pos then h a else a := by
  simp [Chip.modAdm, Chip.modQueue, Func.queue_setQueue_self]

theorem Chip.modAdm_fn_ne {f o : Nat} (g pos : Nat) (h : Adm → Adm) (other : o ≠ f) : (c.modAdm f g pos h).fn o = c.fn o :=
  c.fn_modFn_ne _ other

/-- The completion of an item of a host entry gives back its staging and its cells, and then counts against its entry (R193, R382). -/
theorem Chip.completeItem_host (host : i.source = 0) (e landed : Nat) :
    c.completeItem e i code detail landed = ((c.giveBack 1 (stgBlocks i.room)).giveBack 0 i.cells).hostItemDone i code detail := by
  simp only [Chip.completeItem, host]

end

/-- Settles O15: CMPL by its equations, and the entry of a host item by that of its completion. -/
theorem itemsComplete : Obligations.ItemsComplete := by
  unfold Obligations.ItemsComplete
  refine ⟨?cmpl, ?host⟩
  case cmpl =>
    intro s e r d a b x h st c
    refine ⟨fun hd => by simpa [Instr.wf] using fun _ => hd,
      fun ready => ⟨fun i _ same found byte free => ⟨?_, ?_⟩, exec_cmpl_handle ready, exec_cmpl_status ready⟩⟩
    · exact exec_cmpl ready rfl rfl same found byte free
    · exact Chip.untaken_run ready.1 h
  case host =>
    intro c e i code detail landed host f g t
    have done : t = ((c.giveBack 1 (stgBlocks i.room)).giveBack 0 i.cells).modAdm f g i.pos fun a => a.itemDone i code detail := by
      rw [← Chip.hostItemDone_eq]
      exact c.completeItem_host i code detail host e landed
    rw [done]
    exact ⟨rfl, fun o other => Chip.modAdm_fn_ne _ g i.pos _ other, Chip.modAdm_work _ f g i.pos _⟩

end Sys2Proof.Machine
end

section
/-! Settles O18: WAITE and WAITT with their limits, PEND and CLRE (R196–R203), then a pulse as it reaches one engine and all of them (R220–R223). -/

namespace Sys2Proof.Machine

/-! ## WAITE, PEND and CLRE -/

section
variable {s : State} {e : Eng} {r : Run} {d : BitVec 5} {line : BitVec 8} {lim : BitVec 13}

/-- WAITE takes a pending pulse (R196). -/
theorem exec_waite_event (h : s.chip.ready e r (.waite e d line lim)) {n : Nat} (hn : (s.chip.eng e).getPend line.toNat = n) (pending : 0 < n) :
    exec (.waite e d line lim) s = .next (s.retire e fun y => (y.setPend line.toNat (n - 1)).setG d.toNat 0) := by
  refine issue_retire h rfl _ _ ?_
  subst hn
  rw [Chip.eng_closed]
  exact (if_pos (by exact pending)).trans (congrArg _ (Chip.modEng_modEng ..))

theorem exec_waite_limit (h : s.chip.ready e r (.waite e d line lim)) (idle : (s.chip.eng e).getPend line.toNat = 0) (now : lim = 0) :
    exec (.waite e d line lim) s = .next (s.wroteG e d 1) := by
  refine issue_retG h rfl _ d 1 ?_
  rw [Chip.eng_closed]
  exact (if_neg (by exact Nat.not_lt.mpr (Nat.le_of_eq idle))).trans (if_pos now)

theorem exec_waite_waits (h : s.chip.ready e r (.waite e d line lim)) (idle : (s.chip.eng e).getPend line.toNat = 0) (later : lim ≠ 0) :
    exec (.waite e d line lim) s = .next (s.waits e (.waite d.toNat line.toNat)) := by
  refine issue_waits h rfl _ _ ?_
  rw [Chip.eng_closed]
  exact (if_neg (by exact Nat.not_lt.mpr (Nat.le_of_eq idle))).trans (if_neg later)

theorem exec_waiteLimit (clocked : s.chip.clocked = true) {k l : Nat} (waits : (s.chip.eng e).wait = some (.waite k l)) :
    exec (.waiteLimit e) s = .next (s.put (s.chip.setEng e ((s.chip.eng e).wake k 1))) := by
  refine (onChip_clocked _ clocked).trans (congrArg _ (congrArg s.put ?_))
  simp only [waiteLimitOp, waits, Chip.modEng]

end

/-! ## WAITT -/

/-- A write of gd and the anchored run do not meet. -/
theorem Engine.setG_with_anchor (x : Engine) (o : Option (Nat × Nat)) (d : Nat) (v : W64) :
    ({ x with anchor := o } : Engine).setG d v = { x.setG d v with anchor := o } := by
  unfold Engine.setG
  split <;> rfl

section
variable {s : State} {e : Eng} {r : Run} {d a : BitVec 5} {lim : BitVec 13} {t : Nat}
  (h : s.chip.ready e r (.waitt e d a lim)) (ht : ((s.chip.eng e).getG a.toNat).toNat / 2 ^ 16 = t)
include h

theorem exec_waitt_invalid (invalid : s.chip.timeValid = false) : exec (.waitt e d a lim) s = .next (s.wroteG e d 4) := by
  refine issue_retG h rfl _ d 4 ?_
  exact if_pos (by exact congrArg (!·) invalid)

variable (valid : s.chip.timeValid = true)
include ht valid

theorem exec_waitt_late (behind : timeDiff t s.chip.nowNs < 0) : exec (.waitt e d a lim) s = .next (s.wroteG e d 1) := by
  subst ht
  refine issue_retG h rfl _ d 1 ?_
  rw [Chip.eng_closed]
  exact (if_neg (by exact fun k => Bool.noConfusion (k.symm.trans (congrArg (!·) valid)))).trans (if_pos behind)

/-- WAITT at its target opens an anchored run (R199, R212). -/
theorem exec_waitt_onTime (reached : timeDiff t s.chip.nowNs = 0) : exec (.waitt e d a lim) s =
    .next (s.put (s.chip.setEng e { ((s.chip.eng e).setG d.toNat 0).advance with anchor := some (t, 0) })) := by
  subst ht
  have notBehind : ¬ timeDiff (((s.chip.eng e).getG a.toNat).toNat / 2 ^ 16) s.chip.nowNs < 0 := by omega
  refine Chip.issue_ok h rfl _ _ ?_
  rw [Chip.eng_setEng_self]
  refine (if_neg (by exact fun k => Bool.noConfusion (k.symm.trans (congrArg (!·) valid)))).trans
    ((if_neg notBehind).trans ((if_pos reached).trans (congrArg _ ?_)))
  rw [Chip.retG, Chip.modEng_setEng, Chip.modEng_setEng, Engine.setG_with_anchor]
  rfl

variable (ahead : 0 < timeDiff t s.chip.nowNs)
include ahead

theorem exec_waitt_limit (stripe : e.val < 16) (now : lim = 0) : exec (.waitt e d a lim) s = .next (s.wroteG e d 3) := by
  subst ht
  refine issue_retG h rfl _ d 3 ?_
  rw [Chip.eng_closed]
  exact (if_neg (by exact fun k => Bool.noConfusion (k.symm.trans (congrArg (!·) valid)))).trans
    ((if_neg (Int.not_lt.mpr (Int.le_of_lt ahead))).trans ((if_neg (Int.ne_of_gt ahead)).trans (if_pos ⟨decide_eq_true stripe, now⟩)))

theorem exec_waitt_waits (mayWait : 16 ≤ e.val ∨ lim ≠ 0) : exec (.waitt e d a lim) s = .next (s.waits e (.waitt d.toNat t)) := by
  subst ht
  refine issue_waits h rfl _ _ ?_
  rw [Chip.eng_closed]
  have stays : ¬ (e.isSe = true ∧ lim = 0) := fun ⟨stripe, now⟩ =>
    mayWait.elim (Nat.not_le.mpr (of_decide_eq_true stripe)) (fun later => later now)
  exact (if_neg (by exact fun k => Bool.noConfusion (k.symm.trans (congrArg (!·) valid)))).trans
    ((if_neg (Int.not_lt.mpr (Int.le_of_lt ahead))).trans ((if_neg (Int.ne_of_gt ahead)).trans (if_neg stays)))

end

/-- Time that passes changes the time base alone. -/
theorem Chip.passTo_engines (c : Chip) (t : Nat) : (c.passTo t).engines = c.engines := by
  simp only [Chip.passTo, apply_ite Chip.engines, ite_self]

theorem Chip.eng_passTo (c : Chip) (t e : Nat) : (c.passTo t).eng e = c.eng e := by
  rw [Chip.eng, Chip.passTo_engines]; rfl

section
variable {s : State} {e : Eng} (clocked : s.chip.clocked = true) {k u : Nat} (waits : (s.chip.eng e).wait = some (.waitt k u))
include clocked waits

theorem exec_waittOnTime : exec (.waittOnTime e) s =
    .next (s.put ((s.chip.passTo u).setEng e { ((s.chip.eng e).setG k 0).advance with wait := none, anchor := some (u, 0) })) := by
  refine (onChip_clocked _ clocked).trans (congrArg _ (congrArg s.put ?_))
  simp only [waittOnTimeOp, waits, Chip.modEng, Chip.eng_passTo]
  rfl

theorem exec_waittLimit (stripe : e.val < 16) : exec (.waittLimit e) s = .next (s.put (s.chip.setEng e ((s.chip.eng e).wake k 3))) := by
  refine (onChip_clocked _ clocked).trans (congrArg _ (congrArg s.put ?_))
  simp only [waittLimitOp, waits, Chip.modEng]
  exact if_pos (decide_eq_true stripe)

end

/-! ## Pulses -/

/-- What a pulse of a line makes of an engine whose count is not saturated (R196, R223). -/
def Engine.pulsed (x : Engine) (line : Nat) : Engine :=
  match x.wait with
  | some (.waite d l) => if l = line then x.wake d 0 else x.setPend line (x.getPend line + 1)
  | _ => x.setPend line (x.getPend line + 1)

theorem Engine.pulsed_waiting {x : Engine} {d line : Nat} (waits : x.wait = some (.waite d line)) : x.pulsed line = x.wake d 0 := by
  simp [Engine.pulsed, waits]

theorem Engine.pulsed_counting {x : Engine} {line : Nat} (other : ∀ d, x.wait ≠ some (.waite d line)) :
    x.pulsed line = x.setPend line (x.getPend line + 1) := by
  unfold Engine.pulsed
  split
  next d l waits => rw [if_neg fun same : l = line => other d (same ▸ waits)]
  next => rfl

theorem Chip.pulseTo_eq {c : Chip} {line e : Nat} (room : (c.eng e).getPend line < 65535) :
    c.pulseTo line e = c.setEng e ((c.eng e).pulsed line) := by
  by_cases waiting : ∃ d, (c.eng e).wait = some (.waite d line)
  · obtain ⟨d, waits⟩ := waiting
    simp [Chip.pulseTo, waits, Engine.pulsed_waiting waits, Chip.modEng]
  · rw [Engine.pulsed_counting (not_exists.mp waiting)]
    simp only [Chip.pulseTo, if_pos room]
    split
    next d l waits => exact if_neg fun same : l = line => waiting ⟨d, same ▸ waits⟩
    next => rfl

/-- A pulse that reaches a list of engines, each once. -/
theorem Chip.pulseTo_foldl (line : Nat) (es : List Nat) (distinct : es.Nodup) (c : Chip) (room : ∀ e ∈ es, (c.eng e).getPend line < 65535) :
    (∃ t, es.foldl (fun c e => c.pulseTo line e) c = { c with engines := t }) ∧
      ∀ e, (es.foldl (fun c e => c.pulseTo line e) c).eng e = if e ∈ es then (c.eng e).pulsed line else c.eng e := by
  induction es generalizing c with
  | nil => exact ⟨⟨_, rfl⟩, fun _ => rfl⟩
  | cons e es ih =>
    obtain ⟨fresh, distinct⟩ := List.nodup_cons.mp distinct
    have first := Chip.pulseTo_eq (room e (by simp))
    have other {o : Nat} (h : o ∈ es) : (c.pulseTo line e).eng o = c.eng o := by
      rw [first, Chip.eng_setEng_ne _ _ fun same : o = e => fresh (same ▸ h)]
    obtain ⟨⟨t, frame⟩, each⟩ := ih distinct (c.pulseTo line e) fun o ho => by rw [other ho]; exact room o (by simp [ho])
    refine ⟨⟨t, ?_⟩, fun o => ?_⟩
    · rw [List.foldl_cons, frame, first]; rfl
    · rw [List.foldl_cons, each o]
      by_cases same : o = e
      · subst same
        simp [fresh, first]
      · by_cases later : o ∈ es
        · simp [later, other later]
        · simp [later, same, first, Chip.eng_setEng_ne _ _ same]

/-- The oldest pulse reaches every engine (R220). -/
theorem exec_eventPulseArrive {s : State} (clocked : s.chip.clocked = true) {l : Nat} {rest : List Nat} (pulses : s.chip.pulses = l :: rest)
    (room : ∀ e : Eng, (s.chip.eng e).getPend l < 65535) :
    ∃ t, exec .eventPulseArrive s = .next (s.put { s.chip with pulses := rest, engines := t }) ∧
      ∀ e : Eng, ({ s.chip with pulses := rest, engines := t } : Chip).eng e = (s.chip.eng e).pulsed l := by
  obtain ⟨⟨t, frame⟩, each⟩ := Chip.pulseTo_foldl l (List.range 20) List.nodup_range { s.chip with pulses := rest }
    fun e he => room ⟨e, List.mem_range.mp he⟩
  refine ⟨t, (onChip_clocked _ clocked).trans ?_, fun e => ?_⟩
  · rw [eventPulseArriveOp, pulses]
    exact congrArg _ (congrArg s.put frame)
  · have := each e
    rw [frame, if_pos (List.mem_range.mpr e.isLt)] at this
    exact this

/-- Settles O18: each outcome of the two waits and of their limits, the counts, and the pulse. -/
theorem engineWaits : Obligations.EngineWaits := by
  unfold Obligations.EngineWaits
  refine ⟨?waite, ?waitt, ?pulse⟩
  case waite =>
    intro s e r d line lim x n
    exact ⟨fun h pending => exec_waite_event h rfl pending, exec_waite_limit, exec_waite_waits, fun k l clocked waits => exec_waiteLimit clocked waits,
      fun h => issueG_ready h rfl d _ rfl, fun h => (Chip.issueReg_ready h rfl _).trans (congrArg _ (State.retire_congr rfl))⟩
  case waitt =>
    intro s e r d a lim x t df i
    exact ⟨exec_waitt_invalid, fun h => exec_waitt_late h rfl, fun h => exec_waitt_onTime h rfl, fun h => exec_waitt_limit h rfl,
      fun h => exec_waitt_waits h rfl, fun k u clocked waits => exec_waittOnTime clocked waits, fun k u clocked waits => exec_waittLimit clocked waits⟩
  case pulse =>
    intro s l rest clocked pulses room
    obtain ⟨t, runs, each⟩ := exec_eventPulseArrive clocked pulses room
    refine ⟨_, runs, rfl, rfl, fun e => ⟨fun d waits => ?_, fun other => ?_⟩⟩
    · exact (each e).trans (Engine.pulsed_waiting waits)
    · exact (each e).trans (Engine.pulsed_counting other)

end Sys2Proof.Machine
end

section
/-! Settles O19: RDT and CSRR by their values, END, FAULT and NOP by their outcomes (R205, R215–R217, R224). -/

namespace Sys2Proof.Machine

section
variable {s : State} {e : Eng} {r : Run} {d : BitVec 5} {imm : BitVec 16}

theorem exec_csrr {sel : BitVec 5} (h : s.chip.ready e r (.csrr e d sel 0)) {v : Nat} (value : (s.chip.closed e).csr e sel.toNat = v) :
    exec (.csrr e d sel 0) s = .next (s.wroteG e d (BitVec.ofNat 64 v)) := by
  subst value
  exact issue_retG h rfl _ d _ rfl

/-- END leaves a stripe engine idle (R215). -/
theorem exec_endP_stripe (h : s.chip.ready e r (.endP e imm)) (stripe : e.val < 16) (done : r.taken = []) :
    exec (.endP e imm) s = .next (s.put (s.chip.setEng e { s.chip.eng e with anchor := none, run := none, loops := [] })) := by
  refine Chip.issue_ok h rfl _ _ ?_
  rw [Chip.modEng_setEng]
  exact (if_pos (decide_eq_true stripe)).trans (if_pos (by rw [done]; rfl))

/-- END with a taken item not completed faults (R216). -/
theorem exec_endP_open (h : s.chip.ready e r (.endP e imm)) (stripe : e.val < 16) (holds : r.taken ≠ []) :
    exec (.endP e imm) s = .next (s.faults e (.endP e imm) 9 0) :=
  issue_faults h rfl _ _ _ ((if_pos (decide_eq_true stripe)).trans (if_neg (by exact fun empty => holds (List.isEmpty_iff.mp empty))))

/-- END on a Treadle engine waits for the next cycle start (R217). -/
theorem exec_endP_treadle (h : s.chip.ready e r (.endP e imm)) (treadle : 16 ≤ e.val) : exec (.endP e imm) s = .next (s.waits e .cycle) :=
  issue_waits h rfl _ _ (if_neg (by exact fun stripe => Nat.not_le.mpr (of_decide_eq_true stripe) treadle))

end

/-- A condition on stripe engines as a proposition. -/
theorem ite_isSe {α : Type} (e : Eng) (u v : α) : (if e.isSe then u else v) = if e.val < 16 then u else v := by
  simp only [Eng.isSe, decide_eq_true_eq]

/-- Settles O19: each selector's value, then the outcomes of END, FAULT and NOP. -/
theorem engineStatusAndEnd : Obligations.EngineStatusAndEnd := by
  unfold Obligations.EngineStatusAndEnd
  refine ⟨?status, ?ends⟩
  case status =>
    intro s e r d x rd lidx
    have closed : (s.chip.closed e).eng e = { x with anchor := none } := s.chip.eng_closed e
    have level (i : Nat) : (((s.chip.closed e).eng e).loops[i]?.map (·.index)).getD 0 = lidx i := by
      rw [closed]
      change (x.loops[i]?.map (·.index)).getD 0 = match x.loops[i]? with | some l => l.index | none => 0
      cases x.loops[i]? <;> rfl
    refine ⟨fun h => issue_retG h rfl _ d _ rfl, fun h => exec_csrr h ?_, fun h => exec_csrr h ?_, fun h => exec_csrr h rfl,
      fun h => exec_csrr h (level 0), fun h => exec_csrr h (level 1), fun h => exec_csrr h (level 2), fun h => exec_csrr h (level 3),
      fun h => exec_csrr h rfl, fun h => exec_csrr h rfl, fun h => exec_csrr h ?_, fun h => exec_csrr h ?_, fun h => exec_csrr h ?_, fun a b bad => ?_⟩
    · exact (ite_isSe ..).trans (by rw [Nat.add_comm])
    · rfl
    · exact (ite_isSe ..).trans (by rw [closed])
    · exact (ite_isSe ..).trans (by rw [closed])
    · exact (ite_isSe ..).trans (by rw [closed])
    · simp only [Instr.wf, Bool.and_eq_false_iff, decide_eq_false_iff_not, beq_eq_false_iff_ne, Nat.not_lt]
      exact bad
  case ends =>
    intro s e r imm x
    exact ⟨exec_endP_stripe, exec_endP_open, exec_endP_treadle, fun h => issue_faults h rfl _ _ _ rfl, fun h => Chip.issueReg_ready h rfl _⟩

end Sys2Proof.Machine
end

section
/-! Settles O20: what each action does (R206–R210), an action that is anchored or takes effect at once (R212–R214), and an anchored one at its target
(R212, R585). -/

namespace Sys2Proof.Machine

/-! ## The actions -/

/-- GATE opens or closes the classes of its mask and leaves the others (R206). -/
theorem gateBits_bit (old n : Nat) {tc : Nat} (h : tc < 8) :
    bitAt (gateBits old n) tc = if bitAt n tc then bitAt n (8 + tc) else bitAt old tc := by
  have mask : (n % 256).testBit tc = n.testBit tc := by rw [show 256 = 2 ^ 8 from rfl, Nat.testBit_mod_two_pow]; simp [h]
  have others : (255 - n % 256).testBit tc = !n.testBit tc := by
    rw [show 255 - n % 256 = 2 ^ 8 - (n % 256 + 1) by omega, Nat.testBit_two_pow_sub_succ (Nat.mod_lt n (by decide)), mask]
    simp [h]
  have opens : (n / 256 % 256).testBit tc = n.testBit (8 + tc) := by
    rw [show 256 = 2 ^ 8 from rfl, Nat.testBit_mod_two_pow, Nat.testBit_div_two_pow, Nat.add_comm tc]
    simp [h]
  simp only [bitAt_eq_testBit, gateBits, Nat.testBit_or, Nat.testBit_and, mask, others, opens]
  cases n.testBit tc <;> simp

section
variable (c : Chip) (e : Eng)

/-- A request changes nothing where no unit is gated (R808). -/
theorem Chip.request_awake (mask : Nat) (gated : c.pwr.gated = 0) : c.request mask = c := by
  have same : c.pwr.waking ||| (mask &&& c.pwr.gated) = c.pwr.waking := by rw [gated, Nat.and_zero, Nat.or_zero]
  rw [Chip.request, same]

/-- WAKE of units that are all awake pulses line 0xEF at once (R208). -/
theorem Chip.wake_awake (g : Nat) (waking : c.pwr.waking = 0) (gated : c.pwr.gated = 0) : c.actOn e (.wake g false) =
    (c.setPort (e.val - 16) { c.port (e.val - 16) with wakes := tinsert (terase (c.port (e.val - 16)).wakes g) g c.nowNs }).pulse 0xEF := by
  have awake := Chip.request_awake (c.modPort (e.val - 16) fun x => { x with wakes := tinsert (terase x.wakes g) g c.nowNs }) (c.groupMask g) gated
  have clear : (c.modPort (e.val - 16) fun x => { x with wakes := tinsert (terase x.wakes g) g c.nowNs }).pwr.waking &&& c.groupMask g = 0 := by
    rw [Chip.modPort_pwr, waking, Nat.zero_and]
  unfold Chip.actOn
  dsimp only
  rw [if_neg (by decide), awake]
  exact if_pos clear

end

section
variable {s : State} {e : Eng} {r : Run} {i : Instr}

/-- An action outside an anchored run, or the ninth of its run, takes effect at once (R212, R214). -/
theorem act_now (h : s.chip.ready e r i) (keeps : anchorable i = true) (now : ((s.chip.eng e).anchor.all fun a => decide (8 ≤ a.2)) = true)
    (a : Action) : onChip (fun c => c.act e i a) s = .next (s.put ((s.chip.advanced e).actOn e a)) := by
  refine (onChip_clocked _ (Chip.executes_clocked h.2.1)).trans (congrArg _ (congrArg s.put ?_))
  rw [Chip.act, Chip.issue_ready h, if_pos keeps]
  cases run : (s.chip.eng e).anchor with
  | none => rfl
  | some p =>
    obtain ⟨t, n⟩ := p
    have ninth : 8 ≤ n := by simpa [run] using now
    simp only [if_neg (Nat.not_lt.mpr ninth)]
    rfl

/-- One of the first eight actions of an open anchored run waits for the run's target (R212, R214). -/
theorem act_anchored (h : s.chip.ready e r i) (keeps : anchorable i = true) {t k : Nat} (run : (s.chip.eng e).anchor = some (t, k)) (room : k < 8)
    (a : Action) : onChip (fun c => c.act e i a) s = .next (s.put (s.chip.setEng e
      ({ s.chip.eng e with actions := (s.chip.eng e).actions ++ [(t, a)], anchor := some (t, k + 1) } : Engine).advance)) := by
  refine (onChip_clocked _ (Chip.executes_clocked h.2.1)).trans (congrArg _ (congrArg s.put ?_))
  rw [Chip.act, Chip.issue_ready h, if_pos keeps, run]
  simp only [if_pos room]
  rfl

end

/-! ## An anchored action at its target -/

section
variable {s : State} {e : Eng} {dev t : Nat} {a : Action} {rest : List (Nat × Action)}

/-- The machine once the oldest anchored action of engine `e` has taken effect at its target `t` (R212). -/
def Chip.anchoredDone (c : Chip) (e : Eng) (t : Nat) (a : Action) (rest : List (Nat × Action)) : Chip :=
  ((c.passTo t).modEng e fun x => { x with actions := rest }).actOn e a

/-- The largest deviation of a port (R585). -/
def Chip.noteDeviation (c : Chip) (p dev : Nat) : Chip :=
  { c with grd := { c.grd with devMax := tput c.grd.devMax 0 p (max (tget c.grd.devMax 0 p) dev) } }

variable (clocked : s.chip.clocked = true) (oldest : (s.chip.eng e).actions = (t, a) :: rest)
include clocked oldest

theorem exec_anchoredAction_stripe (stripe : e.val < 16) : exec (.anchoredAction e dev) s = .next (s.put (s.chip.anchoredDone e t a rest)) := by
  refine (onChip_clocked _ clocked).trans (congrArg _ (congrArg s.put ?_))
  simp only [anchoredActionOp, oldest]
  exact if_pos (decide_eq_true stripe)

theorem exec_anchoredAction_treadle (treadle : 16 ≤ e.val) : exec (.anchoredAction e dev) s = .next (s.put (
    let c := (s.chip.anchoredDone e t a rest).noteDeviation (e.val - 16) (min 65535 dev)
    if 50 < dev then c.deviation (e.val - 16) else c)) := by
  refine (onChip_clocked _ clocked).trans (congrArg _ (congrArg s.put ?_))
  simp only [anchoredActionOp, oldest]
  exact if_neg (by exact fun stripe => Nat.not_le.mpr (of_decide_eq_true stripe) treadle)

end

/-- Settles O20: each action where it takes effect at once, the five of an anchored run together, and the anchored one at its target. -/
theorem engineActions : Obligations.EngineActions := by
  unfold Obligations.EngineActions
  refine ⟨?now, ?anchored, ?target⟩
  case now =>
    intro s e r imm x c p n now
    refine ⟨fun h => ⟨_, act_now h rfl now _, fun tc => gateBits_bit _ n⟩, fun h => ?_, fun h release => ?_, fun h claim waking gated => ?_,
      fun h stripe => ?_, fun h treadle other => ?_, fun h treadle (gap : imm.toNat = 7) => ?_, fun h => act_now h rfl now _⟩
    · have small : n < 2 := of_decide_eq_true (Bool.and_eq_true_iff.mp (Chip.wf_of_ready h)).2
      have on : (n % 2 == 1) = decide (n = 1) := by rw [Nat.mod_eq_of_lt small]; rfl
      rw [← on]
      exact ⟨_, act_now h rfl now _⟩
    · have wf := Chip.wf_of_ready h
      simp only [Instr.wf, Bool.and_eq_true, decide_eq_true_eq] at wf
      have released : bitAt n 8 = true := beq_iff_eq.mpr (by omega)
      refine (act_now h rfl now _).trans (congrArg _ (congrArg s.put ?_))
      exact if_pos released
    · have wf := Chip.wf_of_ready h
      simp only [Instr.wf, Bool.and_eq_true, decide_eq_true_eq] at wf
      have claims : bitAt n 8 = false := beq_eq_false_iff_ne.mpr (by omega)
      have group : n % 16 = n := by omega
      refine (act_now h rfl now _).trans (congrArg _ (congrArg s.put ?_))
      rw [group, claims]
      exact c.wake_awake e n waking gated
    · exact (act_now h rfl now _).trans (congrArg _ (congrArg s.put (if_pos stripe)))
    · exact (act_now h rfl now _).trans (congrArg _ (congrArg s.put ((if_neg (Nat.not_lt.mpr treadle)).trans (if_neg other))))
    · exact (act_now h rfl now _).trans (congrArg _ (congrArg s.put ((if_neg (Nat.not_lt.mpr treadle)).trans
        ((if_pos gap).trans (by rw [gap]; rfl)))))
  case anchored =>
    intro s e r imm t k x run room
    refine ⟨fun q hq ready => ?_, fun h => ⟨_, Chip.issueReg_ready h rfl _, ?_⟩⟩
    · simp only [List.mem_cons, List.not_mem_nil, or_false] at hq
      rcases hq with rfl | rfl | rfl | rfl | rfl
      all_goals exact act_anchored ready rfl run room _
    · rw [State.eng_retire_self]; rfl
  case target =>
    intro s e dev t a rest clocked oldest c p
    refine ⟨exec_anchoredAction_stripe clocked oldest, fun treadle small => ?_, fun treadle big => ?_⟩
    · rw [exec_anchoredAction_treadle clocked oldest treadle, Nat.min_eq_right (by omega)]
      exact congrArg _ (congrArg s.put (if_neg (Nat.not_lt.mpr small)))
    · rw [exec_anchoredAction_treadle clocked oldest treadle]
      exact congrArg _ (congrArg s.put (if_pos big))

end Sys2Proof.Machine
end

section
/-! Settles O6: the fields of a word of each format, then the decoder on the word of each instruction, format by format (R153–R168). -/

namespace Sys2Proof

open BitVec (extractLsb'_append_eq_of_le extractLsb'_append_eq_of_add_le extractLsb'_append_eq_left extractLsb'_append_eq_right)

/-! ## The fields of a word -/

/-- A field above the lowest part of a word is a field of the rest of it. -/
theorem field_above {v w lo n : Nat} {x : BitVec v} {y : BitVec w} {z : BitVec n} (h : w ≤ lo) (hx : x.extractLsb' (lo - w) n = z) :
    (x ++ y).extractLsb' lo n = z := (extractLsb'_append_eq_of_le h).trans hx

section
variable (op : BitVec 6) (d a b : BitVec 5)

theorem wordG_fields (fn : BitVec 11) :
    (wordG op d a b fn).extractLsb' 26 6 = op ∧ (wordG op d a b fn).extractLsb' 21 5 = d ∧ (wordG op d a b fn).extractLsb' 16 5 = a ∧
      (wordG op d a b fn).extractLsb' 11 5 = b ∧ (wordG op d a b fn).extractLsb' 0 11 = fn := by
  refine ⟨?_, ?_, ?_, ?_, extractLsb'_append_eq_right⟩
  · exact field_above (by decide) <| field_above (by decide) <| field_above (by decide) <| extractLsb'_append_eq_left
  · exact field_above (by decide) <| field_above (by decide) <| field_above (by decide) <| extractLsb'_append_eq_right
  · exact field_above (by decide) <| field_above (by decide) <| extractLsb'_append_eq_right
  · exact field_above (by decide) <| extractLsb'_append_eq_right

/-- A part of FN. -/
theorem wordG_part (fn : BitVec 11) {lo n : Nat} (h : lo + n ≤ 11) : (wordG op d a b fn).extractLsb' lo n = fn.extractLsb' lo n :=
  extractLsb'_append_eq_of_add_le h

theorem wordI_fields (imm : BitVec 16) :
    (wordI op d a imm).extractLsb' 26 6 = op ∧ (wordI op d a imm).extractLsb' 21 5 = d ∧ (wordI op d a imm).extractLsb' 16 5 = a ∧
      (wordI op d a imm).extractLsb' 0 16 = imm := by
  refine ⟨?_, ?_, ?_, extractLsb'_append_eq_right⟩
  · exact field_above (by decide) <| field_above (by decide) <| extractLsb'_append_eq_left
  · exact field_above (by decide) <| field_above (by decide) <| extractLsb'_append_eq_right
  · exact field_above (by decide) <| extractLsb'_append_eq_right

theorem wordM_fields (sz : BitVec 2) (off : BitVec 14) :
    (wordM op d a sz off).extractLsb' 26 6 = op ∧ (wordM op d a sz off).extractLsb' 21 5 = d ∧ (wordM op d a sz off).extractLsb' 16 5 = a ∧
      (wordM op d a sz off).extractLsb' 14 2 = sz ∧ (wordM op d a sz off).extractLsb' 0 14 = off := by
  refine ⟨?_, ?_, ?_, ?_, extractLsb'_append_eq_right⟩
  · exact field_above (by decide) <| field_above (by decide) <| field_above (by decide) <| extractLsb'_append_eq_left
  · exact field_above (by decide) <| field_above (by decide) <| field_above (by decide) <| extractLsb'_append_eq_right
  · exact field_above (by decide) <| field_above (by decide) <| extractLsb'_append_eq_right
  · exact field_above (by decide) <| extractLsb'_append_eq_right

theorem wordB_fields (sense : BitVec 1) (p : BitVec 3) (off : BitVec 16) :
    (wordB op sense p off).extractLsb' 26 6 = op ∧ (wordB op sense p off).extractLsb' 25 1 = sense ∧ (wordB op sense p off).extractLsb' 22 3 = p ∧
      (wordB op sense p off).extractLsb' 16 6 = 0 ∧ (wordB op sense p off).extractLsb' 0 16 = off := by
  refine ⟨?_, ?_, ?_, ?_, extractLsb'_append_eq_right⟩
  · exact field_above (by decide) <| field_above (by decide) <| field_above (by decide) <| extractLsb'_append_eq_left
  · exact field_above (by decide) <| field_above (by decide) <| field_above (by decide) <| extractLsb'_append_eq_right
  · exact field_above (by decide) <| field_above (by decide) <| extractLsb'_append_eq_right
  · exact field_above (by decide) <| extractLsb'_append_eq_right

theorem wordL_fields (bound : BitVec 13) (len : BitVec 8) :
    (wordL op d bound len).extractLsb' 26 6 = op ∧ (wordL op d bound len).extractLsb' 21 5 = d ∧
      (wordL op d bound len).extractLsb' 8 13 = bound ∧ (wordL op d bound len).extractLsb' 0 8 = len := by
  refine ⟨?_, ?_, ?_, extractLsb'_append_eq_right⟩
  · exact field_above (by decide) <| field_above (by decide) <| extractLsb'_append_eq_left
  · exact field_above (by decide) <| field_above (by decide) <| extractLsb'_append_eq_right
  · exact field_above (by decide) <| extractLsb'_append_eq_right

theorem wordV_fields (vd va vb : BitVec 4) (g : BitVec 5) (fn : BitVec 9) :
    (wordV op vd va vb g fn).extractLsb' 26 6 = op ∧ (wordV op vd va vb g fn).extractLsb' 22 4 = vd ∧
      (wordV op vd va vb g fn).extractLsb' 18 4 = va ∧ (wordV op vd va vb g fn).extractLsb' 14 4 = vb ∧
      (wordV op vd va vb g fn).extractLsb' 9 5 = g ∧ (wordV op vd va vb g fn).extractLsb' 0 9 = fn := by
  refine ⟨?_, ?_, ?_, ?_, ?_, extractLsb'_append_eq_right⟩
  · exact field_above (by decide) <| field_above (by decide) <| field_above (by decide) <| field_above (by decide) <| extractLsb'_append_eq_left
  · exact field_above (by decide) <| field_above (by decide) <| field_above (by decide) <| field_above (by decide) <| extractLsb'_append_eq_right
  · exact field_above (by decide) <| field_above (by decide) <| field_above (by decide) <| extractLsb'_append_eq_right
  · exact field_above (by decide) <| field_above (by decide) <| extractLsb'_append_eq_right
  · exact field_above (by decide) <| extractLsb'_append_eq_right

theorem wordE_fields (line : BitVec 8) (lim : BitVec 13) :
    (wordE op d line lim).extractLsb' 26 6 = op ∧ (wordE op d line lim).extractLsb' 21 5 = d ∧
      (wordE op d line lim).extractLsb' 13 8 = line ∧ (wordE op d line lim).extractLsb' 0 13 = lim := by
  refine ⟨?_, ?_, ?_, extractLsb'_append_eq_right⟩
  · exact field_above (by decide) <| field_above (by decide) <| extractLsb'_append_eq_left
  · exact field_above (by decide) <| field_above (by decide) <| extractLsb'_append_eq_right
  · exact field_above (by decide) <| extractLsb'_append_eq_right

theorem wordW_fields (lim : BitVec 13) :
    (wordW op d a lim).extractLsb' 26 6 = op ∧ (wordW op d a lim).extractLsb' 21 5 = d ∧ (wordW op d a lim).extractLsb' 16 5 = a ∧
      (wordW op d a lim).extractLsb' 13 3 = 0 ∧ (wordW op d a lim).extractLsb' 0 13 = lim := by
  refine ⟨?_, ?_, ?_, ?_, extractLsb'_append_eq_right⟩
  · exact field_above (by decide) <| field_above (by decide) <| field_above (by decide) <| extractLsb'_append_eq_left
  · exact field_above (by decide) <| field_above (by decide) <| field_above (by decide) <| extractLsb'_append_eq_right
  · exact field_above (by decide) <| field_above (by decide) <| extractLsb'_append_eq_right
  · exact field_above (by decide) <| extractLsb'_append_eq_right

theorem wordT_fields (imm : BitVec 16) :
    (wordT op imm).extractLsb' 26 6 = op ∧ (wordT op imm).extractLsb' 16 10 = 0 ∧ (wordT op imm).extractLsb' 0 16 = imm := by
  refine ⟨?_, ?_, extractLsb'_append_eq_right⟩
  · exact field_above (by decide) <| extractLsb'_append_eq_left
  · exact field_above (by decide) <| extractLsb'_append_eq_right

end

/-- A single bit of a word as a field of one bit. -/
theorem getLsbD_of_field {n : Nat} {w : BitVec n} {i : Nat} {x : Bool} (h : w.extractLsb' i 1 = BitVec.ofBool x) : w.getLsbD i = x := by
  have bit := congrArg (fun v => BitVec.getLsbD v 0) h
  simpa [BitVec.getLsbD_ofBool] using bit

/-! ## The decoder on the words with a field inside FN -/

section
variable (e : Eng) (d a b : BitVec 5)

/-- SEL keeps its predicate in the low bits of FN (R157). -/
theorem decodeFields_sel (p : BitVec 3) : decodeFields e (wordG 1 d a b ((2 : BitVec 8) ++ p)) = some (.sel e d a b p) := by
  have value : ((2 : BitVec 8) ++ p).toNat = 16 + p.toNat := by revert p; decide
  have group : (wordG 1 d a b ((2 : BitVec 8) ++ p)).extractLsb' 3 8 = 2 := (wordG_part 1 d a b _ (by decide)).trans extractLsb'_append_eq_left
  have pred : (wordG 1 d a b ((2 : BitVec 8) ++ p)).extractLsb' 0 3 = p := (wordG_part 1 d a b _ (by decide)).trans extractLsb'_append_eq_right
  obtain ⟨hop, hd, ha, hb, hfn⟩ := wordG_fields 1 d a b ((2 : BitVec 8) ++ p)
  rw [decodeFields, hop, hfn, value, group, pred, hd, ha, hb]
  have small := p.isLt
  interval_cases p.toNat <;> rfl

/-- The fields of SYNDB inside FN (R168). -/
theorem decodeFields_syndb (c : BitVec 5) (mode : BitVec 2) (ssp dsp : Bool) :
    decodeFields e (wordG 0x22 d a b ((0 : BitVec 2) ++ BitVec.ofBool dsp ++ BitVec.ofBool ssp ++ mode ++ c)) = some (.syndb e d a b c mode ssp dsp) := by
  have part {lo n : Nat} (h : lo + n ≤ 11) := wordG_part 0x22 d a b ((0 : BitVec 2) ++ BitVec.ofBool dsp ++ BitVec.ofBool ssp ++ mode ++ c) h
  have zero := (part (lo := 9) (n := 2) (by decide)).trans <| field_above (by decide) <|
    field_above (by decide) <| field_above (by decide) <| extractLsb'_append_eq_left
  have hdsp := (part (lo := 8) (n := 1) (by decide)).trans <| field_above (by decide) <|
    field_above (by decide) <| field_above (by decide) <| extractLsb'_append_eq_right
  have hssp := (part (lo := 7) (n := 1) (by decide)).trans <| field_above (by decide) <| field_above (by decide) <| extractLsb'_append_eq_right
  have hmode := (part (lo := 5) (n := 2) (by decide)).trans <| field_above (by decide) <| extractLsb'_append_eq_right
  have hc := (part (lo := 0) (n := 5) (by decide)).trans extractLsb'_append_eq_right
  obtain ⟨hop, hd, ha, hb, -⟩ := wordG_fields 0x22 d a b ((0 : BitVec 2) ++ BitVec.ofBool dsp ++ BitVec.ofBool ssp ++ mode ++ c)
  rw [decodeFields, hop, zero, hd, ha, hb, hc, hmode, getLsbD_of_field hssp, getLsbD_of_field hdsp]
  rfl

end

/-! ## Every instruction -/

/-- Its OP and FN alone give an instruction back from its word, on the engine that it names (R155–R168). -/
theorem decodeFields_encodeLx {i : Instr} {w : W32} (h : encodeLx i = some w) : ∃ e : Eng, decodeFields e w = some i := by
  cases i
  case add e _ _ _ | sub e _ _ _ | and e _ _ _ | or e _ _ _ | xor e _ _ _ | shl e _ _ _ | shr e _ _ _ | sar e _ _ _ | mul e _ _ _
      | mulhu e _ _ _ | minu e _ _ _ | maxu e _ _ _ | divu e _ _ _ | remu e _ _ _ | eq e _ _ _ | ne e _ _ _ | ltu e _ _ _ | lt e _ _ _
      | geu e _ _ _ | ge e _ _ _ | tlt e _ _ _ | pand e _ _ _ | por e _ _ _ | pnot e _ _ _ | gfmuls e _ _ _ | gfinv e _ _ _
      | gfexp e _ _ _ | gflog e _ _ _ | shut e _ _ _ | take e _ _ _ | jrnl e _ _ _ | mirr e _ _ _ | cmpl e _ _ _ | rdt e _ _ _
      | csrr e _ _ _ =>
    obtain rfl := Option.some.inj h
    obtain ⟨hop, hd, ha, hb, hfn⟩ := wordG_fields .. 
    refine ⟨e, ?_⟩
    rw [decodeFields, hop, hfn, hd, ha, hb]
    rfl
  case sel e d a b p => exact ⟨e, Option.some.inj h ▸ decodeFields_sel e d a b p⟩
  case syndb e d a b c mode ssp dsp => exact ⟨e, Option.some.inj h ▸ decodeFields_syndb e d a b c mode ssp dsp⟩
  case addi e _ _ _ | andi e _ _ _ | ori e _ _ _ | xori e _ _ _ | shli e _ _ _ | shri e _ _ _ | sari e _ _ _ | movi e _ _ _
      | movk e _ _ _ =>
    obtain rfl := Option.some.inj h
    obtain ⟨hop, hd, ha, himm⟩ := wordI_fields .. 
    refine ⟨e, ?_⟩
    rw [decodeFields, hop, hd, ha, himm]
    rfl
  case ld e _ _ _ _ | st e _ _ _ _ | sload e _ _ _ _ | sstore e _ _ _ _ =>
    obtain rfl := Option.some.inj h
    obtain ⟨hop, hd, ha, hsz, hoff⟩ := wordM_fields .. 
    refine ⟨e, ?_⟩
    rw [decodeFields, hop, hd, ha, hsz, hoff]
    rfl
  case brp e sense p off =>
    obtain rfl := Option.some.inj h
    obtain ⟨hop, hsense, hp, hzero, hoff⟩ := wordB_fields 0x18 (BitVec.ofBool sense) p off
    refine ⟨e, ?_⟩
    simp only [decodeFields, hop, getLsbD_of_field hsense, hp, hzero, hoff]
    rfl
  case loop e _ _ _ =>
    obtain rfl := Option.some.inj h
    obtain ⟨hop, hd, hbound, hlen⟩ := wordL_fields .. 
    refine ⟨e, ?_⟩
    rw [decodeFields, hop, hd, hbound, hlen]
    rfl
  case pxor e _ _ _ _ | vzero e _ _ _ _ | vmov e _ _ _ _ | gfmul e _ _ _ _ | gfmac e _ _ _ _ | synd e _ _ _ _ | vext e _ _ _ _
      | vins e _ _ _ _ | vbcast e _ _ _ _ =>
    obtain rfl := Option.some.inj h
    obtain ⟨hop, hvd, hva, hvb, hg, hfn⟩ := wordV_fields .. 
    refine ⟨e, ?_⟩
    rw [decodeFields, hop, hfn, hvd, hva, hvb, hg]
    rfl
  case waite e _ _ _ | pend e _ _ | clre e _ _ =>
    obtain rfl := Option.some.inj h
    obtain ⟨hop, hd, hline, hlim⟩ := wordE_fields .. 
    refine ⟨e, ?_⟩
    rw [decodeFields, hop, hd, hline, hlim]
    rfl
  case land e _ _ _ | waitt e _ _ _ =>
    obtain rfl := Option.some.inj h
    obtain ⟨hop, hd, ha, hzero, hlim⟩ := wordW_fields .. 
    refine ⟨e, ?_⟩
    rw [decodeFields, hop, hzero, hd, ha, hlim]
    rfl
  case sig e _ | snapt e _ | gate e _ | hold e _ | wake e _ | endP e _ | faultP e _ | nop e _ =>
    obtain rfl := Option.some.inj h
    obtain ⟨hop, hzero, himm⟩ := wordT_fields .. 
    refine ⟨e, ?_⟩
    rw [decodeFields, hop, hzero, himm]
    rfl
  all_goals exact nomatch h

/-- Settles O6: the decoder's checks are those of `Instr.wf`, which the instruction passes. -/
theorem lanibexDecodeOfEncode : Obligations.LanibexDecodeOfEncode := by
  unfold Obligations.LanibexDecodeOfEncode
  intro i w h wf
  obtain ⟨e, fields⟩ := decodeFields_encodeLx h
  refine ⟨e, ?_⟩
  simp only [decodeLx, fields, wf, if_true]

end Sys2Proof
end

section
/-! Settles O1 to O5: the step, the completion of every command, the queue and the reset (R153, log entries 1 and 2). -/

namespace Sys2Proof.Machine

/-- Every command changes the chip alone, and answers a next state (log entry 1). -/
theorem exec_eq_put (i : Instr) (s : State) : ∃ c : Chip, exec i s = .next (s.put c) := by
  cases i <;> exact ⟨_, rfl⟩

/-- The rest of a well-formed queue is well-formed. -/
theorem State.queueWf_tail {s : State} {i : Instr} {rest : List Instr} (front : s.pending = i :: rest) (wf : s.queueWf = true) :
    ({ s with pending := rest } : State).queueWf = true := by
  rw [State.queueWf, front, List.all_cons, Bool.and_eq_true] at wf
  exact wf.2

/-- Settles O1. -/
theorem stepRunsTheFrontCommand : Obligations.StepRunsTheFrontCommand := by
  unfold Obligations.StepRunsTheFrontCommand
  exact fun s i => rfl

/-- Settles O3: what every command answers. -/
theorem everyCommandCompletes : Obligations.EveryCommandCompletes := by
  unfold Obligations.EveryCommandCompletes
  intro i s
  obtain ⟨c, runs⟩ := exec_eq_put i s
  exact ⟨s.put c, runs, rfl⟩

/-- Settles O4: a step leaves the queue, or its rest. -/
theorem queueStaysWellFormed : Obligations.QueueStaysWellFormed := by
  unfold Obligations.QueueStaysWellFormed
  intro s t wf runs
  rcases step_cases (s := s) with ⟨-, tick⟩ | ⟨i, rest, front, first⟩
  · cases tick.symm.trans runs
    exact wf
  · obtain ⟨c, done⟩ := exec_eq_put i { s with pending := rest }
    cases (first.trans done).symm.trans runs
    exact State.queueWf_tail front wf

/-- Settles O5. -/
theorem resetIsCanonical : Obligations.ResetIsCanonical := by
  unfold Obligations.ResetIsCanonical
  exact ⟨rfl, rfl, rfl, fun _ => rfl⟩

/-! ## A tick -/

/-- While the clocks run, a tick is 1.25 ns of elapsed time, and of schedule time at the rate in effect (log entry 2). -/
theorem tickOp_clocked {c : Chip} (clocked : c.clocked = true) : ∃ t : Tmb, tickOp c = { c with tmb := t } ∧ t.up = c.tmb.up + 81920 ∧
    (c.tmb.rate = 0 → t.now = c.tmb.now + 81920) := by
  simp only [Chip.clocked, Bool.and_eq_true, bne_iff_ne] at clocked
  obtain ⟨notOff, notSiding⟩ := clocked
  refine ⟨{ c.tmb with now := (c.tmb.now + (81920 + c.tmb.rate * 81920 / 65536000000)).toNat, up := c.tmb.up + tickUnits }, ?_, rfl, fun rate => ?_⟩
  · rw [tickOp, if_neg notOff, if_neg notSiding]
  · simp only [rate]; omega

/-- Settles O2: the tick in OFF, in SIDING and while the clocks run. -/
theorem stepIdles : Obligations.StepIdles := by
  unfold Obligations.StepIdles
  intro s empty
  have tick : step s = .next (s.put (tickOp s.chip)) := by
    rcases step_cases (s := s) with ⟨-, tick⟩ | ⟨i, rest, front, -⟩
    · exact tick
    · exact nomatch empty.symm.trans front
  refine ⟨fun off => ?_, fun siding => ?_, fun clocked => ?_⟩
  · rw [tick, tickOp, if_pos off]; rfl
  · rw [tick, tickOp, if_neg (by rw [siding]; decide), if_pos siding]
  · obtain ⟨t, ticks, up, now⟩ := tickOp_clocked clocked
    exact ⟨t, by rw [tick, ticks], up, now⟩

end Sys2Proof.Machine
end

section
/-! Settles O13: the outcomes of SHUT (R182, R183), each from its own checks. -/

namespace Sys2Proof.Machine

/-- The chain at an LM address depends on LM alone (R338). -/
theorem Chip.chainAt_closed (c : Chip) (e : Eng) (n at0 : Nat) (first : Bool) : (c.closed e).chainAt e n at0 first = c.chainAt e n at0 first := by
  induction n generalizing at0 first with
  | zero => rfl
  | succ n ih => simp only [Chip.chainAt, Chip.eng_closed, ih]

/-- A ready instruction that closes the anchored run and comes to a new machine. -/
theorem issue_done {s : State} {e : Eng} {r : Run} {i : Instr} (h : s.chip.ready e r i) (ha : anchorable i = false) (f : Run → Chip → Lx) {c : Chip}
    (hf : f r (s.chip.closed e) = .ok c) : onChip (fun c => c.issue e i f) s = .next (s.put c) := Chip.issue_ok h ha f c hf

section
variable {s : State} {e : Eng} {r : Run} {d a b : BitVec 5} {n ad : Nat}
  (h : s.chip.ready e r (.shut e d a b)) (hn : ((s.chip.eng e).getG b.toNat).toNat = n) (ha : ((s.chip.eng e).getG a.toNat).toNat = ad)
  (small : n < 64) (granted : r.channelOk e n = true)
include h hn small granted

theorem exec_shut_busy (busy : (s.chip.chan n).state ≠ .idle) : exec (.shut e d a b) s = .next (s.wroteG e d 1) := by
  subst hn
  refine issue_retG h rfl _ d 1 ?_
  rw [Chip.eng_closed]
  refine (if_neg ?_).trans (if_pos (by exact busy))
  exact fun bad => bad.elim (Nat.not_le.mpr small) fun k => Bool.noConfusion (k.symm.trans (congrArg (!·) granted))

include ha

/-- Past every issue check, SHUT writes 2 where a descriptor overlaps, and otherwise starts the chain and writes 0 (R182, R183, R361). -/
theorem exec_shut_checked (idle : (s.chip.chan n).state = .idle) {ds : List Desc} (chain : s.chip.chainAt e 16 ad true = some ds)
    (short : r.tooLong (s.chip.eng e).pc ds.length = false) (aligned : ad % 32 = 0) (inside : r.inside e 0 ad (32 * ds.length) false = true)
    (good : ∀ q ∈ ds, q.fieldsOk = true ∧ q.inside r e = true ∧ q.hostOk r = true) {c : Chip}
    (hc : (if ds.any Desc.overlaps then ((s.chip.closed e).retG e d 2) else ((s.chip.closed e).startChain n e ds).retG e d 0) = c) :
    exec (.shut e d a b) s = .next (s.put c) := by
  have checked : (ds.any fun q => !(q.fieldsOk && q.inside r e && q.hostOk r)) = false :=
    List.any_eq_false.mpr fun q hq => by
      obtain ⟨fields, windows, host⟩ := good q hq
      simp [fields, windows, host]
  have chainClosed := (s.chip.chainAt_closed e 16 ad true).trans chain
  have idleClosed : ((s.chip.closed e).chan n).state = .idle := idle
  have hb : (((s.chip.closed e).eng e).g5 b).toNat = n := by rw [Chip.eng_closed]; exact hn
  have haddr : (((s.chip.closed e).eng e).g5 a).toNat = ad := by rw [Chip.eng_closed]; exact ha
  have pc : ((s.chip.closed e).eng e).pc = (s.chip.eng e).pc := by rw [Chip.eng_closed]
  refine issue_done (c := c) h rfl _ ?_
  simp only [hb, haddr, pc, chainClosed, idleClosed, granted, short, aligned, inside, checked, Nat.not_le.mpr small, ne_eq, not_true_eq_false,
    Bool.not_true, Bool.false_eq_true, or_false, if_false]
  exact (apply_ite Except.ok ..).symm.trans (congrArg _ hc)

end

/-! ## The chain that is issued -/

theorem Chip.pool_setChan (c : Chip) (n : Nat) (x : Channel) (p : Nat) : (c.setChan n x).pool p = c.pool p := rfl
theorem Chip.pool_modPool_self (c : Chip) (p : Nat) (f : Pool → Pool) : (c.modPool p f).pool p = f (c.pool p) := tget_put_self ..
theorem Chip.pool_modPool_ne (c : Chip) {p q : Nat} (f : Pool → Pool) (h : q ≠ p) : (c.modPool p f).pool q = c.pool q := tget_put_ne _ _ _ h

section
variable (c : Chip) (issuer n : Nat) (ds : List Desc)

/-- Starting a chain changes its channel and pool 4 alone (R345). -/
theorem Chip.startChain_frame :
    c.startChain n issuer ds = { c with channels := (c.startChain n issuer ds).channels, pools := (c.startChain n issuer ds).pools } := rfl

theorem Chip.startChain_chan_ne {m : Nat} (h : m ≠ n) : (c.startChain n issuer ds).chan m = c.chan m := Chip.chan_setChan_ne _ _ h

/-- The chain holds as many slots of pool 4 as it has descriptors (R345). -/
theorem Chip.startChain_pool : (c.startChain n issuer ds).pool 4 =
    { c.pool 4 with granted := (c.pool 4).granted + ds.length, held := (c.pool 4).held + ds.length } := by
  rw [Chip.startChain, Chip.pool_setChan]; exact c.pool_modPool_self 4 _

theorem Chip.startChain_pool_ne {p : Nat} (h : p ≠ 4) : (c.startChain n issuer ds).pool p = c.pool p := by
  rw [Chip.startChain, Chip.pool_setChan]; exact c.pool_modPool_ne _ h

/-- A result that is written meets neither channels nor pools. -/
theorem Chip.retG_frame {c t : Chip} {cs : Tab Channel} {ps : Tab Pool} (same : t = { c with channels := cs, pools := ps }) (e : Nat) (d : BitVec 5)
    (v : Nat) : t.retG e d v = { c.retG e d v with channels := cs, pools := ps } := by
  subst same; rfl

end

/-- A result written with the anchored run closed. -/
theorem Chip.retG_closed (s : State) (e : Eng) (d : BitVec 5) (v : Nat) : (s.chip.closed e).retG e d v = (s.wroteG e d (BitVec.ofNat 64 v)).chip := by
  rw [Chip.retG, Chip.closed, Chip.modEng_setEng]
  rfl

/-- Settles O13: the busy channel, an overlap, and the chain that starts. -/
theorem shuttleIssue : Obligations.ShuttleIssue := by
  unfold Obligations.ShuttleIssue
  intro s e r d a b ds x n ad h small granted
  refine ⟨exec_shut_busy h rfl small granted, fun idle chain short aligned inside good => ⟨fun overlap => ?_, fun apart => ?_⟩⟩
  · refine exec_shut_checked (c := (s.wroteG e d 2).chip) h rfl rfl small granted idle chain short aligned inside good ?_
    rw [if_pos (List.any_eq_true.mpr overlap), Chip.retG_closed]
    rfl
  · have none : ¬ ds.any Desc.overlaps = true := fun some => by
      obtain ⟨q, hq, laps⟩ := List.any_eq_true.mp some
      exact Bool.noConfusion ((apart q hq).symm.trans laps)
    have runs := exec_shut_checked h rfl rfl small granted idle chain short aligned inside good (if_neg none)
    have frame := Chip.retG_frame ((s.chip.closed e).startChain_frame e n ds) e d 0
    rw [Chip.retG_closed] at frame
    have started : ((s.chip.closed e).startChain n e ds).chan n = _ := Chip.chan_setChan_self ..
    refine ⟨_, runs, s.put_pending _, ?_⟩
    rw [State.put_chip, frame]
    refine ⟨rfl, ?_, ?_, ?_, ?_, fun m => (s.chip.closed e).startChain_chan_ne e n ds, ?_, fun p => (s.chip.closed e).startChain_pool_ne e n ds⟩
    · exact congrArg Channel.state started
    · exact congrArg Channel.chain started
    · exact congrArg Channel.desc started
    · exact congrArg Channel.issuer started
    · exact congrArg Pool.held ((s.chip.closed e).startChain_pool e n ds)

end Sys2Proof.Machine
end

section
/-! Settles O14: TAKE (R177, R178), then the start of an item on an idle stripe engine (R141, R176, R179). -/

namespace Sys2Proof.Machine

/-! ## The bytes and the entry of an item -/

theorem Item.bytes_length (i : Item) : i.bytes.length = 96 := by simp [Item.bytes]

/-- LM after the 96 bytes of an item were written to `ad`. -/
theorem Item.mget_bytes (i : Item) (m : Mem) (ad : Nat) {k : Nat} (hk : k < 96) : mget zeros (mwrite zeros m ad i.bytes) (ad + k) = i.bytes.getD k 0 := by
  have inside : k < i.bytes.length := by rw [i.bytes_length]; exact hk
  rw [mget_write_in _ _ _ _ _ inside, List.getD_eq_getElem _ _ inside]

theorem Item.mget_bytes_out (i : Item) (m : Mem) (ad : Nat) {k : Nat} (hk : k < ad ∨ ad + 96 ≤ k) :
    mget zeros (mwrite zeros m ad i.bytes) k = mget zeros m k :=
  mget_write_out _ _ _ _ _ (by rw [i.bytes_length]; exact hk)

/-- An item that is taken changes its entry alone (R180). -/
theorem Chip.commitEntry_funcs (c : Chip) (i : Item) : c.commitEntry i = { c with funcs := (c.commitEntry i).funcs } := by
  unfold Chip.commitEntry
  split <;> rfl

theorem Chip.eng_commitEntry (c : Chip) (i : Item) (e : Nat) : (c.commitEntry i).eng e = c.eng e := by
  rw [c.commitEntry_funcs i]; rfl

/-! ## TAKE -/

section
variable (c : Chip) (e : Eng)

/-- What an engine's next item is does not depend on its anchored run. -/
theorem Chip.nextItem_closed : (c.closed e).nextItem e = c.nextItem e := by
  simp only [Chip.nextItem, Chip.eng_closed]
  rfl

theorem Chip.takeable_closed (r : Run) (i : Item) : (c.closed e).takeable e r i = c.takeable e r i := by
  simp only [Chip.takeable, Chip.imageOf, Chip.slot, Chip.eng_closed]
  rfl

/-- The engine with an item taken from its queue into LM at `ad` and into the program's items (R177, R181). -/
def Engine.take (x : Engine) (r : Run) (i : Item) (ad : Nat) : Engine :=
  { x.unqueue i.handle with lm := mwrite zeros x.lm ad i.bytes, run := some { r with taken := r.taken ++ [i] } }

end

section
variable {s : State} {e : Eng} {r : Run} {d a b : BitVec 5} (h : s.chip.ready e r (.take e d a b)) {ad : Nat}
  (ha : ((s.chip.eng e).getG a.toNat).toNat = ad) (aligned : ad % 32 = 0) (inside : r.inside e 0 ad 96 true = true)
include h ha aligned inside

theorem exec_take_none (none : ∀ i, s.chip.nextItem e = some i → s.chip.takeable e r i = false) : exec (.take e d a b) s = .next (s.wroteG e d 0) := by
  subst ha
  have empty : (s.chip.nextItem e).filter ((s.chip.closed e).takeable e r) = .none :=
    Option.filter_eq_none_iff.mpr fun i hi => by rw [Chip.takeable_closed, none i hi]; decide
  refine issue_retG h rfl _ d 0 ?_
  rw [Chip.nextItem_closed, empty, Chip.eng_closed]
  exact Chip.access_granted _ aligned inside

theorem exec_take_some {i : Item} (next : s.chip.nextItem e = some i) (may : s.chip.takeable e r i = true) : exec (.take e d a b) s =
    .next (s.put ((((s.chip.closed e).modEng e fun x => x.take r i ad).commitEntry i).retG e d i.handle)) := by
  subst ha
  have item : (s.chip.nextItem e).filter ((s.chip.closed e).takeable e r) = some i := by
    rw [next, Option.filter_some, Chip.takeable_closed, may, if_pos rfl]
  refine issue_done h rfl _ ?_
  rw [Chip.nextItem_closed, item, Chip.eng_closed]
  exact Chip.access_granted _ aligned inside

end

section
variable (c : Chip) (e : Eng) (r : Run) (i : Item) (ad : Nat) (d : BitVec 5)

/-- The machine with an item taken by a program and its handle written. -/
def Chip.tookItem : Chip := (((c.closed e).modEng e fun x => x.take r i ad).commitEntry i).retG e d i.handle

theorem Chip.tookItem_eng : (c.tookItem e r i ad d).eng e =
    ((({ c.eng e with anchor := none } : Engine).take r i ad).setG d.toNat (BitVec.ofNat 64 i.handle)).advance := by
  rw [Chip.tookItem, Chip.retG, Chip.eng_modEng_self, Chip.eng_commitEntry, Chip.eng_modEng_self, Chip.eng_closed]

theorem Chip.tookItem_eng_ne {o : Nat} (other : o ≠ e) : (c.tookItem e r i ad d).eng o = c.eng o := by
  rw [Chip.tookItem, Chip.retG, Chip.eng_modEng_ne _ _ other, Chip.eng_commitEntry, Chip.eng_modEng_ne _ _ other, Chip.closed, Chip.eng_setEng_ne _ _ other]

theorem Chip.tookItem_frame : c.tookItem e r i ad d = { c with engines := (c.tookItem e r i ad d).engines, funcs := (c.tookItem e r i ad d).funcs } := by
  rw [Chip.tookItem, Chip.commitEntry_funcs]
  rfl

end

/-! ## The start of an item -/

/-- A table filled from a list, at keys from `n` on. -/
theorem tget_foldl_zipIdx (l : List Nat) (n k : Nat) (t : Tab W64) :
    tget ((l.zipIdx n).foldl (fun t v => tput t 0 v.2 (BitVec.ofNat 64 v.1)) t) 0 k =
      if n ≤ k ∧ k < n + l.length then BitVec.ofNat 64 (l.getD (k - n) 0) else tget t 0 k := by
  induction l generalizing n t with
  | nil => simp
  | cons v l ih =>
    rw [List.zipIdx_cons, List.foldl_cons, ih]
    by_cases here : k = n
    · subst here
      simp
    · rw [tget_put_ne _ _ _ here]
      by_cases later : n + 1 ≤ k
      · have : k - n = (k - (n + 1)) + 1 := by omega
        simp only [List.length_cons, this, List.getD_cons_succ]
        congr 1
        simp only [eq_iff_iff]; omega
      · simp only [List.length_cons]
        rw [if_neg (by omega), if_neg (by omega)]

/-- The g registers as an item starts (R141): its area, its handle, its ADM_SEQ and the slot parameters. -/
def startRegs (i : Item) (m : Image) : Tab W64 :=
  (([dispatchArea i.slot, i.handle, i.seq] ++ m.params.take 4).zipIdx 1).foldl (fun t v => tput t 0 v.2 (BitVec.ofNat 64 v.1)) []

/-- The engine as an item starts (R141, R176, R179). -/
def Engine.start (x : Engine) (i : Item) (m : Image) (up : Nat) : Engine :=
  { x.unqueue i.handle with
    g := startRegs i m, w := [], p := 0, pc := (m.entries.getD i.ep (0, 0)).1, loops := [], wait := none, anchor := none
    lm := mwrite zeros x.lm (dispatchArea i.slot) i.bytes
    run := some { slot := i.slot, ep := i.ep, image := m, taken := [i], started := up } }

theorem exec_itemDispatch {s : State} {e : Se} {i : Item} {m : Image} (clocked : s.chip.clocked = true) (runs : s.chip.vault.stopped = false)
    (idle : (s.chip.eng e).run = none) (sound : (s.chip.eng e).faulted = false) (next : s.chip.nextItem e = some i)
    (awake : s.chip.isGated e = false) (first : s.chip.earlierEntry e i.seq = false) (image : s.chip.imageOf e i.slot i.ep i.seq = some m) :
    exec (.itemDispatch e) s = .next (s.put ((s.chip.commitEntry i).setEng e ((s.chip.eng e).start i m s.chip.tmb.up))) := by
  refine (onChip_clocked _ clocked).trans (congrArg _ (congrArg s.put ?_))
  simp only [itemDispatchOp, clocked, runs, idle, sound, next, awake, first, image, Option.isSome_none, Bool.not_true, Bool.or_self,
    Bool.false_eq_true, if_false]
  rfl

/-- The g register `k` as an item starts. -/
theorem startRegs_get (i : Item) (m : Image) (k : Nat) : tget (startRegs i m) 0 (k + 1) =
    BitVec.ofNat 64 (([dispatchArea i.slot, i.handle, i.seq] ++ m.params.take 4).getD k 0) := by
  rw [startRegs, tget_foldl_zipIdx, tget_nil, Nat.add_sub_cancel]
  split
  next => rfl
  next beyond => rw [List.getD_eq_default _ _ (by omega)]; rfl

/-- Settles O14: TAKE with and without an item, then the engine that starts one. -/
theorem itemsReachPrograms : Obligations.ItemsReachPrograms := by
  unfold Obligations.ItemsReachPrograms
  refine ⟨?take, ?start⟩
  case take =>
    intro s e r d a b x ad h aligned inside
    refine ⟨exec_take_none h rfl aligned inside, fun i next may => ⟨_, exec_take_some h rfl aligned inside next may, s.put_pending _, ?_⟩⟩
    rw [State.put_chip, ← Chip.tookItem]
    refine ⟨fun hd => ?_, fun k hk => ?_, fun k hk => ?_, ⟨{ r with taken := r.taken ++ [i] }, ?_, rfl⟩, ?_, fun o => s.chip.tookItem_eng_ne e r i ad d,
      s.chip.tookItem_frame e r i ad d⟩
    all_goals rw [Chip.tookItem_eng]
    · rw [Engine.advance_getG, Engine.getG_setG_self _ _ fun zero => hd (BitVec.eq_of_toNat_eq zero)]
    · rw [Engine.lmByte, Engine.advance_lm, Engine.setG_lm]; exact i.mget_bytes _ _ hk
    · rw [Engine.lmByte, Engine.advance_lm, Engine.setG_lm]; exact i.mget_bytes_out _ _ hk
    · rw [Engine.advance_run, Engine.setG_run]; rfl
    · rw [Engine.setG_eq]; rfl
  case start =>
    intro s e i m x clocked runs idle sound next awake first image
    refine ⟨_, exec_itemDispatch clocked runs idle sound next awake first image, s.put_pending _, ?_, fun o other => ?_, ?_⟩
    all_goals rw [State.put_chip]
    · rw [Chip.commitEntry_funcs]; rfl
    · rw [Chip.eng_setEng_ne _ _ other, Chip.eng_commitEntry]
    · rw [Chip.eng_setEng_self]
      intro y
      have reg (k : Nat) : y.getG (k + 1) = _ := startRegs_get i m k
      refine ⟨reg 0, reg 1, reg 2, fun k hk => ?_, fun k hk => ?_, fun k => rfl, fun k hk => ?_, rfl, rfl, fun k hk => ?_, rfl, rfl, rfl, rfl,
        _, rfl, rfl, rfl, rfl, rfl⟩
      · rw [show 4 + k = (k + 3) + 1 by omega, reg]
        simp [List.getD_eq_getElem?_getD, hk]
      · obtain ⟨j, rfl⟩ : ∃ j, k = j + 1 := ⟨k - 1, by omega⟩
        rw [reg, List.getD_eq_default _ _ (by simp; omega)]; rfl
      · simp [y, Engine.getP, Engine.start, bitAt, Nat.ne_of_gt hk]
      · exact i.mget_bytes _ _ hk

end Sys2Proof.Machine
end

section
/-! Rules for numbers in HBM and for journal rings: what a write of bytes gives a read of them, and what the ring state reads after a record is appended
(R431, R433). -/

namespace Sys2Proof.Machine

/-! ## Numbers in HBM -/

/-- Bytes that lie apart from those written read as before. -/
theorem mread_mwrite_apart (d : Nat → Byte) (m : Mem) (a : Nat) (l : List Byte) {b n : Nat} (apart : b + n ≤ a ∨ a + l.length ≤ b) :
    mread d (mwrite d m a l) b n = mread d m b n := by
  simp only [mread_eq_map]
  exact List.map_congr_left fun i hi => mget_write_out _ _ _ _ _ (by have := List.mem_range.mp hi; omega)

/-- The bytes written are read back. -/
theorem mread_mwrite (d : Nat → Byte) (m : Mem) (a : Nat) (l : List Byte) : mread d (mwrite d m a l) a l.length = l := by
  rw [mread_eq_map]
  refine List.ext_getElem (by simp) fun i hi hl => ?_
  simpa using mget_write_in d l m a i hl

/-- The bytes of a number spell the number again, as far as they reach. -/
theorem ofLe_leBytes (n v : Nat) : ofLe (leBytes n v) = v % 256 ^ n := by
  induction n generalizing v with
  | zero => simp [leBytes, ofLe, Nat.mod_one]
  | succ n ih =>
    have low : (BitVec.ofNat 8 v).toNat = v % 256 := rfl
    rw [leBytes, ofLe, ih, low, Nat.pow_succ', Nat.mod_mul]

section
variable (c : Chip)

theorem Chip.hbm_hbmWrite (a : Nat) (l : List Byte) : (c.hbmWrite a l).hbm = mwrite hbmInit c.hbm a l := by
  obtain ⟨p, w⟩ := c.hbmWrite_eq a l
  rw [w]

theorem Chip.hbmLe_hbmWrite_apart (a : Nat) (l : List Byte) {b n : Nat} (apart : b + n ≤ a ∨ a + l.length ≤ b) :
    (c.hbmWrite a l).hbmLe b n = c.hbmLe b n := by
  rw [Chip.hbmLe, Chip.hbm_hbmWrite, mread_mwrite_apart _ _ _ _ apart, Chip.hbmLe]

/-- A number written to HBM is read back, as far as its bytes reach. -/
theorem Chip.hbmLe_hbmWrite (a n v : Nat) : (c.hbmWrite a (leBytes n v)).hbmLe a n = v % 256 ^ n := by
  have read := mread_mwrite hbmInit c.hbm a (leBytes n v)
  rw [leBytes_length] at read
  rw [Chip.hbmLe, Chip.hbm_hbmWrite, read, ofLe_leBytes]

/-- A chip that differs from `c` in HBM and the audit counters at most. -/
def Chip.HbmOnly (c t : Chip) : Prop := ∃ hbm pools, t = { c with hbm := hbm, pools := pools }

theorem Chip.HbmOnly.refl : c.HbmOnly c := ⟨_, _, rfl⟩

theorem Chip.HbmOnly.trans {c d t : Chip} (h : c.HbmOnly d) (k : d.HbmOnly t) : c.HbmOnly t := by
  obtain ⟨_, _, rfl⟩ := h
  obtain ⟨_, _, rfl⟩ := k
  exact ⟨_, _, rfl⟩

theorem Chip.hbmWrite_hbmOnly (a : Nat) (l : List Byte) : c.HbmOnly (c.hbmWrite a l) := by
  obtain ⟨p, w⟩ := c.hbmWrite_eq a l
  exact ⟨_, p, w⟩

/-! ## Journal rings -/

theorem Chip.ringWrite_hbmOnly (a off : Nat) (l : List Byte) : c.HbmOnly (c.ringWrite a off l) := by
  unfold Chip.ringWrite
  dsimp only
  split
  · exact c.hbmWrite_hbmOnly ..
  · exact (c.hbmWrite_hbmOnly ..).trans (Chip.hbmWrite_hbmOnly ..)

/-- A write to a ring leaves the ring states, which lie below every ring. -/
theorem Chip.hbmLe_ringWrite (a off : Nat) (l : List Byte) {b n : Nat} (below : b + n ≤ 0x01000000) :
    (c.ringWrite a off l).hbmLe b n = c.hbmLe b n := by
  have base : 0x01000000 ≤ ringBase a := Nat.le_add_right ..
  unfold Chip.ringWrite
  dsimp only
  split
  · exact c.hbmLe_hbmWrite_apart _ _ (.inl (by omega))
  · rw [Chip.hbmLe_hbmWrite_apart _ _ _ (.inl (by omega)), c.hbmLe_hbmWrite_apart _ _ (.inl (by omega))]

theorem Chip.appendRecord_hbmOnly (a : Nat) (r : List Byte) : c.HbmOnly (c.appendRecord a r) :=
  (c.ringWrite_hbmOnly ..).trans ((Chip.hbmWrite_hbmOnly ..).trans (Chip.hbmWrite_hbmOnly ..))

variable {a : Nat} (r : List Byte)

/-- The ring states lie below every ring. -/
theorem ringAt_below (array : a < 16) : ringAt a + 32 ≤ 0x01000000 := by unfold ringAt; omega

/-- A record that is appended moves HEAD by its bytes. -/
theorem Chip.ringHead_appendRecord : (c.appendRecord a r).ringHead a = (c.ringHead a + r.length) % ringSize := by
  have fits : (c.ringHead a + r.length) % ringSize < 256 ^ 8 := Nat.lt_trans (Nat.mod_lt _ (by decide)) (by decide)
  rw [Chip.ringHead, Chip.appendRecord, Chip.hbmLe_hbmWrite_apart _ _ _ (.inl (by omega)), Chip.hbmLe_hbmWrite, Nat.mod_eq_of_lt fits]

/-- A record that is appended takes NEXT_JSEQ. -/
theorem Chip.ringNext_appendRecord : (c.appendRecord a r).ringNext a = (c.ringNext a + 1) % 2 ^ 64 := by
  rw [Chip.ringNext, Chip.appendRecord, Chip.hbmLe_hbmWrite, show 256 ^ 8 = 2 ^ 64 from rfl, Chip.ringNext]

theorem Chip.ringTail_appendRecord (array : a < 16) : (c.appendRecord a r).ringTail a = c.ringTail a := by
  have below := ringAt_below array
  rw [Chip.ringTail, Chip.appendRecord, Chip.hbmLe_hbmWrite_apart _ _ _ (.inl (by omega)), Chip.hbmLe_hbmWrite_apart _ _ _ (.inr (by simp)),
    Chip.hbmLe_ringWrite _ _ _ _ (by omega), Chip.ringTail]

end
end Sys2Proof.Machine
end

section
/-! Settles O16: JRNL (R186, R187), MIRR (R188), and the order of the tickets (R184). -/

namespace Sys2Proof.Machine

/-! ## Messages to the partner -/

/-- A chip that differs from `c` in the pair's transmit queue at most. -/
def Chip.QueueOnly (c t : Chip) : Prop := ∃ q, t = { c with par := { c.par with queue := q } }

theorem Chip.QueueOnly.refl (c : Chip) : c.QueueOnly c := ⟨_, rfl⟩

theorem Chip.QueueOnly.trans {c d t : Chip} (h : c.QueueOnly d) (k : d.QueueOnly t) : c.QueueOnly t := by
  obtain ⟨_, rfl⟩ := h
  obtain ⟨_, rfl⟩ := k
  exact ⟨_, rfl⟩

section
variable (c : Chip)

theorem Chip.toPartner_queueOnly (m : CouplerMsg) : c.QueueOnly (c.toPartner m) := by
  unfold Chip.toPartner
  split
  · exact ⟨_, rfl⟩
  · exact .refl c

/-- An ACTIVE unit queues its messages (R679). -/
theorem Chip.toPartner_active (active : c.par.role = .active) (m : CouplerMsg) : c.toPartner m = { c with par := { c.par with queue := c.par.queue ++ [m] } } :=
  if_pos (.inl active)

variable (e : Nat) (ingest : Bool) (ticket : Nat)

/-- The message that carries the first bytes of a mirrored range of `n` bytes (R679). -/
def Chip.mirrorMsg (off n : Nat) : CouplerMsg :=
  { cls := 5, prio := if ingest then 3 else 4, last := decide (n ≤ 65536), ingest := ingest, engine := e, offset := off
    ticket := if n ≤ 65536 then ticket else 0, payload := mread hbmInit c.hbm off (min n 65536) }

/-- The first message of a mirrored range, and the messages of the rest. -/
theorem Chip.mirrorFrom_succ (fuel off n : Nat) : c.mirrorFrom e ingest ticket (fuel + 1) off n =
    if n ≤ 65536 then c.toPartner (c.mirrorMsg e ingest ticket off n)
    else (c.toPartner (c.mirrorMsg e ingest ticket off n)).mirrorFrom e ingest ticket fuel (off + 65536) (n - 65536) := by
  simp only [Chip.mirrorFrom, Chip.mirrorMsg, decide_eq_true_eq]
  split
  next => rfl
  next long => rw [Nat.min_eq_right (by omega)]

theorem Chip.mirrorFrom_queueOnly (fuel off n : Nat) : c.QueueOnly (c.mirrorFrom e ingest ticket fuel off n) := by
  induction fuel generalizing c off n with
  | zero => exact .refl c
  | succ fuel ih =>
    rw [Chip.mirrorFrom_succ]
    split
    · exact c.toPartner_queueOnly _
    · exact (c.toPartner_queueOnly _).trans (ih ..)

theorem Chip.mirrorRange_queueOnly (off n : Nat) : c.QueueOnly (c.mirrorRange e ingest ticket off n) := by
  unfold Chip.mirrorRange
  split
  · exact .refl c
  · exact c.mirrorFrom_queueOnly ..

/-- The messages of a mirrored range: the last of them, and it alone, is marked and carries the ticket (R679). -/
theorem Chip.mirrorFrom_messages {fuel n : Nat} (active : c.par.role = .active) (enough : n ≤ 65536 * fuel) (some : 0 < n) (off : Nat) :
    ∃ ms m, (c.mirrorFrom e ingest ticket fuel off n).par.queue = c.par.queue ++ ms ++ [m] ∧ m.cls = 5 ∧ m.last = true ∧ m.ticket = ticket ∧
      ∀ k ∈ ms, k.last = false := by
  induction fuel generalizing c n off with
  | zero => omega
  | succ fuel ih =>
    have sent := c.toPartner_active active (c.mirrorMsg e ingest ticket off n)
    rw [Chip.mirrorFrom_succ]
    split
    next short =>
      rw [sent]
      exact ⟨[], c.mirrorMsg e ingest ticket off n, by rw [List.append_nil], rfl, decide_eq_true short, if_pos short, by simp⟩
    next long =>
      obtain ⟨ms, m, queue, cls, last, hticket, rest⟩ :=
        ih (c.toPartner (c.mirrorMsg e ingest ticket off n)) (by rw [sent]; exact active) (n := n - 65536) (by omega) (by omega) (off + 65536)
      refine ⟨c.mirrorMsg e ingest ticket off n :: ms, m, queue.trans (by rw [sent]; simp), cls, last, hticket, fun k hk => ?_⟩
      rcases List.mem_cons.mp hk with rfl | hk
      · exact decide_eq_false long
      · exact rest k hk

end

/-! ## JRNL and MIRR -/

/-- A result written to an engine leaves what a change of other parts of the chip made. -/
theorem Chip.eng_retG (c : Chip) (e : Nat) (d : BitVec 5) (v : Nat) : (c.retG e d v).eng e = ((c.eng e).setG d.toNat (BitVec.ofNat 64 v)).advance :=
  c.eng_modEng_self ..

theorem Chip.eng_retG_ne (c : Chip) {e o : Nat} (d : BitVec 5) (v : Nat) (h : o ≠ e) : (c.retG e d v).eng o = c.eng o := c.eng_modEng_ne _ h

theorem Chip.QueueOnly.eng {c t : Chip} (h : c.QueueOnly t) (e : Nat) : t.eng e = c.eng e := by
  obtain ⟨_, rfl⟩ := h; rfl

theorem Chip.QueueOnly.retG_frame {c t : Chip} (h : c.QueueOnly t) (e : Nat) (d : BitVec 5) (v : Nat) :
    t.retG e d v = { c with engines := (t.retG e d v).engines, par := (t.retG e d v).par } ∧
      (t.retG e d v).par = { c.par with queue := (t.retG e d v).par.queue } := by
  obtain ⟨_, rfl⟩ := h
  exact ⟨rfl, rfl⟩

theorem Chip.HbmOnly.eng {c t : Chip} (h : c.HbmOnly t) (e : Nat) : t.eng e = c.eng e := by
  obtain ⟨_, _, rfl⟩ := h; rfl

section
variable {s : State} {e : Eng} {r : Run} {d a b : BitVec 5}

section
variable (h : s.chip.ready e r (.jrnl e d a b)) {ad n arr : Nat} (ha : ((s.chip.eng e).getG a.toNat).toNat = ad)
  (hn : ((s.chip.eng e).getG b.toNat).toNat = n) (units : n % 32 = 0) (some : 32 ≤ n) (le : n ≤ 256) (short : r.tooLong (s.chip.eng e).pc n = false)
  (aligned : ad % 32 = 0) (inside : r.inside e 0 ad n false = true) (size : 32 * ((s.chip.eng e).lmByte (ad + 1)).toNat = n)
  (harr : ((s.chip.eng e).lmByte (ad + 2)).toNat = arr) (array : arr < 16) (made : (s.chip.arr arr).made = true)
  (type : jrnlType ((s.chip.eng e).lmByte ad).toNat = true)

/-- The machine with a record appended and mirrored, and its ticket taken and written (R186, R187). -/
def Chip.journalled (c : Chip) (e : Eng) (d : BitVec 5) (arr : Nat) (bs : List Byte) : Chip :=
  ((((c.closed e).appendRecord arr bs).modEng e Engine.takeTicket).mirrorRecord e false (c.eng e).nextTicket arr (c.ringHead arr) bs.length).retG e d
    (c.eng e).nextTicket

include h ha hn units some le short aligned inside size harr array made type

/-- Past its checks, JRNL takes no ticket without a pair plan or without room, and otherwise appends its record (R186, R434). -/
theorem exec_jrnl {c : Chip} (hc : (if s.chip.cache.pairQ = 0 ∨ s.chip.ringFree arr < n then (s.chip.closed e).retG e d 0
      else s.chip.journalled e d arr (mread zeros (s.chip.eng e).lm ad n)) = c) : exec (.jrnl e d a b) s = .next (s.put c) := by
  have hb : (((s.chip.closed e).eng e).g5 b).toNat = n := by rw [Chip.eng_closed]; exact hn
  have haddr : (((s.chip.closed e).eng e).g5 a).toNat = ad := by rw [Chip.eng_closed]; exact ha
  have field {o : Nat} (ho : o < 32) : (mread zeros (s.chip.eng e).lm ad n).getD o 0 = (s.chip.eng e).lmByte (ad + o) := by
    rw [mread_eq_map, List.getD_eq_getElem _ _ (by simp; omega)]
    simp [Engine.lmByte]
  have bytes : (mread zeros (s.chip.eng e).lm ad n).length = n := by simp [mread_eq_map]
  have used : mread zeros ((s.chip.closed e).eng e).lm ad n = mread zeros (s.chip.eng e).lm ad n := by rw [Chip.eng_closed]
  have pc : ((s.chip.closed e).eng e).pc = (s.chip.eng e).pc := by rw [Chip.eng_closed]
  have ticket : ((s.chip.closed e).eng e).nextTicket = (s.chip.eng e).nextTicket := by rw [Chip.eng_closed]; rfl
  have arrays : (s.chip.closed e).arr arr = s.chip.arr arr := rfl
  refine issue_done (c := c) h rfl _ ?_
  simp only [hb, haddr, used, pc, ticket, field (o := 0) (by decide), field (o := 1) (by decide), field (o := 2) (by decide), harr]
  rw [if_neg (by simp [units, short, Nat.not_lt.mpr le]; omega), Chip.access_granted _ aligned inside]
  rw [if_neg (by simp [size, Nat.not_le.mpr array, arrays, made, type]), ← apply_ite Except.ok, ← hc, Chip.journalled, bytes]
  rfl

end

section
variable (h : s.chip.ready e r (.mirr e d a b)) {ad n : Nat} (ha : ((s.chip.eng e).getG a.toNat).toNat = ad)
  (hn : ((s.chip.eng e).getG b.toNat).toNat = n) (units : n % 64 = 0) (some : 64 ≤ n) (le : n ≤ 0x1000000) (aligned : ad % 64 = 0)
  (inside : ad + n ≤ s.chip.cache.pairQ * 0x10000000)

/-- The machine with a range mirrored, and its ticket taken and written (R188). -/
def Chip.rangeMirrored (c : Chip) (e : Eng) (d : BitVec 5) (ad n : Nat) : Chip :=
  (((c.closed e).modEng e Engine.takeTicket).mirrorRange e false (c.eng e).nextTicket ad n).retG e d (c.eng e).nextTicket

include h ha hn units some le aligned inside

/-- Past its checks, MIRR takes the next ticket and queues the mirror of its range (R188). -/
theorem exec_mirr : exec (.mirr e d a b) s = .next (s.put (s.chip.rangeMirrored e d ad n)) := by
  have hb : (((s.chip.closed e).eng e).g5 b).toNat = n := by rw [Chip.eng_closed]; exact hn
  have haddr : (((s.chip.closed e).eng e).g5 a).toNat = ad := by rw [Chip.eng_closed]; exact ha
  have ticket : ((s.chip.closed e).eng e).nextTicket = (s.chip.eng e).nextTicket := by rw [Chip.eng_closed]; rfl
  have plan : (s.chip.closed e).cache.pairQ = s.chip.cache.pairQ := rfl
  refine issue_done (c := s.chip.rangeMirrored e d ad n) h rfl _ ?_
  simp only [hb, haddr, ticket, plan]
  rw [if_neg (by omega), if_neg (by omega), if_neg (by omega)]
  rfl

end

end

/-! ## What a ticket's instruction leaves -/

section
variable {c u t : Chip} {e : Eng} (stored : (c.closed e).HbmOnly u) (sent : (u.modEng e Engine.takeTicket).QueueOnly t) (d : BitVec 5) (v : Nat)
include stored sent

/-- The engine that took a ticket, and wrote a result once its bytes were stored and sent (R184). -/
theorem Chip.eng_ticket : (t.retG e d v).eng e = (({ (c.eng e).takeTicket with anchor := none }).setG d.toNat (BitVec.ofNat 64 v)).advance := by
  rw [Chip.eng_retG, sent.eng, Chip.eng_modEng_self, stored.eng, Chip.eng_closed]
  rfl

theorem Chip.eng_ticket_ne {o : Nat} (other : o ≠ e) : (t.retG e d v).eng o = c.eng o := by
  rw [Chip.eng_retG_ne _ _ _ other, sent.eng, Chip.eng_modEng_ne _ _ other, stored.eng, Chip.closed, Chip.eng_setEng_ne _ _ other]

/-- What a ticket's instruction writes: its result and the ticket in its engine. -/
theorem Chip.ticket_result : (d ≠ 0 → ((t.retG e d v).eng e).getG d.toNat = BitVec.ofNat 64 v) ∧ ((t.retG e d v).eng e).issued = (c.eng e).nextTicket ∧
    ((t.retG e d v).eng e).lm = (c.eng e).lm ∧ ∀ o : Nat, o ≠ e.val → (t.retG e d v).eng o = c.eng o := by
  rw [Chip.eng_ticket stored sent]
  refine ⟨fun nonzero => ?_, by simp [Engine.takeTicket], by simp [Engine.takeTicket], fun o other => Chip.eng_ticket_ne stored sent d v other⟩
  exact Engine.getG_setG_self _ _ fun zero => nonzero (BitVec.eq_of_toNat_eq zero)

theorem Chip.ticket_frame : t.retG e d v = { c with engines := (t.retG e d v).engines, hbm := (t.retG e d v).hbm, pools := (t.retG e d v).pools, par :=
    (t.retG e d v).par } ∧ (t.retG e d v).par = { c.par with queue := (t.retG e d v).par.queue } ∧ (t.retG e d v).hbm = u.hbm := by
  obtain ⟨_, _, rfl⟩ := stored
  obtain ⟨_, rfl⟩ := sent
  exact ⟨rfl, rfl, rfl⟩

end

/-- Tickets run from 1 and skip 0 as they wrap (R184). -/
theorem Engine.nextTicket_order (x : Engine) :
    x.nextTicket ≠ 0 ∧ (x.issued < 2 ^ 48 - 1 → x.nextTicket = x.issued + 1) ∧ (x.issued = 2 ^ 48 - 1 → x.nextTicket = 1) := by
  unfold Engine.nextTicket
  split <;> omega

/-- JRNL without room or pair plan writes 0; with both it appends, mirrors and takes its ticket. -/
theorem jrnl_ticket {s : State} {e : Eng} (d : BitVec 5) {arr : Nat} (array : arr < 16) (bs : List Byte) :
    let t := s.chip.journalled e d arr bs
    (d ≠ 0 → (t.eng e).getG d.toNat = BitVec.ofNat 64 (s.chip.eng e).nextTicket) ∧ (t.eng e).issued = (s.chip.eng e).nextTicket ∧
      t.ringHead arr = (s.chip.ringHead arr + bs.length) % ringSize ∧ t.ringNext arr = (s.chip.ringNext arr + 1) % 2 ^ 64 ∧
      t.ringTail arr = s.chip.ringTail arr ∧ (t.eng e).lm = (s.chip.eng e).lm ∧ (∀ o : Nat, o ≠ e.val → t.eng o = s.chip.eng o) ∧
      t = { s.chip with engines := t.engines, hbm := t.hbm, pools := t.pools, par := t.par } ∧ t.par = { s.chip.par with queue := t.par.queue } := by
  intro t
  let u := (s.chip.closed e).appendRecord arr bs
  have stored : (s.chip.closed e).HbmOnly u := Chip.appendRecord_hbmOnly ..
  have sent : (u.modEng e Engine.takeTicket).QueueOnly ((u.modEng e Engine.takeTicket).mirrorRecord e false (s.chip.eng e).nextTicket arr
    (s.chip.ringHead arr) bs.length) := Chip.toPartner_queueOnly ..
  obtain ⟨result, issued, memory, others⟩ := Chip.ticket_result stored sent d (s.chip.eng e).nextTicket
  obtain ⟨frame, pair, hbm⟩ := Chip.ticket_frame stored sent d (s.chip.eng e).nextTicket
  change t.hbm = u.hbm at hbm
  refine ⟨result, issued, ?_, ?_, ?_, memory, others, frame, pair⟩
  · rw [Chip.ringHead, Chip.hbmLe, hbm]
    exact Chip.ringHead_appendRecord ..
  · rw [Chip.ringNext, Chip.hbmLe, hbm]
    exact Chip.ringNext_appendRecord ..
  · rw [Chip.ringTail, Chip.hbmLe, hbm]
    exact Chip.ringTail_appendRecord _ _ array

/-- The machine MIRR leaves. -/
theorem mirr_ticket {s : State} {e : Eng} (d : BitVec 5) {n : Nat} (some : 64 ≤ n) (ad : Nat) :
    let t := s.chip.rangeMirrored e d ad n
    (d ≠ 0 → (t.eng e).getG d.toNat = BitVec.ofNat 64 (s.chip.eng e).nextTicket) ∧ (t.eng e).issued = (s.chip.eng e).nextTicket ∧
      (s.chip.par.role = .active → ∃ ms m, t.par.queue = s.chip.par.queue ++ ms ++ [m] ∧ m.cls = 5 ∧ m.last = true ∧
        m.ticket = (s.chip.eng e).nextTicket ∧ ∀ k ∈ ms, k.last = false) ∧
      (∀ o : Nat, o ≠ e.val → t.eng o = s.chip.eng o) ∧ t = { s.chip with engines := t.engines, par := t.par } ∧
      t.par = { s.chip.par with queue := t.par.queue } := by
  intro t
  let u := (s.chip.closed e).modEng e Engine.takeTicket
  let t' := u.mirrorRange e false (s.chip.eng e).nextTicket ad n
  have sent : u.QueueOnly t' := Chip.mirrorRange_queueOnly ..
  obtain ⟨result, issued, -, others⟩ := Chip.ticket_result (.refl _) sent d (s.chip.eng e).nextTicket
  obtain ⟨frame, pair⟩ := sent.retG_frame e d (s.chip.eng e).nextTicket
  refine ⟨result, issued, fun active => ?_, others, frame, pair⟩
  change ∃ ms m, t'.par.queue = _ ∧ _
  rw [show t' = _ from if_neg (by omega)]
  exact u.mirrorFrom_messages e false _ active (by omega) (by omega) ad

/-- Settles O16: past its checks each instruction stores and sends its bytes, which leaves the engines, and takes the ticket of its engine. -/
theorem ticketsAreTaken : Obligations.TicketsAreTaken := by
  unfold Obligations.TicketsAreTaken
  refine ⟨fun s e r d a b => ?_, fun s e r d a b => ?_, Engine.nextTicket_order⟩
  · intro x ad n f arr ready units some le short aligned inside size array made type
    have length : (mread zeros x.lm ad n).length = n := by simp [mread_eq_map]
    refine ⟨fun none => ?_, fun plan room => ?_⟩
    · exact exec_jrnl ready rfl rfl units some le short aligned inside size rfl array made type ((if_pos none).trans (Chip.retG_closed s e d 0))
    · refine ⟨_, exec_jrnl ready rfl rfl units some le short aligned inside size rfl array made type
        (if_neg fun none => none.elim plan (Nat.not_lt.mpr room)), s.put_pending _, ?_⟩
      rw [State.put_chip]
      have taken := jrnl_ticket (s := s) (e := e) d array (mread zeros x.lm ad n)
      rw [length] at taken
      exact taken
  · intro x ad n ready units some le aligned inside
    refine ⟨_, exec_mirr ready rfl rfl units some le aligned inside, s.put_pending _, ?_⟩
    rw [State.put_chip]
    exact mirr_ticket d some ad

end Sys2Proof.Machine
end

section
/-! Settles O17: LAND (R189), and the local write of a ticket (R185, R191). -/

namespace Sys2Proof.Machine

section
variable {s : State} {e : Eng} {r : Run} {d a : BitVec 5} {lim : BitVec 13} (h : s.chip.ready e r (.land e d a lim)) {t : Nat}
  (ht : ((s.chip.eng e).getG a.toNat).toNat = t)
/-- What LAND does with a ticket that was issued: by its confirmation, the role, and the limit, in this order (R189). -/
def Chip.landOn (c : Chip) (e : Eng) (d : BitVec 5) (lim : BitVec 13) (t : Nat) : Chip :=
  if 0 ≤ timeDiff (c.eng e).confirmed t then (c.closed e).retG e d ((c.eng e).landedValue t)
  else if c.par.role = .fenced ∨ c.par.role = .standby then (c.closed e).retG e d 3
  else if lim = 0 then (c.closed e).retG e d 2
  else (c.closed e).modEng e fun x => { x with wait := some (.land d.toNat t) }

include ht

theorem land_ticket : (((s.chip.closed e).eng e).g5 a).toNat = t := by rw [Chip.eng_closed]; exact ht

include h

theorem exec_land_bad (bad : t = 0 ∨ 2 ^ 48 ≤ t ∨ timeDiff (s.chip.eng e).issued t < 0) :
    exec (.land e d a lim) s = .next (s.faults e (.land e d a lim) 3 0) := by
  refine issue_faults h rfl _ _ _ ?_
  have issued : ((s.chip.closed e).eng e).issued = (s.chip.eng e).issued := by rw [Chip.eng_closed]
  simp only [land_ticket ht, issued]
  exact if_pos bad

theorem exec_land_issued (valid : ¬ (t = 0 ∨ 2 ^ 48 ≤ t ∨ timeDiff (s.chip.eng e).issued t < 0)) :
    exec (.land e d a lim) s = .next (s.put (s.chip.landOn e d lim t)) := by
  refine issue_done (c := s.chip.landOn e d lim t) h rfl _ ?_
  have issued : ((s.chip.closed e).eng e).issued = (s.chip.eng e).issued := by rw [Chip.eng_closed]
  have confirmed : ((s.chip.closed e).eng e).confirmed = (s.chip.eng e).confirmed := by rw [Chip.eng_closed]
  have landed : ((s.chip.closed e).eng e).landedValue = (s.chip.eng e).landedValue := by rw [Chip.eng_closed]; rfl
  have role : (s.chip.closed e).par.role = s.chip.par.role := rfl
  simp only [land_ticket ht, issued, confirmed, landed, role, Chip.landOn, apply_ite Except.ok]
  exact if_neg valid

end

/-- LAND's limit ends a wait with 2 (R189). -/
theorem exec_landLimit {s : State} {n : Se} {k u : Nat} (clocked : s.chip.clocked = true) (waiting : (s.chip.eng n).wait = some (.land k u)) :
    exec (.landLimit n) s = .next (s.put (s.chip.modEng n fun x => x.wake k 2)) := by
  refine (onChip_clocked _ clocked).trans (congrArg _ (congrArg s.put ?_))
  rw [landLimitOp, waiting]

/-- An engine that waits on nothing is not woken. -/
theorem Chip.landWake_idle {c : Chip} {e : Nat} (idle : (c.eng e).wait = none) : c.landWake e = c := by
  rw [Chip.landWake, idle]

/-- A ticket whose local write is complete, the only one of its engine, is confirmed alone (R185). -/
theorem Chip.confirmTicket_only {c : Chip} {e t : Nat} (only : (c.eng e).tickets = [{ num := t, localDone := true }]) (idle : (c.eng e).wait = none)
    (alone : Bool) : c.confirmTicket e t alone = (c.modEng e fun x =>
      { x with tickets := [], confirmed := t, landed := tinsert (terase x.landed t) t (c.nowNs, alone) }).pulse (0x50 + e) := by
  have waits : ∀ d : Chip, (d.eng e).wait = none → (d.pulse (0x50 + e)).landWake e = d.pulse (0x50 + e) := fun d hd => Chip.landWake_idle hd
  simp only [Chip.confirmTicket, only, confirmedFrom, List.any_cons, List.map_cons, List.map_nil, beq_self_eq_true, Bool.not_false, Bool.and_self,
    Bool.true_or, if_true]
  exact waits _ (by simp [idle])

/-- In ALONE the only ticket of an engine is confirmed as its local write completes (R185, R191). -/
theorem Chip.confirmAlone_only {c : Chip} {e t : Nat} (only : (c.eng e).tickets = [{ num := t, localDone := true }]) (idle : (c.eng e).wait = none) :
    c.confirmAlone e = (c.modEng e fun x =>
      { x with tickets := [], confirmed := t, landed := tinsert (terase x.landed t) t (c.nowNs, true) }).pulse (0x50 + e) := by
  rw [Chip.confirmAlone, only]
  exact Chip.confirmTicket_only only idle true

/-- The local write of a ticket completes: in ALONE this confirms tickets (R185, R191). -/
theorem exec_ticketLocalComplete {s : State} (e : Se) (t : BitVec 48) (clocked : s.chip.clocked = true) {c : Chip}
    (noted : (s.chip.modEng e fun x => { x with tickets := x.tickets.map fun k => if k.num = t.toNat then { k with localDone := true } else k }) = c) :
    exec (.ticketLocalComplete e t) s = .next (s.put (if s.chip.par.role = .alone then c.confirmAlone e else c)) := by
  subst noted
  exact onChip_clocked _ clocked

/-- Settles O17: the branches of LAND by the ticket, and the local write in ALONE and paired. -/
theorem ticketsLand : Obligations.TicketsLand := by
  unfold Obligations.TicketsLand
  refine ⟨fun s e r d a lim => ⟨fun ready => ⟨fun bad => ?_, fun some range issued => ?_⟩, fun n k u clocked waiting => exec_landLimit clocked waiting⟩,
    fun s e t clocked => ⟨fun paired => ?_, fun alone tickets idle => ?_⟩⟩
  · exact exec_land_bad ready rfl bad
  · refine ⟨fun confirmed => ?_, fun un away => ?_, fun un here zero => ?_, fun un here wait => ?_⟩
    all_goals rw [exec_land_issued ready rfl (by rintro (zero | large | later) <;> omega), Chip.landOn]
    · rw [if_pos confirmed, Chip.retG_closed]
      rfl
    · rw [if_neg (not_le.mpr un), if_pos away, Chip.retG_closed]
      rfl
    · rw [if_neg (not_le.mpr un), if_neg (by rcases here with role | role <;> simp [role]), if_pos zero, Chip.retG_closed]
      rfl
    · rw [if_neg (not_le.mpr un), if_neg (by rcases here with role | role <;> simp [role]), if_neg wait, Chip.closed, Chip.modEng_setEng]
      rfl
  · exact (exec_ticketLocalComplete e t clocked rfl).trans (by rw [if_neg paired])
  · rw [exec_ticketLocalComplete e t clocked rfl, if_pos alone,
      Chip.confirmAlone_only (t := t.toNat) (by simp [tickets]) (by simp [idle]), Chip.modEng_modEng]
    rfl

end Sys2Proof.Machine
end

section
/-! Rules for causes (R716, R725–R732): what a cause that is set, begins or ends leaves, by whether it is enabled, new, and in a block that handles. -/

namespace Sys2Proof.Machine

/-! ## Masks of causes -/

theorem bitsOf_two_pow : ∀ bit < 16, bitsOf (2 ^ bit) = [bit] := by decide

/-- A bit that is clear in a mask stays clear when other bits are taken out. -/
theorem bitAt_sub_and {x i : Nat} (clear : bitAt x i = false) (y : Nat) : bitAt (x - (x &&& y)) i = false := by
  have low : x % 2 ^ (i + 1) < 2 ^ i := by
    rw [bitAt, beq_eq_false_iff_ne] at clear
    rw [Nat.mod_pow_succ, show x / 2 ^ i % 2 = 0 by omega]
    simpa using Nat.mod_lt x (Nat.two_pow_pos i)
  have part : (x &&& y) % 2 ^ (i + 1) ≤ x % 2 ^ (i + 1) := by rw [Nat.and_mod_two_pow]; exact Nat.and_le_left
  have high : (x &&& y) / 2 ^ (i + 1) ≤ x / 2 ^ (i + 1) := Nat.div_le_div_right Nat.and_le_left
  have split : x - (x &&& y) = 2 ^ (i + 1) * (x / 2 ^ (i + 1) - (x &&& y) / 2 ^ (i + 1)) + (x % 2 ^ (i + 1) - (x &&& y) % 2 ^ (i + 1)) := by
    have hx := Nat.div_add_mod x (2 ^ (i + 1))
    have hy := Nat.div_add_mod (x &&& y) (2 ^ (i + 1))
    have := Nat.mul_le_mul_left (2 ^ (i + 1)) high
    rw [Nat.mul_sub]
    omega
  rw [bitAt_eq_testBit, split, Nat.testBit_two_pow_mul_add _ (Nat.lt_of_le_of_lt (Nat.sub_le ..) (Nat.mod_lt _ (Nat.two_pow_pos _))), if_pos (Nat.lt_succ_self i)]
  exact Nat.testBit_lt_two_pow (by omega)

/-- Which part of one cause is new and enabled. -/
theorem newAndEnabled (old enable bit : Nat) : 2 ^ bit &&& (2 ^ bit ^^^ (2 ^ bit &&& old)) &&& enable =
    if bitAt enable bit = true ∧ bitAt old bit = false then 2 ^ bit else 0 := by
  rw [bitAt_eq_testBit, bitAt_eq_testBit]
  cases h : old.testBit bit <;> cases k : enable.testBit bit <;> simp [Nat.two_pow_and, h, k]

section
variable (c : Chip) (r : Nat)

/-- The next place depends on the pair and the unit's order alone (R687). -/
theorem Chip.nextPlace_eq : c.nextPlace = if (c.par.role = .standby ∨ c.par.role = .fenced) ∧ 0 < c.par.blockLeft then c.par.blockNext else c.admNext := by
  unfold Chip.nextPlace Chip.takeSeq
  split <;> rfl

theorem Chip.nextPlace_setBlk (b : Block) : (c.setBlk r b).nextPlace = c.nextPlace := by
  rw [Chip.nextPlace_eq, Chip.nextPlace_eq]
  rfl

theorem Chip.eff_setBlk_same {b : Block} (same : b.effective = (c.blk r).effective) (o off lsb : Nat) : (c.setBlk r b).eff o off lsb = c.eff o off lsb := by
  unfold Chip.eff
  rcases eq_or_ne o r with rfl | other
  · rw [Chip.blk_setBlk_self, same]
  · rw [Chip.blk_setBlk_ne _ _ other]

/-- No cause raised changes nothing. -/
theorem Chip.raiseBits_zero : c.raiseBits r 0 = c := rfl

/-- A cause that is not enabled, or stood already, is set and nothing else happens (R725, R726). -/
theorem Chip.setCause_quiet {bit : Nat} (quiet : bitAt (c.enable r) bit = false ∨ bitAt (c.blk r).cause bit = true) :
    c.setCause r bit = c.setBlk r { c.blk r with cause := (c.blk r).cause ||| 2 ^ bit } := by
  rw [Chip.setCause, Chip.setCauses, newAndEnabled, if_neg (by rcases quiet with h | h <;> simp [h]), Chip.raiseBits_zero, Chip.modBlk]

/-- A cause that is enabled and new is raised (R726). -/
theorem Chip.setCause_raised {bit : Nat} (enabled : bitAt (c.enable r) bit = true) (fresh : bitAt (c.blk r).cause bit = false) :
    c.setCause r bit = (c.setBlk r { c.blk r with cause := (c.blk r).cause ||| 2 ^ bit }).raiseBits r (2 ^ bit) := by
  rw [Chip.setCause, Chip.setCauses, newAndEnabled, if_pos ⟨enabled, fresh⟩, Chip.modBlk]

/-- The end of a level cause's condition leaves STATUS (R730). -/
theorem Chip.setLevel_off (bit : Nat) :
    c.setLevel r bit false = c.setBlk r { c.blk r with level := (c.blk r).level - b2n (bitAt (c.blk r).level bit) * 2 ^ bit } := by
  simp [Chip.setLevel, Chip.modBlk, b2n]

/-- The begin of a level cause's condition sets its bit of STATUS (R716). -/
theorem Chip.setLevel_on (bit : Nat) : c.setLevel r bit true =
    (c.setBlk r { c.blk r with level := (c.blk r).level - b2n (bitAt (c.blk r).level bit) * 2 ^ bit + 2 ^ bit }).setCause r bit := by
  simp [Chip.setLevel, Chip.modBlk, b2n]

/-- One cause raised in a block that handles nothing, with no reaction, starts the handling (R727). -/
theorem Chip.raiseBits_start {bit : Nat} (small : bit < 16) (calm : (c.blk r).handling = false) (reaction : c.react r bit = 0) :
    c.raiseBits r (2 ^ bit) = (c.setBlk r { c.blk r with handling := true, place := c.nextPlace, first := bit, reacted := 0, errOut := false }).record
      2 r bit (c.blk r).cause 0 := by
  rw [Chip.raiseBits, bitsOf_two_pow bit small]
  simp only [calm, Chip.startHandling, List.foldl_cons, List.foldl_nil, List.any_cons, List.any_nil, reaction]
  simp [Chip.modBlk, Chip.actReaction, Nat.min_eq_right (by omega : bit ≤ 15)]

/-- One cause raised in a block that handles merges (R728). -/
theorem Chip.raiseBits_merge {bit : Nat} (small : bit < 16) (handling : (c.blk r).handling = true) : c.raiseBits r (2 ^ bit) = c.mergeCause r bit := by
  rw [Chip.raiseBits, bitsOf_two_pow bit small]
  simp [handling]

end
end Sys2Proof.Machine
end

section
/-! Settles O25: a cause set, raised, merged, ended and cleared (R725–R730), and the reports of the monitors (R716, R804, R839). -/

namespace Sys2Proof.Machine

section
variable (c : Chip) (r : Nat) {bit : Nat}

theorem Chip.setLevel_end (holds : bitAt (c.blk r).level bit = true) :
    c.setLevel r bit false = c.setBlk r { c.blk r with level := (c.blk r).level - 2 ^ bit } := by
  rw [Chip.setLevel_off, holds]
  simp [b2n]

/-- A cause that starts the handling changes its block and the recorder (R727). -/
theorem Chip.setCause_start (small : bit < 16) (enabled : bitAt (c.enable r) bit = true) (fresh : bitAt (c.blk r).cause bit = false)
    (calm : (c.blk r).handling = false) (reaction : c.react r bit = 0) : ∃ e, c.setCause r bit = { c.setBlk r { c.blk r with
      cause := (c.blk r).cause ||| 2 ^ bit, handling := true, place := c.nextPlace, first := bit, reacted := 0, errOut := false } with evr := e } := by
  have reacts : (c.setBlk r { c.blk r with cause := (c.blk r).cause ||| 2 ^ bit }).react r bit = 0 :=
    (c.eff_setBlk_same r (b := { c.blk r with cause := (c.blk r).cause ||| 2 ^ bit }) rfl ..).trans reaction
  rw [Chip.setCause_raised _ _ enabled fresh, Chip.raiseBits_start _ _ small (by simp [calm]) reacts]
  obtain ⟨e, recorded⟩ := Chip.record_evr _ 2 r bit ((c.blk r).cause ||| 2 ^ bit) 0
  refine ⟨e, ?_⟩
  rw [Chip.blk_setBlk_self, recorded, Chip.setBlk_setBlk, Chip.nextPlace_setBlk]

/-- A cause that merges changes its block and the recorder (R728). -/
theorem Chip.setCause_merge (small : bit < 16) (enabled : bitAt (c.enable r) bit = true) (fresh : bitAt (c.blk r).cause bit = false)
    (handling : (c.blk r).handling = true) : ∃ e, c.setCause r bit = { c.setBlk r { c.blk r with
      cause := (c.blk r).cause ||| 2 ^ bit, late := (c.blk r).late ||| 2 ^ bit, merged := min ((c.blk r).merged + 1) (2 ^ 32 - 1)
      watch := if (c.blk r).watch.contains bit then (c.blk r).watch else (c.blk r).watch ++ [bit] } with evr := e } := by
  rw [Chip.setCause_raised _ _ enabled fresh, Chip.raiseBits_merge _ _ small (by simp [handling]), Chip.mergeCause, Chip.modBlk]
  obtain ⟨e, recorded⟩ := Chip.record_evr _ 2 r (bit + 0x8000) _ 0
  refine ⟨e, ?_⟩
  rw [recorded, Chip.blk_setBlk_self, Chip.setBlk_setBlk]
  rfl

end

/-! ## STATUS_W1C (R729, R730) -/

/-- A cause whose end some command reports keeps its condition at a write of STATUS. -/
theorem Chip.mayEnd_seen (c : Chip) {r k : Nat} (seen : unseenLevel r k = false) (energy : ¬ (r = 90 ∧ k = 4)) : c.mayEnd r k = c := by
  rw [Chip.mayEnd, if_neg (fun h => energy ⟨h.1, h.2.1⟩), seen]
  rfl

theorem Chip.mayEnd_all (c : Chip) {r : Nat} (l : List Nat) (seen : ∀ k ∈ l, unseenLevel r k = false ∧ ¬ (r = 90 ∧ k = 4)) :
    l.foldl (fun c b => c.mayEnd r b) c = c := by
  induction l with
  | nil => rfl
  | cons k l ih =>
    obtain ⟨hk, energy⟩ := seen k (by simp)
    rw [List.foldl_cons, Chip.mayEnd_seen _ hk energy]
    exact ih fun j hj => seen j (by simp [hj])

theorem mem_bitsOf_low {m k : Nat} (h : k ∈ bitsOf (m % 2 ^ 16)) : k < 16 ∧ bitAt m k = true := by
  obtain ⟨small, set⟩ := List.mem_filter.mp h
  have small := List.mem_range.mp small
  rw [bitAt_eq_testBit, Nat.testBit_mod_two_pow] at set
  exact ⟨small, by simpa [bitAt_eq_testBit, small] using set⟩

theorem bitAt_and_low {m k : Nat} (x : Nat) (clear : bitAt m k = false) : bitAt (x &&& m % 2 ^ 16) k = false := by
  rw [bitAt_eq_testBit] at *
  rw [Nat.testBit_and, Nat.testBit_mod_two_pow, clear, Bool.and_false, Bool.and_false]

/-- A write of STATUS clears event causes, and level causes whose condition has ended (R729, R730). -/
theorem statusW1COp_seen (c : Chip) {r : Rec} (block : r ≠ 0) {v : W32}
    (seen : ∀ k < 16, bitAt v.toNat k = true → unseenLevel r k = false ∧ ¬ (r = 90 ∧ k = 4)) (engine : bitAt v.toNat 3 = false) {gone left : Nat}
    (hg : ((c.blk r).cause &&& (v.toNat % 2 ^ 16)) - (((c.blk r).cause &&& (v.toNat % 2 ^ 16)) &&& (c.blk r).level) = gone)
    (hl : (c.blk r).cause - gone = left) :
    statusW1COp r v c = Chip.releaseErr (c.setBlk r { c.blk r with
      cause := left, handling := (c.blk r).handling && left != 0, watch := (c.blk r).watch.filter fun k => bitAt left k && left != 0 }) := by
  have stays := c.mayEnd_all (r := r) (bitsOf (v.toNat % 2 ^ 16)) fun k hk => (mem_bitsOf_low hk).elim fun small set => by
    obtain ⟨hs, he⟩ := seen k small set
    exact ⟨hs, fun h => he ⟨Fin.ext h.1, h.2⟩⟩
  have running : bitAt gone 3 = false := by rw [← hg]; exact bitAt_sub_and (bitAt_and_low _ engine) _
  simp only [statusW1COp, if_neg block, stays, hg, hl, running]
  rfl

/-! ## The monitors (R716, R804, R839) -/

section
variable {s : State} (clocked : s.chip.clocked = true)
include clocked

theorem exec_eccUncorr {r : Rec} (block : r ≠ 0) : exec (.eccUncorr r) s = .next (s.put (s.chip.setCause r 0)) :=
  (onChip_clocked _ clocked).trans (by rw [eccUncorrOp, if_neg block])

theorem exec_checkerMismatch {r : Rec} (block : r ≠ 0) : exec (.checkerMismatch r) s = .next (s.put (s.chip.setCause r 1)) :=
  (onChip_clocked _ clocked).trans (by rw [checkerMismatchOp, if_neg block])

theorem exec_configScrub {r : Rec} (block : r ≠ 0) : exec (.configScrub (some r)) s = .next (s.put (s.chip.setLevel r 2 true)) :=
  (onChip_clocked _ clocked).trans (by simp only [configScrubOp, if_neg block])

theorem exec_configScrub_none : exec (.configScrub none) s = .next s := onChip_clocked _ clocked

/-- A clock newly lost is not locked, and its level cause begins (R804). -/
theorem exec_clockFault_loss {k : Fin 6} (good : (k.val, false) ∉ s.chip.pwr.clkBad) (locked : bitAt s.chip.pwr.clkLocked k = true) :
    exec (.clockFault k .loss) s = .next (s.put (Chip.setLevel { s.chip with
      pwr := { s.chip.pwr with clkLocked := s.chip.pwr.clkLocked - 2 ^ k.val, clkBad := s.chip.pwr.clkBad ++ [(k.val, false)] } } 87 3 true)) := by
  refine (onChip_clocked _ clocked).trans ?_
  simp only [clockFaultOp, locked, List.contains_eq_mem, good]
  simp [b2n]

/-- A clock newly off its frequency stays locked, and its level cause begins (R804). -/
theorem exec_clockFault_freq {k : Fin 6} (good : (k.val, true) ∉ s.chip.pwr.clkBad) : exec (.clockFault k .freq) s =
    .next (s.put (Chip.setLevel { s.chip with pwr := { s.chip.pwr with clkBad := s.chip.pwr.clkBad ++ [(k.val, true)] } } 87 4 true)) := by
  refine (onChip_clocked _ clocked).trans ?_
  simp only [clockFaultOp, List.contains_eq_mem, good]
  simp

end

end Sys2Proof.Machine

namespace Sys2Proof.Laws
open Sys2Proof.Machine

/-- Settles O25: a quiet cause, a new one in a calm block and in one that handles, the end of a level, the write of STATUS, and the monitors. -/
theorem causes : Obligations.Causes := by
  unfold Obligations.Causes
  refine ⟨fun c r bit small => ⟨c.setCause_quiet r, ?_, ?_, c.setLevel_end r⟩, fun s w r v clocked block => ⟨?_, exec_eccUncorr clocked block,
    exec_checkerMismatch clocked block, exec_configScrub clocked block, exec_configScrub_none clocked, onChip_clocked _ clocked, onChip_clocked _ clocked,
    fun k => exec_clockFault_loss clocked, fun k => exec_clockFault_freq clocked⟩⟩
  · intro enabled fresh calm reaction
    obtain ⟨e, started⟩ := c.setCause_start r small enabled fresh calm reaction
    rw [started]
    exact ⟨c.blk_setBlk_self .., fun o other => c.blk_setBlk_ne _ other, rfl⟩
  · intro enabled fresh handling
    obtain ⟨e, merged⟩ := c.setCause_merge r small enabled fresh handling
    rw [merged]
    exact ⟨c.blk_setBlk_self .., fun o other => c.blk_setBlk_ne _ other, rfl⟩
  · intro reach seen engine
    exact (onWrite_reached _ clocked reach).trans (by rw [statusW1COp_seen _ block seen engine rfl rfl])

end Sys2Proof.Laws
end

section
/-! Rules for events (R30, R32, R687): what an event that happens leaves. -/

namespace Sys2Proof.Machine

/-- The pair's record after a place was taken: the granted block and the latest place. -/
def Par.Placed (p q : Par) : Prop := ∃ n l t, q = { p with blockNext := n, blockLeft := l, lastTaken := t }

/-- `t` is `c` with one more event raised, at a place of the admission order. -/
def Chip.Told (c t : Chip) : Prop :=
  ∃ n p pools x, c.par.Placed p ∧ t = { c with admNext := n, par := p, pools := pools, raised := c.raised ++ [x] }

section
variable (c : Chip)

/-- A place taken changes the order and the granted block alone. -/
theorem Chip.takeSeq_placed : ∃ n p, c.par.Placed p ∧ c.takeSeq.2 = { c with admNext := n, par := p } := by
  rcases c.takeSeq_cases with ⟨-, taken⟩ | ⟨-, taken⟩
  · rw [taken]
    exact ⟨_, _, ⟨_, _, _, rfl⟩, rfl⟩
  · rw [taken]
    exact ⟨_, _, ⟨_, _, _, rfl⟩, rfl⟩

variable (type info data : Nat)

/-- An event that happens is raised once, and changes the order and pool 5 besides (R32). -/
theorem Chip.happen_told : c.Told (c.happen type info data) := by
  obtain ⟨n, p, placed, taken⟩ := c.takeSeq_placed
  rw [Chip.happen_eq, Chip.raise, Chip.raiseTo_eq, taken]
  exact ⟨_, _, _, _, placed, rfl⟩

/-- What the event carries, and whom it reaches (R320). -/
theorem Chip.happen_raised : (c.happen type info data).raised = c.raised ++
    [{ ev := { type := type, info := info, data := data % 2 ^ 32, seq := c.nextPlace }, targets := (List.range 128).filter fun f => c.reaches type f }] := by
  obtain ⟨n, p, placed, taken⟩ := c.takeSeq_placed
  rw [Chip.happen_eq, Chip.raise, Chip.raiseTo_eq, taken]
  rfl

/-- An event takes its place as any admission does. -/
theorem Chip.happen_order : (c.happen type info data).admNext = c.takeSeq.2.admNext ∧ (c.happen type info data).par = c.takeSeq.2.par := ⟨rfl, rfl⟩

theorem Chip.happen_pool {p : Nat} (other : p ≠ 5) : (c.happen type info data).pool p = c.pool p := by
  obtain ⟨n, q, placed, taken⟩ := c.takeSeq_placed
  rw [Chip.happen_eq, Chip.raise, Chip.raiseTo_eq, taken]
  exact tget_put_ne _ _ _ other

end
end Sys2Proof.Machine
end

section
/-! Settles O24: an event takes one place and is raised once (R30, R32, R320, R687); the recorder stores a record (R758–R764). -/

namespace Sys2Proof.Machine

section
variable (c : Chip)

/-- A unit with the token, or without a granted block left, takes its places in sequence (R30). -/
theorem Chip.takeSeq_own (own : c.par.role = .active ∨ c.par.role = .alone ∨ c.par.blockLeft = 0) :
    c.takeSeq = (c.admNext, { c with admNext := (c.admNext + 1) % 2 ^ 48, par := { c.par with lastTaken := c.admNext } }) :=
  if_neg fun ⟨role, left⟩ => by
    rcases own with h | h | h
    · simp [h] at role
    · simp [h] at role
    · omega

/-- A unit without the token takes its places from its granted block while that lasts (R687). -/
theorem Chip.takeSeq_granted (role : c.par.role = .standby ∨ c.par.role = .fenced) (left : 0 < c.par.blockLeft) : c.takeSeq = (c.par.blockNext,
    { c with par := { c.par with blockNext := (c.par.blockNext + 1) % 2 ^ 48, blockLeft := c.par.blockLeft - 1, lastTaken := c.par.blockNext } }) :=
  if_pos ⟨role, left⟩

variable (kind rec code a0 a1 : Nat)

theorem Chip.record_disabled (disabled : bitAt (c.eff 92 0x100 1) (kind - 1) = false) : c.record kind rec code a0 a1 = c := by
  rw [Chip.record, disabled]
  rfl

/-- The record of a happening (R759). -/
def Chip.recordOf : EvrRec :=
  { time := c.nowLayout, kind := kind, record := rec, code := code, seq := c.admNext, arg0 := a0 % 2 ^ 32, arg1 := a1 % 2 ^ 32 }

/-- A record of an enabled kind is handed to the ring (R758). -/
theorem Chip.record_enabled (enabled : bitAt (c.eff 92 0x100 1) (kind - 1) = true) : (c.record kind rec code a0 a1).evr =
    c.evr.store (c.eff 92 0x100 9 == 1) (c.recordOf kind rec code a0 a1) := by
  rw [Chip.record, if_pos enabled]
  rfl

end

/-- Settles O24: the two ways of taking a place, and the fates of a record. -/
theorem eventsAndTheRecorder : Obligations.EventsAndTheRecorder := by
  unfold Obligations.EventsAndTheRecorder
  refine ⟨fun c type info data => ⟨c.happen_raised .., fun own => ?_, fun role left => ?_, ?_, fun p other => c.happen_pool _ _ _ other⟩,
    fun c kind rec code a0 a1 => ⟨?_, c.record_disabled _ _ _ _ _, fun enabled shut => ?_, fun enabled thawed room => ?_⟩⟩
  · obtain ⟨adm, par⟩ := c.happen_order type info data
    rw [adm, par, Chip.nextPlace, c.takeSeq_own own]
    exact ⟨rfl, rfl, rfl⟩
  · obtain ⟨adm, par⟩ := c.happen_order type info data
    rw [adm, par, Chip.nextPlace, c.takeSeq_granted role left]
    exact ⟨rfl, rfl, rfl⟩
  · obtain ⟨n, p, pools, x, -, told⟩ := c.happen_told type info data
    rw [told]
  · obtain ⟨e, recorded⟩ := c.record_evr kind rec code a0 a1
    rw [recorded]
  · rw [Chip.record_enabled _ _ _ _ _ _ enabled, Evr.store_dropped _ _ _ (by simpa using shut)]
    rfl
  · rw [Chip.record_enabled _ _ _ _ _ _ enabled]
    obtain ⟨ring, next, rseq, -⟩ := Evr.store_ring c.evr (c.eff 92 0x100 9 == 1) (c.recordOf kind rec code a0 a1) (by simpa [thawed] using room)
    rw [ring]
    exact ⟨tget_put_self .., fun k other => tget_put_ne _ _ _ other, next, rseq⟩

end Sys2Proof.Machine
end

section
/-! Settles O22: measurements move the time base (R101, R105–R110), and the loss of its source (R107, R716). -/

namespace Sys2Proof.Machine

/-! ## What an event leaves -/

section
variable {c t : Chip} (told : c.Told t)
include told

theorem Chip.Told.tmb : t.tmb = c.tmb := by obtain ⟨_, _, _, _, _, rfl⟩ := told; rfl
theorem Chip.Told.blocks : t.blocks = c.blocks := by obtain ⟨_, _, _, _, _, rfl⟩ := told; rfl
theorem Chip.Told.pulses : t.pulses = c.pulses := by obtain ⟨_, _, _, _, _, rfl⟩ := told; rfl
theorem Chip.Told.rma : t.rma = c.rma := by obtain ⟨_, _, _, _, _, rfl⟩ := told; rfl
theorem Chip.Told.raised : t.raised.length = c.raised.length + 1 := by obtain ⟨_, _, _, _, _, rfl⟩ := told; simp

theorem Chip.Told.blk (r : Nat) : t.blk r = c.blk r := by rw [Chip.blk, told.blocks, Chip.blk]

theorem Chip.Told.eff (r off lsb : Nat) : t.eff r off lsb = c.eff r off lsb := by rw [Chip.eff, told.blk, Chip.eff]

end

/-! ## The time base alone -/

/-- A chip that differs from `c` in the time base, in an event told, and in the blocks at most. -/
def Chip.TimeFrame (c t : Chip) : Prop := ∃ m e n p r q b,
  t = { c with tmb := m, evr := e, admNext := n, par := p, raised := r, pools := q, blocks := b }

theorem Chip.TimeFrame.refl (c : Chip) : c.TimeFrame c := ⟨_, _, _, _, _, _, _, rfl⟩

theorem Chip.TimeFrame.trans {c d t : Chip} (h : c.TimeFrame d) (k : d.TimeFrame t) : c.TimeFrame t := by
  obtain ⟨_, _, _, _, _, _, _, rfl⟩ := h
  obtain ⟨_, _, _, _, _, _, _, rfl⟩ := k
  exact ⟨_, _, _, _, _, _, _, rfl⟩

theorem Chip.Told.timeFrame {c t : Chip} (told : c.Told t) : c.TimeFrame t := by
  obtain ⟨_, _, _, _, _, rfl⟩ := told
  exact ⟨_, _, _, _, _, _, _, rfl⟩

theorem Chip.timeFrame_with (c : Chip) (m : Tmb) (e : Evr) : c.TimeFrame { c with tmb := m, evr := e } := ⟨_, _, _, _, _, _, _, rfl⟩

theorem Chip.timeFrame_setBlk (c : Chip) (r : Nat) (b : Block) : c.TimeFrame (c.setBlk r b) := ⟨_, _, _, _, _, _, _, rfl⟩

/-- The fields outside the frame stand as they were. -/
theorem Chip.TimeFrame.eq {c t : Chip} (h : c.TimeFrame t) : t = { c with
    tmb := t.tmb, evr := t.evr, admNext := t.admNext, par := t.par, raised := t.raised, pools := t.pools, blocks := t.blocks } := by
  obtain ⟨_, _, _, _, _, _, _, rfl⟩ := h
  rfl

/-! ## States of the time base -/

section
variable (c : Chip)

/-- A TIME_STATE event is recorded and raised (R857). -/
theorem Chip.timeEvent_told : ∃ e, ({ c with evr := e } : Chip).Told c.timeEvent := by
  obtain ⟨e, recorded⟩ := c.record_evr 6 76 (c.timeWord % 256) (c.tmb.epoch % 2 ^ 16) 0
  exact ⟨e, by rw [Chip.timeEvent, recorded]; exact Chip.happen_told ..⟩

theorem Chip.eff_setLevel_off (r bit k off lsb : Nat) : (c.setLevel r bit false).eff k off lsb = c.eff k off lsb := by
  have same := fun l => c.eff_setBlk_same r (b := { c.blk r with level := l }) rfl k off lsb
  rw [Chip.setLevel_off, same]

/-- The begin of a level cause that is not enabled changes its bits alone (R716, R725). -/
theorem Chip.setLevel_on_quiet {r bit : Nat} (disabled : bitAt (c.enable r) bit = false) : c.setLevel r bit true = c.setBlk r { c.blk r with
    cause := (c.blk r).cause ||| 2 ^ bit, level := (c.blk r).level - b2n (bitAt (c.blk r).level bit) * 2 ^ bit + 2 ^ bit } := by
  have same : ∀ l, (c.setBlk r { c.blk r with level := l }).enable r = c.enable r := fun l =>
    c.eff_setBlk_same r (b := { c.blk r with level := l }) rfl ..
  rw [Chip.setLevel_on, Chip.setCause_quiet _ _ (.inl (by rw [same, disabled])), Chip.blk_setBlk_self, Chip.setBlk_setBlk]

/-- FOLLOWING_PARTNER and OFFSET_LARGE that keep their values change nothing. -/
theorem Chip.setFollowing_same {b : Bool} (same : c.tmb.following = b) : c.setFollowing b = c := if_pos same

theorem Chip.setLarge_same {b : Bool} (same : c.tmb.offsetLarge = b) : c.setLarge b = c := if_pos same

theorem Chip.wakeStepDone_none (step : Int) (none : c.tmb.wakePending = false) : c.wakeStepDone step = c := by
  rw [Chip.wakeStepDone, none]
  rfl

/-- A start-up milestone is told at most once (R832). -/
theorem Chip.milestone_cases (n : Nat) : c.milestone n = c ∨ ∃ p, ({ c with pwr := p } : Chip).Told (c.milestone n) := by
  unfold Chip.milestone
  split
  · exact .inl rfl
  · exact .inr ⟨_, Chip.happen_told ..⟩

/-- The time base as it stands in a state that it entered. -/
def Tmb.entered (m : Tmb) (next : TimeState) : Tmb := { m with state := next, run := 0 }

/-- A state that is entered is told, and then SOURCE_LOST holds or ends (R716, R857). -/
theorem Chip.enterTime_told (next : TimeState) : ∃ e t, ({ c with tmb := c.tmb.entered next, evr := e } : Chip).Told t ∧
    (next ≠ .locked → c.enterTime next = t.setLevel 76 3 (next == .holdover)) ∧
    (next = .locked → c.enterTime next = Chip.milestone (Chip.pulse { t.setLevel 76 3 false with
      tmb := { t.tmb with lockedEpoch := true, lockedEver := true }, rma := { t.rma with ready := true } } 0xF1) 5) := by
  obtain ⟨e, told⟩ := ({ c with tmb := c.tmb.entered next } : Chip).timeEvent_told
  refine ⟨e, _, told, fun unlocked => ?_, fun locked => ?_⟩
  · exact if_neg unlocked
  · subst locked
    rfl

/-- The time base enters a state other than LOCKED, with SOURCE_LOST not enabled where it is HOLDOVER. -/
theorem Chip.enterTime_unlocked {next : TimeState} (unlocked : next ≠ .locked) (quiet : next = .holdover → bitAt (c.enable 76) 3 = false) :
    let t := c.enterTime next
    t.tmb = c.tmb.entered next ∧ t.raised.length = c.raised.length + 1 ∧ (∀ o, o ≠ 76 → t.blk o = c.blk o) ∧ c.TimeFrame t ∧
      (next = .holdover → bitAt (t.blk 76).cause 3 = true ∧ bitAt (t.blk 76).level 3 = true) := by
  obtain ⟨e, t, told, entered, -⟩ := c.enterTime_told next
  have frame : c.TimeFrame t := (c.timeFrame_with _ e).trans told.timeFrame
  rw [entered unlocked]
  by_cases lost : next = .holdover
  · have disabled : bitAt (t.enable 76) 3 = false := by rw [Chip.enable, told.eff]; exact quiet lost
    rw [show (next == .holdover) = true by simp [lost], t.setLevel_on_quiet disabled]
    refine ⟨told.tmb, told.raised, fun o other => (t.blk_setBlk_ne _ other).trans (told.blk o), frame.trans (t.timeFrame_setBlk ..), fun _ => ?_⟩
    rw [Chip.blk_setBlk_self]
    refine ⟨by rw [bitAt_eq_testBit, Nat.testBit_or, Nat.testBit_two_pow_self, Bool.or_true], ?_⟩
    simpa [b2n] using bitAt_replace (t.blk 76).level 3 3 true
  · rw [show (next == .holdover) = false by simp [lost], Chip.setLevel_off]
    exact ⟨told.tmb, told.raised, fun o other => (t.blk_setBlk_ne _ other).trans (told.blk o), frame.trans (t.timeFrame_setBlk ..), fun h => absurd h lost⟩

/-- The time base enters LOCKED (R111, R652, R832). -/
theorem Chip.enterTime_locked : let t := c.enterTime .locked
    t.tmb = { c.tmb.entered .locked with lockedEpoch := true, lockedEver := true } ∧ t.pulses = c.pulses ++ [0xF1] ∧ t.rma.ready = true ∧
      ∀ r off lsb, t.eff r off lsb = c.eff r off lsb := by
  obtain ⟨e, t, told, -, entered⟩ := c.enterTime_told .locked
  have effects : ∀ r off lsb, (t.setLevel 76 3 false).eff r off lsb = c.eff r off lsb := fun r off lsb => by
    rw [Chip.eff_setLevel_off, told.eff]
    rfl
  have pulses : (t.setLevel 76 3 false).pulses = c.pulses := told.pulses
  rw [entered rfl]
  have base : ({ t.tmb with lockedEpoch := true, lockedEver := true } : Tmb) = _ :=
    congrArg (fun m : Tmb => { m with lockedEpoch := true, lockedEver := true }) told.tmb
  rcases Chip.milestone_cases _ 5 with same | ⟨p, later⟩
  · rw [same]
    exact ⟨base, congrArg (· ++ [0xF1]) pulses, rfl, effects⟩
  · refine ⟨later.tmb.trans base, later.pulses.trans (congrArg (· ++ [0xF1]) pulses), by rw [later.rma]; rfl, fun r off lsb => (later.eff ..).trans (effects ..)⟩

end

/-! ## Measurements (R105, R106) -/

section
variable (c : Chip)

/-- The time base at the start of an epoch (R105). -/
def Tmb.epoched (m : Tmb) (now : Nat) : Tmb :=
  { m with now := now, epoch := (m.epoch + 1) % 2 ^ 16, lockedEpoch := false, measured := true, freeAfterSiding := false }

/-- An epoch step sets the counter, and enters the next state (R105). -/
theorem Chip.epochStep_eq {off : Int} {dest : Option Nat} {next : TimeState}
    (awake : (Chip.enterTime { c with tmb := c.tmb.epoched (c.stepCounter off dest).tmb.now } next).tmb.wakePending = false) :
    c.epochStep off dest next = Chip.enterTime { c with tmb := c.tmb.epoched (c.stepCounter off dest).tmb.now } next :=
  Chip.wakeStepDone_none _ _ awake

/-- A first measurement makes the time base LOCKING (R105). -/
theorem Chip.epochStep_locking (off : Int) (dest : Option Nat) (sleep : c.tmb.wakePending = false) : let t := c.epochStep off dest .locking
    t.tmb = (c.tmb.epoched (c.stepCounter off dest).tmb.now).entered .locking ∧ t.raised.length = c.raised.length + 1 ∧
      (∀ o, o ≠ 76 → t.blk o = c.blk o) ∧ c.TimeFrame t := by
  obtain ⟨base, raised, blocks, frame, -⟩ := Chip.enterTime_unlocked { c with tmb := c.tmb.epoched (c.stepCounter off dest).tmb.now }
    (next := .locking) (by decide) (by simp)
  rw [Chip.epochStep_eq _ (by rw [base]; exact sleep)]
  exact ⟨base, raised, blocks, (c.timeFrame_with _ c.evr).trans frame⟩

/-- A first measurement makes a FREE time base LOCKED (R105). -/
theorem Chip.epochStep_locked (off : Int) (dest : Option Nat) (sleep : c.tmb.wakePending = false) : let t := c.epochStep off dest .locked
    t.tmb = { (c.tmb.epoched (c.stepCounter off dest).tmb.now).entered .locked with lockedEpoch := true, lockedEver := true } ∧
      t.pulses = c.pulses ++ [0xF1] ∧ t.rma.ready = true ∧ ∀ r off lsb, t.eff r off lsb = c.eff r off lsb := by
  obtain ⟨base, pulses, ready, same⟩ := Chip.enterTime_locked { c with tmb := c.tmb.epoched (c.stepCounter off dest).tmb.now }
  rw [Chip.epochStep_eq _ (by rw [base]; exact sleep)]
  exact ⟨base, pulses, ready, same⟩

/-- The counter steps to a named time. -/
theorem Chip.stepCounter_to (off : Int) (ns : Nat) : (c.stepCounter off (some ns)).tmb.now = ns * 65536 := by
  simp only [Chip.stepCounter]
  split <;> omega

/-- The counter steps by minus the offset. -/
theorem Chip.stepCounter_by {off : Int} (ahead : off * 65536 ≤ c.tmb.now) : ((c.stepCounter off none).tmb.now : Int) = c.tmb.now - off * 65536 := by
  simp only [Chip.stepCounter]
  split <;> omega

/-- A measurement that does not leave the partner's time (R120). -/
theorem Chip.measureOwn_own {c : Chip} (own : c.tmb.following = false) (off : Int) (dest : Option Nat) : c.measureOwn off dest = c.measure off dest := by
  rw [Chip.measureOwn, Chip.setFollowing_same _ own]

/-- The first measurement in UNSET begins an epoch (R105). -/
theorem Chip.measure_unset {c : Chip} (unset : c.tmb.state = .unset) (off : Int) (dest : Option Nat) : c.measure off dest =
    Chip.epochStep { c with tmb := { c.tmb with offset := satInt (2 ^ 31 - 1) off, measured := true } } off dest .locking := if_pos unset

/-- What a first measurement leaves: the epoch's time base, told once (R105). -/
theorem Chip.measure_first {c : Chip} (unset : c.tmb.state = .unset) (sleep : c.tmb.wakePending = false) (off : Int) (dest : Option Nat) :
    ∃ t, c.measure off dest = t ∧ t.tmb = (Tmb.epoched { c.tmb with offset := satInt (2 ^ 31 - 1) off, measured := true }
      (c.stepCounter off dest).tmb.now).entered .locking ∧ t.raised.length = c.raised.length + 1 ∧ (∀ o, o ≠ 76 → t.blk o = c.blk o) ∧ c.TimeFrame t := by
  obtain ⟨base, raised, blocks, frame⟩ := Chip.epochStep_locking
    { c with tmb := { c.tmb with offset := satInt (2 ^ 31 - 1) off, measured := true } } off dest sleep
  exact ⟨_, Chip.measure_unset unset .., base, raised, blocks, (c.timeFrame_with _ c.evr).trans frame⟩

/-- The rate of a FREE time base is what its register names (R106). -/
def Chip.freeRate (c : Chip) : Chip := { c with tmb := { c.tmb with rate := toSigned 32 (c.eff 76 0x128 0) } }

/-- The time base as a measurement finds it `n` units later. -/
def Tmb.measuredAfter (m : Tmb) (n : Nat) (off : Int) : Tmb := { m with now := m.now + n, up := m.up + n, offset := satInt (2 ^ 31 - 1) off }

/-- A FREE time base after its first measurement, `n` units later. -/
def Chip.freed (c : Chip) (n : Nat) (off : Int) : Chip :=
  Chip.freeRate (Chip.epochStep { c with tmb := c.tmb.measuredAfter n off } off (some c.todNs) .locked)

/-- The first measurement of a FREE time base sets its time and its rate (R106). -/
theorem Chip.freed_first {c : Chip} (sleep : c.tmb.wakePending = false) (n : Nat) (off : Int) :
    (c.freed n off).tmb = { ((c.tmb.measuredAfter n off).epoched (c.todNs * 65536)).entered .locked with
        lockedEpoch := true, lockedEver := true, rate := toSigned 32 (c.eff 76 0x128 0) } ∧
      (c.freed n off).pulses = c.pulses ++ [0xF1] ∧ (c.freed n off).rma.ready = true := by
  obtain ⟨base, pulses, ready, same⟩ := Chip.epochStep_locked { c with tmb := c.tmb.measuredAfter n off } off (some c.todNs) sleep
  have rate : ∀ m, ({ c with tmb := m } : Chip).eff 76 0x128 0 = c.eff 76 0x128 0 := fun _ => rfl
  rw [Chip.stepCounter_to] at base
  exact ⟨by rw [Chip.freed, Chip.freeRate, base, same, rate], pulses, ready⟩

theorem Chip.measure_valid {c : Chip} (valid : c.tmb.state ≠ .unset) (off : Int) (dest : Option Nat) : c.measure off dest =
    Chip.measureValid { c with tmb := { c.tmb with offset := satInt (2 ^ 31 - 1) off, measured := true } } off := if_neg valid

/-- A measurement within LOCK_THRESH while LOCKED sets the rate that the servo chooses (R108, R110). -/
theorem Chip.measureValid_held {off : Int} (locked : c.tmb.state = .locked) (calm : c.tmb.offsetLarge = false) (close : off.natAbs ≤ c.eff 76 0x110 0)
    (small : off.natAbs ≤ 1000 * c.eff 76 0x110 16) : c.measureValid off = { c with
      tmb := { c.tmb with run := 0, rate := (Config.freeValue c.free % 65536001 : Nat) - 32768000 }, free := c.free + 1 } := by
  have within : c.within off = true := decide_eq_true close
  rw [Chip.measureValid, Chip.setLarge_same _ (by rw [calm, decide_eq_false (by omega)])]
  simp only [locked, within, Chip.countRun, Bool.not_true, Bool.not_false, if_true, Chip.servo, calm]
  rfl

end

section
variable {s : State} (clocked : s.chip.clocked = true)
include clocked

/-- A Sync on the port of the time base's source is a measurement (R106). -/
theorem exec_syncReceive {p : Port} (off : Int) (own : s.chip.tmb.following = false) (ptp : s.chip.timeMode = 0)
    (port : bitAt (s.chip.eff 76 0x108 4) p.val = true) :
    exec (.syncReceive p off) s = .next (s.put (Chip.measure { s.chip with tmb := { s.chip.tmb with slave := some p } } off none)) := by
  refine (onChip_clocked _ clocked).trans (congrArg _ (congrArg s.put ?_))
  rw [syncReceiveOp, if_neg (by simp [clocked, ptp, port])]
  exact Chip.measureOwn_own (by exact own) off none

/-- An edge while the source is another only leaves its timestamp (R130). -/
theorem exec_ppsInEdge_other (other : s.chip.timeMode ≠ 1) :
    exec .ppsInEdge s = .next (s.put { s.chip with tmb := { s.chip.tmb with ppsInTs := s.chip.nowLayout, ppsInSeen := true } }) := by
  refine (onChip_clocked _ clocked).trans ?_
  simp only [ppsInEdgeOp, clocked]
  rw [if_neg (by decide)]
  exact congrArg _ (congrArg s.put (if_pos other))

/-- An edge that sets the time: the source is PPS, and TOD_PENDING stands in UNSET (R106). -/
theorem exec_ppsInEdge_set (pps : s.chip.timeMode = 1) (unset : s.chip.tmb.state = .unset) (pending : s.chip.tmb.todPending = true)
    (own : s.chip.tmb.following = false) : ∃ off : Int, exec .ppsInEdge s = .next (s.put (Chip.measure { s.chip with
      tmb := { s.chip.tmb with ppsInTs := s.chip.nowLayout, ppsInSeen := true, todPending := false } } off (some s.chip.todNs))) := by
  refine ⟨(s.chip.tmb.now / 2 ^ 16 : Nat) - (s.chip.todNs : Int), (onChip_clocked _ clocked).trans (congrArg _ (congrArg s.put ?_))⟩
  simp only [ppsInEdgeOp, clocked]
  rw [if_neg (by decide), if_neg (fun h => h pps), if_pos ⟨unset, pending⟩]
  exact Chip.measureOwn_own (by exact own) _ _

/-- The first whole microsecond in UNSET with FREE in effect is a measurement, which sets the time (R106). -/
theorem exec_freeMeasurement (free : s.chip.timeMode = 2) (unset : s.chip.tmb.state = .unset) (fresh : s.chip.tmb.freeAfterSiding = false) :
    ∃ n off, exec .freeMeasurement s = .next (s.put (s.chip.freed n off)) := by
  have tod : ∀ m, ({ s.chip with tmb := m } : Chip).todNs = s.chip.todNs := fun _ => rfl
  let n := (65536000 - s.chip.tmb.now % 65536000) % 65536000
  refine ⟨n, ((s.chip.tmb.now + n) / 2 ^ 16 : Nat) - (s.chip.todNs : Int), (onChip_clocked _ clocked).trans (congrArg _ (congrArg s.put ?_))⟩
  rw [freeMeasurementOp, if_neg (by simp [clocked, free, unset])]
  simp only [fresh, tod, Bool.false_eq_true, if_false]
  rfl

/-- The source is lost by a time base that locks or is locked (R107). -/
theorem exec_sourceLost (own : s.chip.tmb.following = false) (mode : s.chip.timeMode ≠ 2) (lockish : s.chip.tmb.state = .locking ∨ s.chip.tmb.state = .locked) :
    exec .sourceLost s = .next (s.put (Chip.enterTime { s.chip with tmb := { s.chip.tmb with measured := false, slave := none } } .holdover)) := by
  refine (onChip_clocked _ clocked).trans (congrArg _ (congrArg s.put ?_))
  rw [sourceLostOp, if_neg fun h => mode h.1]
  rcases lockish with state | state
  · simp only [state]
    exact congrArg (Chip.enterTime · .holdover) (Chip.setFollowing_same _ own)
  · simp only [state]
    exact congrArg (Chip.enterTime · .holdover) (Chip.setFollowing_same _ own)

end

/-- Settles O22: the first measurements from the three sources, one while LOCKED, an edge that only leaves its timestamp, and the loss of the source. -/
theorem timeBaseMoves : Obligations.TimeBaseMoves := by
  unfold Obligations.TimeBaseMoves
  refine ⟨?_, fun s p off => ⟨?_, fun clocked other => exec_ppsInEdge_other clocked other⟩, ?_⟩
  · intro s p off m fr clocked unset own sleep
    refine ⟨fun ptp port ahead => ?_, fun pps pending => ?_, fun free fresh => ?_⟩
    · obtain ⟨t, measured, base, raised, blocks, frame⟩ := Chip.measure_first (c := { s.chip with tmb := { m with slave := some p } }) unset sleep off none
      refine ⟨_, (exec_syncReceive clocked off own ptp port).trans (congrArg _ (congrArg s.put measured)), ?_⟩
      have locks : t.tmb.lockedEpoch = false := congrArg Tmb.lockedEpoch base
      have unlocked : t.tmb.state ≠ .locked := by rw [show t.tmb.state = .locking from congrArg Tmb.state base]; decide
      simp only [fr, State.put_chip, State.put_pending]
      refine ⟨⟨trivial, congrArg Tmb.epoch base, locks.trans (decide_eq_false unlocked).symm, raised, blocks⟩, congrArg Tmb.state base, congrArg Tmb.slave base, ?_,
        (congrArg Tmb.rate base :), ((s.chip.timeFrame_with _ s.chip.evr).trans frame).eq⟩
      rw [base]
      exact Chip.stepCounter_by _ ahead
    · obtain ⟨dist, edge⟩ := exec_ppsInEdge_set clocked pps unset pending own
      obtain ⟨t, measured, base, raised, blocks, -⟩ := Chip.measure_first (c := { s.chip with
        tmb := { m with ppsInTs := s.chip.nowLayout, ppsInSeen := true, todPending := false } }) unset sleep dist (some s.chip.todNs)
      rw [Chip.stepCounter_to] at base
      refine ⟨_, edge.trans (congrArg _ (congrArg s.put measured)), ?_⟩
      have locks : t.tmb.lockedEpoch = false := congrArg Tmb.lockedEpoch base
      have unlocked : t.tmb.state ≠ .locked := by rw [show t.tmb.state = .locking from congrArg Tmb.state base]; decide
      simp only [fr, State.put_chip, State.put_pending]
      refine ⟨⟨trivial, congrArg Tmb.epoch base, locks.trans (decide_eq_false unlocked).symm, raised, blocks⟩, congrArg Tmb.state base, congrArg Tmb.todPending base,
        congrArg Tmb.now base, congrArg Tmb.ppsInTs base⟩
    · obtain ⟨n, dist, moved⟩ := exec_freeMeasurement clocked free unset fresh
      obtain ⟨base, pulses, ready⟩ := s.chip.freed_first sleep n dist
      refine ⟨_, moved, s.put_pending _, ?_⟩
      rw [State.put_chip, base]
      exact ⟨rfl, rfl, rfl, rfl, pulses, ready⟩
  · intro clocked locked own calm ptp port close small
    refine ⟨(Config.freeValue s.chip.free % 65536001 : Nat) - 32768000, ?_, by omega, by omega⟩
    rw [exec_syncReceive clocked off own ptp port, Chip.measure_valid (by simp [locked])]
    exact congrArg _ (congrArg s.put (Chip.measureValid_held _ locked calm close small))
  · intro s m clocked mode own lockish disabled
    obtain ⟨base, raised, blocks, frame, lost⟩ := Chip.enterTime_unlocked { s.chip with tmb := { m with measured := false, slave := none } }
      (next := .holdover) (by decide) (fun _ => disabled)
    obtain ⟨cause, level⟩ := lost rfl
    refine ⟨_, exec_sourceLost clocked own mode lockish, s.put_pending _, ?_⟩
    simp only [State.put_chip]
    exact ⟨congrArg Tmb.state base, (congrArg Tmb.rate base :), (congrArg Tmb.epoch base :), (congrArg Tmb.now base :), (congrArg Tmb.slave base :), cause, level, blocks, raised, ((s.chip.timeFrame_with _ s.chip.evr).trans frame).eq⟩

end Sys2Proof.Machine
end

section
/-! Rules for Shuttle channels: what a descriptor that is carried out, in whole or in part, leaves of the channels, the engines and the blocks. -/

namespace Sys2Proof.Machine

/-- A channel that wrote bytes of its chain. -/
def Channel.Wrote (h k : Channel) : Prop := ∃ w o, k = { h with written := w, overrun := o }

theorem Channel.Wrote.refl (h : Channel) : h.Wrote h := ⟨_, _, rfl⟩

theorem Channel.Wrote.trans {h k l : Channel} (first : h.Wrote k) (second : k.Wrote l) : h.Wrote l := by
  obtain ⟨_, _, rfl⟩ := first
  obtain ⟨_, _, rfl⟩ := second
  exact ⟨_, _, rfl⟩

/-- `t` is `c` with bytes written for channel `n`: its counts change, no other channel does, and the engines keep their runs. -/
structure Chip.WroteFor (n : Nat) (c t : Chip) : Prop where
  chan : (c.chan n).Wrote (t.chan n)
  others : ∀ m, m ≠ n → t.chan m = c.chan m
  run : ∀ e, (t.eng e).run = (c.eng e).run
  blocks : t.blocks = c.blocks

namespace Chip.WroteFor

theorem refl (n : Nat) (c : Chip) : c.WroteFor n c := ⟨.refl _, fun _ _ => rfl, fun _ => rfl, rfl⟩

theorem trans {n : Nat} {c d t : Chip} (h : c.WroteFor n d) (k : d.WroteFor n t) : c.WroteFor n t :=
  ⟨h.chan.trans k.chan, fun m other => (k.others m other).trans (h.others m other), fun e => (k.run e).trans (h.run e), k.blocks.trans h.blocks⟩

/-- The counts of the channel move. -/
theorem modChan {n : Nat} {c t : Chip} (h : c.WroteFor n t) {f : Channel → Channel} (counts : (t.chan n).Wrote (f (t.chan n))) :
    c.WroteFor n (t.modChan n f) :=
  h.trans ⟨by rw [Chip.chan_modChan_self]; exact counts, fun m other => t.chan_modChan_ne _ other, fun _ => rfl, rfl⟩

end Chip.WroteFor

section
variable (c : Chip) (n : Nat) (d : Desc)

theorem Chip.spWrite_wrote (e sp a : Nat) (l : List Byte) : c.WroteFor n (c.spWrite e sp a l) := by
  rcases c.spWrite_cases e sp a l with ⟨rfl, w⟩ | ⟨rfl, w⟩ | ⟨rfl, p, w⟩ | ⟨-, w⟩ <;> rw [w]
  · refine ⟨.refl _, fun _ _ => rfl, fun o => ?_, rfl⟩
    rcases eq_or_ne o e with rfl | other
    · rw [Chip.eng_modEng_self]
    · rw [Chip.eng_modEng_ne _ _ other]
  · exact ⟨.refl _, fun _ _ => rfl, fun _ => rfl, rfl⟩
  · exact ⟨.refl _, fun _ _ => rfl, fun _ => rfl, rfl⟩
  · exact .refl ..

theorem Chip.hostWrite_wrote (f a : Nat) (l : List Byte) : c.WroteFor n (c.hostWrite f a l) := by
  unfold Chip.hostWrite
  split
  · exact .refl ..
  · exact ⟨.refl _, fun _ _ => rfl, fun _ => rfl, rfl⟩

theorem Chip.destWrite_wrote (off : Nat) (l : List Byte) : c.WroteFor n (c.destWrite n d off l) := by
  unfold Chip.destWrite
  dsimp only
  split
  · exact (c.spWrite_wrote ..).modChan ⟨_, _, rfl⟩
  · split
    · split
      · exact (WroteFor.refl n c).modChan ⟨_, _, rfl⟩
      · exact (c.hostWrite_wrote ..).modChan ⟨_, _, rfl⟩
    · exact .refl ..

theorem Chip.writePieces_wrote (ps : List (Nat × List Byte)) (k : Nat) : c.WroteFor n (c.writePieces n d ps k) := by
  induction ps generalizing c k with
  | nil => exact .refl ..
  | cons p ps ih =>
    obtain ⟨o, l⟩ := p
    unfold Chip.writePieces
    split
    · exact .refl ..
    · exact (c.destWrite_wrote ..).trans (ih ..)

theorem Chip.tearDesc_wrote : c.WroteFor n (c.tearDesc n d) :=
  WroteFor.trans (d := { c with free := c.free + 1 }) ⟨.refl _, fun _ _ => rfl, fun _ => rfl, rfl⟩ (Chip.writePieces_wrote ..)

end

/-! ## The digest of a chain (R366, R370) -/

/-- A channel's digest moves, and its place in the chain stays. -/
theorem Channel.countKinds_place (h : Channel) (ks : List Nat) : (h.countKinds ks).desc = h.desc ∧ (h.countKinds ks).state = h.state := by
  induction ks generalizing h with
  | nil => exact ⟨rfl, rfl⟩
  | cons k ks ih =>
    obtain ⟨desc, state⟩ := ih { (if k = 0 then h else { h with
      fails := h.fails + 1, firstBlock := h.firstBlock <|> some h.blocks, firstKind := if h.firstBlock.isNone then k else h.firstKind }) with
      blocks := (if k = 0 then h else { h with
        fails := h.fails + 1, firstBlock := h.firstBlock <|> some h.blocks, firstKind := if h.firstBlock.isNone then k else h.firstKind }).blocks + 1 }
    refine ⟨desc.trans ?_, state.trans ?_⟩ <;> split <;> rfl

theorem Channel.runCrc_place (h : Channel) (d : Desc) (l : List Byte) : (h.runCrc d l).desc = h.desc ∧ (h.runCrc d l).state = h.state := by
  unfold Channel.runCrc
  dsimp only
  split <;> split <;> exact ⟨rfl, rfl⟩

theorem Channel.Wrote.place {h k : Channel} (wrote : h.Wrote k) : k.desc = h.desc ∧ k.state = h.state := by
  obtain ⟨_, _, rfl⟩ := wrote
  exact ⟨rfl, rfl⟩

/-- A descriptor carried out leaves its channel's place in the chain. -/
theorem Chip.runDesc_desc (c : Chip) (n : Nat) (d : Desc) (hd : List Byte) : ((c.runDesc n d hd).chan n).desc = (c.chan n).desc := by
  unfold Chip.runDesc
  dsimp only
  split
  · exact (c.destWrite_wrote ..).chan.place.1
  · rw [Chip.chan_modChan_self, (Channel.countKinds_place ..).1, (Channel.runCrc_place ..).1]
    exact (c.writePieces_wrote ..).chan.place.1

end Sys2Proof.Machine
end

section
/-! Settles O26: descriptors run in order and a chain ends (R339, R346, R351–R353, R859), and the plain MOVE within stripe staging (R360). -/

namespace Sys2Proof.Machine

section
variable {s : State} {n : Chan} {d : Desc} (hd : List Byte) (clocked : s.chip.clocked = true) (running : (s.chip.chan n).state = .running)
  (at0 : (s.chip.chan n).chain[(s.chip.chan n).desc]? = some d)
include clocked running at0

/-- What follows a descriptor that was carried out: the chain's end, a STOP, a PAUSE, or the next descriptor, in this order (R351–R353). -/
theorem exec_descriptorComplete : exec (.descriptorComplete n hd) s = .next (s.put (
    if d.last then ((s.chip.runDesc n d hd).endChain n 0).pulse n
    else if (s.chip.chan n).stopPend then (s.chip.runDesc n d hd).endChain n 1
    else if (s.chip.chan n).pausePend then (s.chip.runDesc n d hd).modChan n fun h => { h with state := .paused, pausePend := false }
    else (s.chip.runDesc n d hd).modChan n fun h => { h with desc := h.desc + 1, tries := 0, retryAddr := none })) := by
  refine (onChip_clocked _ clocked).trans (congrArg _ (congrArg s.put ?_))
  simp only [descriptorCompleteOp, running, at0, clocked]
  rfl

end

/-- The move of a descriptor without guard, checksum or transform is one piece (R360). -/
theorem Desc.move_plain {d : Desc} (op : d.op = 1) (guard : d.guard = 0) (l : List Byte) : d.move l = ⟨[(0, l)], l, []⟩ := by
  simp [Desc.move, op, guard]

theorem Channel.runCrc_none (h : Channel) {d : Desc} (none : d.crc = 0) (l : List Byte) : h.runCrc d l = h := by
  simp [Channel.runCrc, none]

section
variable (c : Chip) (n : Nat) {d : Desc} (hd : List Byte)

/-- The pieces of a plain MOVE within stripe staging. -/
theorem Chip.writePieces_plain (dst : d.dstSpace = 1) (l : List Byte) : ∃ cs, c.writePieces n d [(0, l)] l.length =
    { c with stg := mwrite zeros c.stg d.dst l, channels := cs } ∧ (∀ m, m ≠ n → tget cs {} m = c.chan m) ∧
      tget cs {} n = { c.chan n with written := (c.chan n).written + l.length } := by
  rcases l with _ | ⟨b, l⟩
  · exact ⟨c.channels, rfl, fun _ _ => rfl, rfl⟩
  · refine ⟨(c.modChan n fun h => { h with written := h.written + (b :: l).length }).channels, ?_, fun m other => c.chan_modChan_ne _ other,
      c.chan_modChan_self ..⟩
    simp only [Chip.writePieces, Chip.destWrite, dst, Chip.spWrite, List.take_length]
    rfl

/-- A plain MOVE within stripe staging copies its bytes and counts them (R360). -/
theorem Chip.runDesc_plain (op : d.op = 1) (guard : d.guard = 0) (crc : d.crc = 0) (src : d.srcSpace = 1) (dst : d.dstSpace = 1) :
    (c.runDesc n d hd).stg = mwrite zeros c.stg d.dst (mread zeros c.stg d.src d.len) ∧
      c.runDesc n d hd = { c with stg := (c.runDesc n d hd).stg, channels := (c.runDesc n d hd).channels } ∧
      (∀ m, m ≠ n → (c.runDesc n d hd).chan m = c.chan m) ∧
      (c.runDesc n d hd).chan n = { c.chan n with written := (c.chan n).written + d.len } := by
  have source : c.srcBytes n d hd = mread zeros c.stg d.src d.len := by simp [Chip.srcBytes, Chip.spRead, Desc.srcExtent, src, op]
  have length : (mread zeros c.stg d.src d.len).length = d.len := by simp [mread_eq_map]
  obtain ⟨cs, pieces, others, counted⟩ := c.writePieces_plain n dst (mread zeros c.stg d.src d.len)
  have whole : c.runDesc n d hd = Chip.modChan { c with stg := mwrite zeros c.stg d.dst (mread zeros c.stg d.src d.len), channels := cs } n id := by
    rw [Chip.runDesc, if_neg (by omega), Desc.move_plain op guard, source, ← pieces]
    simp only [Channel.runCrc_none _ crc, Channel.countKinds, List.map_cons, List.map_nil, List.sum_cons, List.sum_nil]
    rfl
  rw [whole]
  refine ⟨rfl, rfl, fun m other => (Chip.chan_modChan_ne _ _ other).trans (others m other), (Chip.chan_modChan_self ..).trans ?_⟩
  rw [length] at counted
  exact counted

/-- The end of a chain leaves its channel IDLE, and gives back the slots that it held (R346). -/
theorem Chip.endChain_pool (by0 : Nat) (held : (c.chan n).chain.length ≤ (c.pool 4).held) : (c.endChain n by0).pool 4 = { c.pool 4 with
    returned := (c.pool 4).returned + (c.chan n).chain.length, held := (c.pool 4).held - (c.chan n).chain.length } := by
  have given := c.pool_modPool_self 4 fun q =>
    { q with returned := q.returned + min (c.chan n).chain.length q.held, held := q.held - min (c.chan n).chain.length q.held }
  rw [Nat.min_eq_left held] at given
  exact given

end

theorem Chip.endChain_pool_ne (c : Chip) (n by0 : Nat) {p : Nat} (other : p ≠ 4) : (c.endChain n by0).pool p = c.pool p :=
  c.pool_modPool_ne (fun q => { q with
    returned := q.returned + min (c.chan n).chain.length q.held, held := q.held - min (c.chan n).chain.length q.held }) other

/-- Settles O26: the four ways on from a descriptor, the copy of a plain MOVE, and the end of a chain. -/
theorem chainsRun : Obligations.ChainsRun := by
  unfold Obligations.ChainsRun
  refine ⟨fun s n hd d => ?_, fun c n d hd op guard crc src dst apart => ?_, fun c n by0 => ?_⟩
  · intro h c clocked running at0
    rw [exec_descriptorComplete hd clocked running at0]
    refine ⟨fun last => ?_, fun more stop => ?_, fun more go pause => ?_, fun more go on => ?_⟩
    · rw [if_pos last]
    · rw [if_neg (by simp [more]), if_pos stop]
    · rw [if_neg (by simp [more]), if_neg (by simp [h, go]), if_pos pause]
      rfl
    · rw [if_neg (by simp [more]), if_neg (by simp [h, go]), if_neg (by simp [h, on]), Chip.modChan, Chip.runDesc_desc]
  · obtain ⟨stg, frame, others, counted⟩ := c.runDesc_plain n hd op guard crc src dst
    refine ⟨fun k hk => ?_, fun y hy => ?_, frame, others, by rw [counted], by rw [counted]⟩
    · rw [stg, mget_write_in _ _ _ _ _ (by simpa [mread_eq_map] using hk)]
      simp [mread_eq_map]
    · rw [stg]
      exact mget_write_out _ _ _ _ _ (by simpa [mread_eq_map] using hy)
  · refine ⟨Chip.chan_modChan_self .., fun m other => ?_, c.endChain_pool n by0, fun p => c.endChain_pool_ne n by0, rfl⟩
    exact Chip.chan_modChan_ne _ _ other

end Sys2Proof.Machine
end

section
/-! Settles O27: PAUSE, RESUME, STOP, CUT and CLEAR from firmware (R346, R347), and the halt of a channel (R355, R356). -/

namespace Sys2Proof.Machine

section
variable {s : State} {w : Who} {n : Chan} (clocked : s.chip.clocked = true) (inside : Who.internal w s.chip = true)
include clocked inside

theorem exec_pause (running : (s.chip.chan n).state = .running) :
    exec (.pause w n) s = .next (s.put (s.chip.setChan n { s.chip.chan n with pausePend := true })) := by
  refine (onChip_clocked _ clocked).trans (congrArg _ (congrArg s.put ?_))
  rw [pauseOp, if_pos (by simp [inside, running]), Chip.modChan]

theorem exec_resume (paused : (s.chip.chan n).state = .paused) : exec (.resume w n) s = .next (s.put (s.chip.setChan n
    { s.chip.chan n with state := .running, desc := (s.chip.chan n).desc + 1, tries := 0, retryAddr := none })) := by
  refine (onChip_clocked _ clocked).trans (congrArg _ (congrArg s.put ?_))
  rw [resumeOp, if_pos (by simp [inside, paused]), Chip.modChan]

theorem exec_stop_running (running : (s.chip.chan n).state = .running) :
    exec (.stop w n) s = .next (s.put (s.chip.modChan n fun h => { h with stopPend := true })) := by
  refine (onChip_clocked _ clocked).trans (congrArg _ (congrArg s.put ?_))
  simp [stopOp, inside, running]

theorem exec_stop_paused (paused : (s.chip.chan n).state = .paused) : exec (.stop w n) s = .next (s.put (s.chip.endChain n 1)) := by
  refine (onChip_clocked _ clocked).trans (congrArg _ (congrArg s.put ?_))
  simp [stopOp, inside, paused]

theorem exec_cut : exec (.cut w n) s = .next (s.put (s.chip.cutChan n)) := by
  refine (onChip_clocked _ clocked).trans (congrArg _ (congrArg s.put ?_))
  rw [cutOp, if_pos inside]

end

section
variable (c : Chip) (n : Nat)

/-- A paused chain that is cut ends as it stands (R347). -/
theorem Chip.cutChan_paused (paused : (c.chan n).state = .paused) : c.cutChan n = c.endChain n 2 := by
  rw [Chip.cutChan, paused]

/-- A chain that ends leaves the other channels. -/
theorem Chip.endChain_chan (by0 : Nat) : (c.endChain n by0).chan n = { c.chan n with state := .idle, endBy := by0, pausePend := false, stopPend := false } ∧
    ∀ m, m ≠ n → (c.endChain n by0).chan m = c.chan m := ⟨Chip.chan_modChan_self .., fun _ other => Chip.chan_modChan_ne _ _ other⟩

/-- A running chain that is cut ends its channel, and leaves the others (R347, R349). -/
theorem Chip.cutChan_running (running : (c.chan n).state = .running) (inside : (c.chan n).desc < (c.chan n).chain.length) :
    ((c.cutChan n).chan n).state = .idle ∧ ((c.cutChan n).chan n).endBy = 2 ∧ ∀ m, m ≠ n → (c.cutChan n).chan m = c.chan m := by
  obtain ⟨d, at0⟩ : ∃ d, (c.chan n).chain[(c.chan n).desc]? = some d := ⟨_, List.getElem?_eq_getElem inside⟩
  obtain ⟨t, torn, others⟩ : ∃ t : Chip, c.cutChan n = t.endChain n 2 ∧ ∀ m, m ≠ n → t.chan m = c.chan m := by
    refine ⟨_, by simp only [Chip.cutChan, running, at0]; rfl, fun m other => ?_⟩
    exact (Chip.chan_modChan_ne _ _ other).trans ((c.tearDesc_wrote n d).others m other)
  obtain ⟨mine, rest⟩ := t.endChain_chan n 2
  rw [torn, mine]
  exact ⟨rfl, rfl, fun m other => (rest m other).trans (others m other)⟩

theorem Chip.blk_modEng (e r : Nat) (f : Engine → Engine) : (c.modEng e f).blk r = c.blk r := rfl

theorem Chip.eng_modBlk (e r : Nat) (f : Block → Block) : (c.modBlk r f).eng e = c.eng e := rfl

/-! ## CH_HALT (R716) -/

/-- A halted channel keeps CH_HALT, where it is not enabled, in STATUS and in its level (R716). -/
theorem Chip.haltLevel_on (halted : (c.chan n).state = .halted) (disabled : bitAt (c.enable (recSht (n / 8))) 3 = false) :
    ∃ l, c.haltLevel n = c.modBlk (recSht (n / 8)) fun b => { b with cause := b.cause ||| 2 ^ 3, level := l } := by
  have on : ((List.range 8).any fun i => (c.chan (8 * (n / 8) + i)).state == .halted) = true :=
    List.any_eq_true.mpr ⟨n % 8, by simp; omega, by rw [Nat.div_add_mod]; simp [halted]⟩
  exact ⟨_, by rw [Chip.haltLevel, on, c.setLevel_on_quiet disabled, Chip.modBlk]⟩

/-- With no channel of its block halted CH_HALT ends (R716). -/
theorem Chip.haltLevel_off (clear : ∀ i < 8, (c.chan (8 * (n / 8) + i)).state ≠ .halted) :
    ∃ l, c.haltLevel n = (c.modBlk (recSht (n / 8)) fun b => { b with level := l }) ∧ bitAt l 3 = false := by
  have off : ((List.range 8).any fun i => (c.chan (8 * (n / 8) + i)).state == .halted) = false := by
    rw [List.any_eq_false]
    exact fun i hi => by simpa using clear i (List.mem_range.mp hi)
  exact ⟨_, by rw [Chip.haltLevel, off, Chip.setLevel_off, Chip.modBlk],
    by simpa [b2n] using bitAt_replace (c.blk (recSht (n / 8))).level 3 3 false⟩

/-! ## The halt of a channel (R355, R356) -/

variable {n} {d : Desc} {cause addr : Nat}

/-- A channel as it halts: the cause, the descriptor and the address stand in HALT_INFO and HALT_ADDR. -/
def Channel.halt (h : Channel) (cause addr : Nat) : Channel :=
  { h with state := .halted, endBy := 3, haltCause := cause, haltSide := false, haltDesc := h.desc, haltTries := h.tries, haltAddr := addr
           pausePend := false, stopPend := false }

/-- A channel that halts keeps its cause and place, sets CH_HALT, and stops the engine that issued the chain at its next boundary (R355, R356). -/
theorem Chip.haltChan_halted (disabled : bitAt (c.enable (recSht (n / 8))) 3 = false) (issuer : (c.chan n).issuer < 16)
    (runs : (c.eng (c.chan n).issuer).run.isSome = true) : ((c.chan n).halt cause addr).Wrote ((c.haltChan n cause addr d).chan n) ∧
      bitAt ((c.haltChan n cause addr d).blk (recSht (n / 8))).cause 3 = true ∧
      ((c.haltChan n cause addr d).eng (c.chan n).issuer).haltPending = true ∧
      ((c.haltChan n cause addr d).eng (c.chan n).issuer).run = (c.eng (c.chan n).issuer).run := by
  have torn := c.tearDesc_wrote n d
  let u := ((c.tearDesc n d).leaveChain n).modChan n fun x => { x with
    state := .halted, endBy := 3, haltCause := cause, haltSide := false, haltDesc := (c.chan n).desc, haltTries := (c.chan n).tries, haltAddr := addr
    pausePend := false, stopPend := false }
  have chan : ((c.chan n).halt cause addr).Wrote (u.chan n) := by
    obtain ⟨w, o, wrote⟩ := torn.chan
    refine ⟨w, o, (Chip.chan_modChan_self ..).trans ?_⟩
    rw [show ((c.tearDesc n d).leaveChain n).chan n = (c.tearDesc n d).chan n from rfl, wrote]
    rfl
  have halted : (u.chan n).state = .halted := by
    obtain ⟨_, _, wrote⟩ := chan
    rw [wrote]; rfl
  have blocks : u.blocks = c.blocks := torn.blocks
  have enable : u.enable (recSht (n / 8)) = c.enable (recSht (n / 8)) := by rw [Chip.enable, Chip.eff, Chip.blk, blocks]; rfl
  obtain ⟨l, level⟩ := u.haltLevel_on n halted (by rw [enable, disabled])
  have run : (u.eng (c.chan n).issuer).run = (c.eng (c.chan n).issuer).run := torn.run _
  have whole : c.haltChan n cause addr d = (u.modBlk (recSht (n / 8)) fun b => { b with cause := b.cause ||| 2 ^ 3, level := l }).modEng (c.chan n).issuer
      fun x => { x with haltPending := true } := by
    rw [← level]
    have busy : ((u.haltLevel n).eng (c.chan n).issuer).run.isNone = false := by
      rw [level, Chip.eng_modBlk, run]
      simpa [Option.isSome_iff_ne_none] using runs
    have engine : (u.haltLevel n).haltEngine (c.chan n).issuer = (u.haltLevel n).modEng (c.chan n).issuer fun x => { x with haltPending := true } :=
      if_neg (by simp [busy])
    exact (if_pos issuer).trans engine
  rw [whole, Chip.eng_modEng_self]
  refine ⟨chan, ?_, rfl, run⟩
  rw [Chip.blk_modEng, Chip.blk_modBlk_self, bitAt_eq_testBit, Nat.testBit_or,
    Nat.testBit_two_pow_self, Bool.or_true]

/-- What software reads of a channel that halted (R355, R356). -/
theorem Chip.haltChan_read {h : Channel} (same : c.chan n = h) (disabled : bitAt (c.enable (recSht (n / 8))) 3 = false) (issuer : h.issuer < 16)
    (runs : (c.eng h.issuer).run.isSome = true) : let t := c.haltChan n cause addr d
    ((t.chan n).state = .halted ∧ (t.chan n).endBy = 3 ∧ (t.chan n).haltCause = cause ∧ (t.chan n).haltDesc = h.desc ∧ (t.chan n).haltAddr = addr ∧
      bitAt (t.blk (recSht (n / 8))).cause 3 = true ∧ (t.eng h.issuer).haltPending = true ∧ (t.eng h.issuer).run = (c.eng h.issuer).run) ∧
      (t.chan n).haltTries = h.tries := by
  subst same
  obtain ⟨⟨_, _, chan⟩, bit, pending, run⟩ := c.haltChan_halted (d := d) (cause := cause) (addr := addr) disabled issuer runs
  dsimp only
  rw [chan]
  exact ⟨⟨rfl, rfl, rfl, rfl, rfl, bit, pending, run⟩, rfl⟩

end

section
variable {s : State} {n : Chan} {d : Desc} (clocked : s.chip.clocked = true) (running : (s.chip.chan n).state = .running)
  (at0 : (s.chip.chan n).chain[(s.chip.chan n).desc]? = some d)
include clocked running at0

/-- A read error of the kind that the source has halts the channel (R355). -/
theorem exec_shuttleReadError {cause : BitVec 3} (addr : W64)
    (kind : (if d.srcSpace = 4 then cause.toNat == 1 || cause.toNat == 2 || cause.toNat == 3 else cause.toNat == 5) = true) :
    exec (.shuttleReadError n cause addr) s = .next (s.put (s.chip.haltChan n cause.toNat addr.toNat d)) := by
  refine (onChip_clocked _ clocked).trans (congrArg _ (congrArg s.put ?_))
  simp only [shuttleReadErrorOp, running, at0, kind, if_true]

/-- A timeout of a read of host memory at the address of the latest retry is retried, and then halts the channel (R355). -/
theorem exec_hostReadTimeout {addr : W64} (host : d.srcSpace = 4) (retry : (s.chip.chan n).retryAddr = some addr.toNat) :
    exec (.hostReadTimeout n addr) s = .next (s.put (if (s.chip.chan n).tries < (s.chip.chan n).retries
      then s.chip.modChan n fun h => { h with tries := (s.chip.chan n).tries + 1, retryAddr := some addr.toNat }
      else (s.chip.modChan n fun h => { h with tries := (s.chip.chan n).tries }).haltChan n 4 addr.toNat d)) := by
  refine (onChip_clocked _ clocked).trans (congrArg _ (congrArg s.put ?_))
  simp [hostReadTimeoutOp, running, at0, host, retry]

end

/-- Settles O27: each control in its states, and the halts of a channel. -/
theorem channelsAreControlled : Obligations.ChannelsAreControlled := by
  unfold Obligations.ChannelsAreControlled
  refine ⟨fun s w n clocked inside => ?_, fun s n cause addr d => ?_⟩
  · refine ⟨exec_pause clocked inside, exec_resume clocked inside, exec_stop_running clocked inside, exec_stop_paused clocked inside, fun paused => ?_,
      fun running place => ?_, fun halted clear => ?_⟩
    · rw [exec_cut clocked inside, s.chip.cutChan_paused n paused]
    · exact ⟨_, exec_cut clocked inside, s.put_pending _, s.chip.cutChan_running n running place⟩
    · obtain ⟨l, level, off⟩ := Chip.haltLevel_off (s.chip.modChan n fun h => { h with state := .idle }) n fun i hi => by
        rcases eq_or_ne (8 * (n.val / 8) + i) n with same | other
        · rw [same, Chip.chan_modChan_self]
          exact ChanState.noConfusion
        · rw [Chip.chan_modChan_ne _ _ other]
          exact clear i hi other
      refine ⟨l, (onChip_clocked _ clocked).trans (congrArg _ (congrArg s.put ?_)), off⟩
      rw [clearOp, if_pos (by simp [inside, halted]), level]
      rfl
  · intro h halted clocked running at0 disabled issuer runs
    have stands := fun k => (s.chip.haltChan_read (cause := k) (addr := addr.toNat) (d := d) rfl disabled issuer runs).1
    refine ⟨fun host kind => ?_, fun inside kind => ?_, fun host retry left => ?_, fun host retry none => ?_⟩
    · exact ⟨_, exec_shuttleReadError clocked running at0 addr (by simpa [host, or_assoc] using kind), s.put_pending _, stands _⟩
    · exact ⟨_, exec_shuttleReadError clocked running at0 addr (by simp [inside, kind]), s.put_pending _, kind ▸ stands _⟩
    · rw [exec_hostReadTimeout clocked running at0 host retry, if_pos left, ← retry]
      rfl
    · obtain ⟨facts, tries⟩ := Chip.haltChan_read (cause := 4) (addr := addr.toNat) (d := d) (s.chip.modChan n fun x => { x with tries := h.tries })
        (Chip.chan_modChan_self ..) disabled issuer runs
      rw [exec_hostReadTimeout clocked running at0 host retry, if_neg (Nat.not_lt.mpr none)]
      exact ⟨_, rfl, ⟨s.put_pending _, facts⟩, tries⟩

end Sys2Proof.Machine
end

section
/-! Settles O28: a write of shadow fields (R52, R53, R57, R70), and the clamps (R70, R855). -/

namespace Sys2Proof.Machine

/-- A write to a table leaves every other key alone, whatever the default of the read. -/
theorem tget_put_other {α : Type} [DecidableEq α] (t : Tab α) (d v e : α) {k j : Nat} (h : j ≠ k) : tget (tput t d k v) e j = tget t e j := by
  unfold tput
  split
  · exact tget_erase_ne t e h
  · rw [tget_insert_ne _ _ _ h, tget_erase_ne t e h]

/-! ## One field -/

/-- A write that covers a field gives it the bits written. -/
theorem mergeField_whole (f : Fld) {old lo hi value : Nat} (low : lo ≤ f.lsb) (high : f.lsb + f.width ≤ hi) (fits : old < 2 ^ f.width) :
    mergeField f old lo hi value = bits value (f.lsb - lo) f.width := by
  simp only [mergeField, Nat.max_eq_left low, Nat.min_eq_left high, Nat.add_sub_cancel_left, Nat.sub_self]
  split
  next empty =>
    have : f.width = 0 := by omega
    rw [this] at fits ⊢
    simp only [bits, Nat.pow_zero, Nat.mod_one]
    omega
  next some => simp [Nat.div_eq_of_lt fits, Nat.mod_one]

/-- Fields written change a block's shadow and its clamp log. -/
theorem Block.writeFields_frame (b : Block) (lo hi value : Nat) (fs : List Fld) :
    ∃ sh cl, fs.foldl (Block.writeField lo hi value) b = { b with shadow := sh, clamp := cl } := by
  induction fs generalizing b with
  | nil => exact ⟨_, _, rfl⟩
  | cons f fs ih =>
    obtain ⟨sh, cl, e⟩ := ih (b.writeField lo hi value f)
    exact ⟨sh, cl, e⟩

/-- A block whose shadow was written counts once, and keeps its other sets (R70). -/
theorem Block.writeShadow_frame (b : Block) {r off size : Nat} (value : Nat) (some : fieldsIn r (8 * off) (8 * (off + size)) ≠ []) :
    ∃ sh cl la, b.writeShadow r off size value = { b with shadow := sh, clamp := cl, latch := la, gen := (b.gen + 1) % 2 ^ 16 } ∧
      ∀ f, fieldsIn r (8 * off) (8 * (off + size)) = [f] →
        sh = tput b.shadow f.reset f.lsb
          (clampField f (tget b.shadow f.reset f.lsb) (mergeField f (tget b.shadow f.reset f.lsb) (8 * off) (8 * (off + size)) value)).1 := by
  obtain ⟨sh, cl, e⟩ := b.writeFields_frame (8 * off) (8 * (off + size)) value (fieldsIn r (8 * off) (8 * (off + size)))
  have written : b.writeShadow r off size value = _ := if_neg (by simpa using some)
  refine ⟨sh, cl, _, by rw [written, e], fun f single => ?_⟩
  rw [single] at e
  exact (congrArg Block.shadow e).symm

/-! ## The write -/

theorem okWrite_false {size : Nat} {full : Bool} {off limit : Nat} (bad : full = false ∨ (size ≠ 4 ∧ size ≠ 8) ∨ off % size ≠ 0) :
    okWrite size full off limit = false := by
  unfold okWrite
  rcases bad with h | ⟨h4, h8⟩ | h
  · simp [h]
  · simp [h4, h8]
  · simp [h]

theorem rwsWriteOp_bad {a : Access} {r : Rec} {off : Nat} (tgt : a.tgt = .block r off) (bad : okWrite a.size a.full off (blockSize r) = false) (c : Chip) :
    rwsWriteOp a c = c := by
  simp [rwsWriteOp, tgt, bad]

theorem rwsWriteOp_whole {a : Access} {r : Rec} {off : Nat} (tgt : a.tgt = .block r off) (ok : okWrite a.size a.full off (blockSize r) = true)
    (narrow : a.size = 4 → wide r (off / 8 * 8) = false) (c : Chip) :
    rwsWriteOp a c = c.modBlk r fun b => b.writeShadow r off a.size a.value.toNat := by
  have half : (a.size == 4 && wide r (off / 8 * 8)) = false := by
    rcases eq_or_ne a.size 4 with h | h
    · simp [narrow h]
    · simp [h]
  simp [rwsWriteOp, tgt, ok, half]

/-- Settles O28: the write that reaches its fields, the writes that change nothing, and each kind of clamp. -/
theorem shadowWrites : Obligations.ShadowWrites := by
  unfold Obligations.ShadowWrites
  refine ⟨fun s a r off clocked tgt => ⟨fun reach ok narrow some => ?_, fun bad => ?_⟩, fun f old v => ⟨fun any => ?_, fun lo hi span order => ?_,
    fun n codes => ?_, fun m ones => ?_, fun fixed => ?_⟩⟩
  · obtain ⟨sh, cl, la, written, single⟩ := (s.chip.blk r).writeShadow_frame a.value.toNat some
    refine ⟨sh, cl, la, (onWrite_reached _ clocked reach).trans ?_, fun f only low high fits => ?_⟩
    · rw [rwsWriteOp_whole tgt ok narrow, Chip.modBlk, written]
    · rw [single f only, mergeField_whole f low high fits]
      exact ⟨tget_put_self .., fun k other d => tget_put_other _ _ _ _ other⟩
  · rcases onWrite_cases a.who (rwsWriteOp a) s with ⟨-, reach, moved⟩ | ⟨-, same⟩
    · refine moved.trans ?_
      rw [rwsWriteOp_bad tgt (okWrite_false (by simpa [reach] using bad))]
      rfl
    · exact same
  · simp [clampField, any]
  · simp only [clampField, span]
    refine ⟨fun above below => ?_, fun below => ?_, fun above => ?_⟩
    · rw [if_neg (by omega), if_neg (by omega)]
    · rw [if_pos below]
    · rw [if_neg (by omega), if_pos above]
  · simp [clampField, codes]
  · simp only [clampField, ones]
    split
    next same => simp [same]
    next more => simp [more]
  · simp [clampField, fixed]

end Sys2Proof.Machine
end

section
/-! Settles O30: a staged set takes effect at its boundary (R84, R85). -/

namespace Sys2Proof.Machine

section
variable (c : Chip) (r : Nat)

theorem Chip.setBlk_withEvr (e : Evr) (b : Block) : ({ c with evr := e } : Chip).setBlk r b = { c.setBlk r b with evr := e } := rfl

/-- With no cause standing a set enables none (R731). -/
theorem Chip.raiseEnabled_none {old : Nat} (clear : (c.blk r).cause = 0) : c.raiseEnabled r old = c := by
  rw [Chip.raiseEnabled, clear, Nat.zero_and, Chip.raiseBits_zero]

/-- A block's set as it takes effect, with its upset cause at level `l` (R84, R714). -/
def Block.effected (b : Block) (r l : Nat) : Block :=
  { b with effective := applySet r b, staged := false, groupHeld := false, epoch := (b.epoch + 1) % 2 ^ 32, level := l }

/-- A set that takes effect with no cause standing changes its block and the recorder (R84). -/
theorem Chip.takeSet_quiet (clear : (c.blk r).cause = 0) :
    ∃ l e, c.takeSet r = { c.setBlk r ((c.blk r).effected r l) with evr := e } ∧ bitAt l 2 = false := by
  obtain ⟨e, recorded⟩ := Chip.record_evr (c.setBlk r { c.blk r with
    effective := applySet r (c.blk r), staged := false, groupHeld := false, epoch := ((c.blk r).epoch + 1) % 2 ^ 32 })
    5 r 0 (((c.blk r).epoch + 1) % 2 ^ 32) 0
  have effect : c.takeEffect r = _ := recorded
  have blk : (c.takeEffect r).blk r = { c.blk r with
      effective := applySet r (c.blk r), staged := false, groupHeld := false, epoch := ((c.blk r).epoch + 1) % 2 ^ 32 } := by
    rw [effect]
    exact Chip.blk_setBlk_self ..
  have level := bitAt_replace (c.blk r).level 2 2 false
  refine ⟨(c.blk r).level - b2n (bitAt (c.blk r).level 2) * 2 ^ 2, e, ?_, by simpa [b2n] using level⟩
  rw [Chip.takeSet, Chip.setLevel_off, Chip.raiseEnabled_none _ _ (by rw [Chip.blk_setBlk_self, blk]; exact clear), blk, effect,
    Chip.setBlk_withEvr, Chip.setBlk_setBlk]
  rfl

end

/-- The reset value of MBR_CFG.SPLIT is 0. -/
theorem resetOf_split : ∀ r : Rec, kindOf r = .mbr → resetOf r (8 * 0x100 + 16) = 0 := by decide

section
variable {s : State} {r : Rec} (clocked : s.chip.clocked = true) (block : r ≠ 0) (staged : (s.chip.blk r).staged = true)
  (alone : (s.chip.blk r).groupHeld = false) (ready : s.chip.atBoundary r = true)
include clocked block staged alone ready

/-- A set at its boundary takes effect, unless its kind has a boundary of its own (R85). -/
theorem exec_setApply (trd : kindOf r ≠ .trd) : exec (.setApply r) s = .next (s.put
    (if kindOf r = .tmb then s.chip.toMicrosecond.applyOne r else s.chip.afterSet (s.chip.takeSet r) r)) := by
  refine (onChip_clocked _ clocked).trans (congrArg _ (congrArg s.put ?_))
  have one : s.chip.applyOne r = s.chip.afterSet (s.chip.takeSet r) r := if_neg (by simp [staged])
  rw [setApplyOp, if_neg (by simp [block, staged, alone, ready]), one]
  cases h : kindOf r with
  | trd => exact absurd h trd
  | tmb => rfl
  | _ => rfl

end

/-- A kind whose set has no further consequence (R84). -/
theorem Chip.afterSet_plain (old c : Chip) {r : Nat} (plain : kindOf r ∉ [Kind.tmb, .trd, .stm, .pwr, .age]) : old.afterSet c r = c := by
  unfold Chip.afterSet
  split
  next h => simp [h] at plain
  next h => simp [h] at plain
  next h => simp [h] at plain
  next h => simp [h] at plain
  next => rfl

/-- Settles O30: a set without consequence, a member's set, the time base's, and the kinds whose set has one. -/
theorem setTakesEffect : Obligations.SetTakesEffect := by
  unfold Obligations.SetTakesEffect
  intro s r clocked block b staged alone ready
  refine ⟨fun plain clear => ?_, fun mbr clear => ?_, fun tmb => ⟨?_, ?_⟩, fun kind => ?_⟩
  · obtain ⟨l, e, taken, level⟩ := s.chip.takeSet_quiet r clear
    simp only [List.mem_cons, not_or, List.not_mem_nil, not_false_iff, and_true] at plain
    obtain ⟨tmb, trd, stm, pwr, age, mbr⟩ := plain
    refine ⟨_, exec_setApply clocked block staged alone ready trd, s.put_pending _, ?_⟩
    rw [State.put_chip, if_neg tmb, Chip.afterSet_plain _ _ (by simp [tmb, trd, stm, pwr, age]), taken]
    have same : b.effected r l = { b with effective := b.accepted, staged := false, epoch := (b.epoch + 1) % 2 ^ 32, level := l } := by
      rw [Block.effected, applySet, if_neg mbr]
      simp [b, alone]
    exact ⟨⟨l, (Chip.blk_setBlk_self ..).trans same, level⟩, fun o other => Chip.blk_setBlk_ne _ _ other, rfl⟩
  · obtain ⟨l, e, taken, -⟩ := s.chip.takeSet_quiet r clear
    have set : (b.effected r l).effective = tput b.accepted 0 (8 * 0x100 + 16) (tget b.effective 0 (8 * 0x100 + 16)) := if_pos mbr
    have blk : ({ s.chip.setBlk r (b.effected r l) with evr := e } : Chip).blk r = b.effected r l := Chip.blk_setBlk_self ..
    refine ⟨_, exec_setApply clocked block staged alone ready (by simp [mbr]), ?_⟩
    rw [State.put_chip, if_neg (by simp [mbr]), Chip.afterSet_plain _ _ (by simp [mbr]), taken]
    refine ⟨?_, by rw [blk]; rfl, fun k other d => by rw [blk, set, tget_put_other _ _ _ _ other]⟩
    rw [Chip.eff, blk, set, fieldOf, resetOf_split r mbr, tget_put_self, Chip.eff, fieldOf, resetOf_split r mbr]
  · rw [exec_setApply clocked block staged alone ready (by simp [tmb]), if_pos tmb]
  · simp only [Chip.toMicrosecond]
    omega
  · have other : kindOf r ≠ .trd ∧ kindOf r ≠ .tmb := by
      simp only [List.mem_cons, List.not_mem_nil, or_false] at kind
      rcases kind with h | h | h <;> simp [h]
    rw [exec_setApply clocked block staged alone ready other.1, if_neg other.2]

end Sys2Proof.Machine
end

section
/-! Settles O32: register writes without a row of their own (R7, R52–R57), 64-bit registers written as halves (R55), and the latch of NOW (R135). -/

namespace Sys2Proof.Machine

/-! ## Where the registers stand -/

theorem commit_register : ∀ r : Rec, wide r 0 = false ∧ 8 ≤ blockSize r := by decide

theorem group_list : ∀ k < 4, wide 0 ((0xF000 + 4 * k) / 8 * 8) = false ∧ 0xF000 + 4 * k + 4 ≤ blockSize 0 := by decide

theorem comparator_target : ∀ n < 8, wide 89 (0x100 + 16 * n) = true ∧ 0x100 + 16 * n + 8 ≤ blockSize 89 := by decide

theorem okWrite_word {off limit : Nat} (aligned : off % 4 = 0) (inside : off + 4 ≤ limit) : okWrite 4 true off limit = true := by
  simp [okWrite, aligned, inside]

theorem wide_aligned {r off : Nat} (h : wide r off = true) : off % 8 = 0 := by
  simp only [wide, Bool.and_eq_true, beq_iff_eq] at h
  exact h.1

section
variable {s : State} {a : Access} (clocked : s.chip.clocked = true)
include clocked

/-- A whole word at a block's register that no row writes (R7, R52). -/
theorem exec_registerWrite_word {r : Rec} {off : Nat} (tgt : a.tgt = .block r off) (size : a.size = 4) (full : a.full = true)
    (reach : Who.mayWrite a.who s.chip = true) (aligned : off % 4 = 0) (inside : off + 4 ≤ blockSize r) (narrow : wide r (off / 8 * 8) = false) :
    exec (.registerWrite a) s = .next (s.put (s.chip.writeWord a.who r off (a.value.toNat % 2 ^ 32))) := by
  refine (onChip_clocked _ clocked).trans (congrArg _ (congrArg s.put ?_))
  simp [registerWriteOp, tgt, size, full, reach, okWrite_word aligned inside, narrow, splitWrite]

theorem exec_registerWrite_hole (tgt : a.tgt = .hole) : exec (.registerWrite a) s = .next s := by
  refine (onChip_clocked _ clocked).trans ?_
  rw [registerWriteOp, tgt]
  rfl

/-- A writer that does not reach the register space changes nothing (R57). -/
theorem exec_registerWrite_refused {r : Rec} {off : Nat} (tgt : a.tgt = .block r off) (reach : Who.mayWrite a.who s.chip = false) :
    exec (.registerWrite a) s = .next s := by
  refine (onChip_clocked _ clocked).trans ?_
  rw [registerWriteOp, tgt]
  simp only [reach]
  rfl

/-- The lower half of a 64-bit register waits in its latch (R55). -/
theorem exec_lowerHalfWrite {r : Rec} {off : Nat} (tgt : a.tgt = .block r off) (is64 : wide r off = true) (size : a.size = 4) (full : a.full = true)
    (inside : off + 8 ≤ blockSize r) (reach : Who.mayWrite a.who s.chip = true) :
    exec (.lowerHalfWrite a) s = .next (s.put (s.chip.setLatch r off (some (a.value.toNat % 2 ^ 32)))) := by
  have ok : okWrite 4 true off (blockSize r) = true := okWrite_word (by have := wide_aligned is64; omega) (by omega)
  refine (onChip_clocked _ clocked).trans (congrArg _ (congrArg s.put ?_))
  simp [lowerHalfWriteOp, tgt, size, full, reach, ok, is64]

/-- The upper half gives the register both halves, and empties the latch (R55). -/
theorem exec_upperHalfWrite {r : Rec} {off : Nat} (tgt : a.tgt = .block r (off + 4)) (is64 : wide r off = true) (size : a.size = 4) (full : a.full = true)
    (inside : off + 8 ≤ blockSize r) (reach : Who.mayWrite a.who s.chip = true) : exec (.upperHalfWrite a) s =
      .next (s.put ((s.chip.writeWide r off (s.chip.latched r off) (a.value.toNat % 2 ^ 32)).setLatch r off none)) := by
  have ok : okWrite 4 true (off + 4) (blockSize r) = true := okWrite_word (by have := wide_aligned is64; omega) (by omega)
  refine (onChip_clocked _ clocked).trans (congrArg _ (congrArg s.put ?_))
  simp [upperHalfWriteOp, tgt, size, full, reach, ok, is64]

end

/-- A comparator's target takes both halves (R55, R816). -/
theorem Chip.writeWide_target (c : Chip) {n : Nat} (small : n < 8) (lo hi : Nat) : c.writeWide 89 (0x100 + 16 * n) (some lo) hi =
    c.setCmp n { c.cmp n with target := (lo + hi * 2 ^ 32) % 2 ^ 48 } := by
  have index : (0x100 + 16 * n - 0x100) / 16 = n := by omega
  have kind : kindOf 89 = .aon := by decide
  rw [Chip.writeWide, if_neg (by omega), if_neg (by omega), kind]
  simp only
  rw [if_neg (by omega), index, if_pos (by omega)]
  rfl

theorem Chip.latched_setLatch (c : Chip) (r off : Nat) (v : Option Nat) : (c.setLatch r off v).latched r off = v := by
  rw [Chip.latched, Chip.setLatch, Chip.blk_modBlk_self, tget_put_self]

/-- A comparator written, with the latch of its register emptied. -/
theorem Chip.cmp_written (c : Chip) (n : Nat) (x : Comparator) (r off : Nat) : let t := (c.setCmp n x).setLatch r off none
    t.cmp n = x ∧ (∀ m, m ≠ n → t.cmp m = c.cmp m) ∧ t = { c with aon := t.aon, blocks := t.blocks } :=
  ⟨tget_put_self .., fun _ other => tget_put_ne _ _ _ other, rfl⟩

/-- Settles O32: the common and the own registers of a block, the writes that change nothing, the two halves, and the latch of NOW. -/
theorem registerWrites : Obligations.RegisterWrites := by
  unfold Obligations.RegisterWrites
  intro s a clocked
  refine ⟨fun r tgt block size full reach bit => ?_, fun k tgt small size full reach => ?_, exec_registerWrite_hole clocked,
    fun r off tgt reach => exec_registerWrite_refused clocked tgt reach,
    fun r off tgt is64 size full inside reach => exec_lowerHalfWrite clocked tgt is64 size full inside reach, fun n lo small tgt size full reach latch _ => ?_,
    onWrite_reached _ clocked⟩
  · obtain ⟨narrow, room⟩ := commit_register r
    have number : (r : Nat) ≠ 0 := fun h => block (Fin.ext h)
    have low : bitAt (a.value.toNat % 2 ^ 32) 4 = true := by
      rw [bitAt_eq_testBit, Nat.testBit_mod_two_pow, ← bitAt_eq_testBit, bit]
      decide
    rw [exec_registerWrite_word clocked tgt size full reach rfl room narrow, Chip.writeWord, if_pos ⟨number, by decide⟩, Chip.writeCommon, if_pos rfl,
      if_pos low, Chip.modBlk]
  · obtain ⟨narrow, room⟩ := group_list k small
    have index : (0xF000 + 4 * k - 0xF000) / 4 = k := by omega
    rw [exec_registerWrite_word clocked tgt size full reach (by omega) room narrow, Chip.writeWord, if_neg (by simp)]
    have kind : kindOf ((0 : Rec) : Nat) = .drf := by decide
    rw [Chip.writeOwn, kind]
    simp only
    rw [if_pos ⟨by omega, by omega⟩, index]
  · obtain ⟨is64, room⟩ := comparator_target n small
    refine ⟨_, exec_upperHalfWrite clocked tgt is64 size full room reach, s.put_pending _, ?_⟩
    rw [show s.chip.latched (89 : Rec) (0x100 + 16 * n) = some lo from latch, State.put_chip]
    rw [show ((89 : Rec) : Nat) = 89 from rfl, s.chip.writeWide_target small]
    obtain ⟨mine, others, frame⟩ := Chip.cmp_written s.chip n { s.chip.cmp n with target := (lo + a.value.toNat % 2 ^ 32 * 2 ^ 32) % 2 ^ 48 } 89 (0x100 + 16 * n)
    exact ⟨by rw [mine], Chip.latched_setLatch .., others, frame⟩

end Sys2Proof.Machine
end

section
/-! Settles O34: frames that come (R588, R590), that leave (R576–R578, R614), and the closing of a window (R605). -/

namespace Sys2Proof.Machine

/-- Time that passes changes the time base alone. -/
theorem Chip.passTo_tmb (c : Chip) (t : Nat) : ∃ m, c.passTo t = { c with tmb := m } := by
  unfold Chip.passTo
  dsimp only
  split
  · exact ⟨_, rfl⟩
  · exact ⟨c.tmb, rfl⟩

/-! ## A frame arrives (R588) -/

/-- The machine as a frame's last bit arrives: its timestamps stand in its port. -/
def Chip.arrived (c : Chip) (f : Frame) : Chip :=
  (c.passTo f.last.toNat).modPort f.port fun x => { x with rxFirst := f.first.toNat, rxLast := f.last.toNat }

section
variable (c : Chip) (f : Frame)

theorem Chip.arrived_eq : ∃ m ps, c.arrived f = { c with tmb := m, ports := ps } := by
  obtain ⟨m, later⟩ := c.passTo_tmb f.last.toNat
  exact ⟨m, _, by rw [Chip.arrived, later]; rfl⟩

theorem Chip.eff_arrived (r off lsb : Nat) : (c.arrived f).eff r off lsb = c.eff r off lsb := by
  obtain ⟨m, ps, e⟩ := c.arrived_eq f
  rw [e]; rfl

theorem Chip.identifyFrame_arrived : (c.arrived f).identifyFrame f = c.identifyFrame f := by
  obtain ⟨m, ps, e⟩ := c.arrived_eq f
  rw [e]; rfl

theorem Chip.held_arrived : (c.arrived f).held = c.held := by
  obtain ⟨m, ps, e⟩ := c.arrived_eq f
  rw [e]

theorem Chip.strF_arrived (h off lsb : Nat) : (c.arrived f).strF h off lsb = c.strF h off lsb := c.eff_arrived f ..

end

/-- The checks of a frame that arrived, in order (R588). -/
def Chip.checkFrame (c : Chip) (f : Frame) : Chip :=
  if !f.fcsOk then c
  else if c.eff (recTrd f.port) 0x10C 0 < f.length then c.rxDropped f.port
  else match c.identifyFrame f with
    | none => c.otherFrame f
    | some h =>
      let sdu := c.strF h 0x18 0
      if sdu ≠ 0 ∧ sdu < f.data.length then c.streamDropped h
      else if c.strF h 0x14 24 = 1 then { c with held := c.held ++ [⟨f, h⟩] }
      else c.meterAndSend h f

section
variable {s : State} {f : Frame} (clocked : s.chip.clocked = true) (up : (s.chip.port f.port).linkUp = true)
include clocked up

/-- A frame that arrives on a port whose link is up meets its checks. -/
theorem exec_frameReceive : exec (.frameReceive f) s = .next (s.put ((s.chip.arrived f).checkFrame f)) := by
  refine (onChip_clocked _ clocked).trans (congrArg _ (congrArg s.put ?_))
  rw [frameReceiveOp, if_neg (by simp [clocked, up])]
  extract_lets passed arrived
  exact (Chip.checkFrame.eq_1 arrived f).symm

end

section
variable {c : Chip} {f : Frame} (fcs : f.fcsOk = true) (short : f.length ≤ c.eff (recTrd f.port) 0x10C 0)

theorem Chip.checkFrame_fcs (bad : f.fcsOk = false) : c.checkFrame f = c := if_pos (by simp [bad])

include fcs in
theorem Chip.checkFrame_long (long : c.eff (recTrd f.port) 0x10C 0 < f.length) : c.checkFrame f = c.rxDropped f.port := by
  rw [Chip.checkFrame, if_neg (by simp [fcs]), if_pos long]

include fcs short

theorem Chip.checkFrame_other (stream : c.identifyFrame f = none) : c.checkFrame f = c.otherFrame f := by
  rw [Chip.checkFrame, if_neg (by simp [fcs]), if_neg (Nat.not_lt.mpr short), stream]

theorem Chip.checkFrame_held {h : Nat} (stream : c.identifyFrame f = some h) (sdu : c.strF h 0x18 0 = 0) (recovers : c.strF h 0x14 24 = 1) :
    c.checkFrame f = { c with held := c.held ++ [⟨f, h⟩] } := by
  rw [Chip.checkFrame, if_neg (by simp [fcs]), if_neg (Nat.not_lt.mpr short), stream]
  simp only
  rw [if_neg (fun long => long.1 sdu), if_pos recovers]

end

theorem Chip.otherFrame_plain (c : Chip) {f : Frame} (ptp : f.etype ≠ 0x88F7) (ip : f.ip = false) : c.otherFrame f = c.rxDropped f.port :=
  if_neg fun h => by
    rcases h with h | ⟨h, -⟩
    · exact ptp h
    · simp [ip] at h

/-- RESET_MS without a frame resets a stream's recovery (R590). -/
theorem exec_frerResetTimeout {s : State} (clocked : s.chip.clocked = true) {h : Fin 1024} (some : (s.chip.stream h).recov.isSome = true) :
    exec (.frerResetTimeout h) s = .next (s.put (s.chip.modStream h fun x =>
      { x with recov := none, hist := [], resets := satAdd 32 x.resets 1 })) := by
  refine (onChip_clocked _ clocked).trans (congrArg _ (congrArg s.put ?_))
  rw [frerResetTimeoutOp, if_neg (by simpa [Option.isSome_iff_ne_none] using some)]

/-! ## A frame leaves (R576–R578, R614) -/

/-- The port as its frame `f` starts. -/
def NetPort.starts (x : NetPort) (f : TxFrame) (express shaped : Bool) : NetPort :=
  { x with
    queue := x.queue.erase f
    tx := if x.preempted && express then x.tx else some f
    preempted := x.preempted && express
    credit := if shaped then tput x.credit 0 f.tc (tget x.credit 0 f.tc - (f.bytes + 20) * 8000) else x.credit }

/-- A frame that starts leaves its port's queue, and goes out with what it carries (R576). -/
theorem exec_frameTransmitStart {s : State} {p : Port} {f : TxFrame} (clocked : s.chip.clocked = true) (up : (s.chip.port p).linkUp = true)
    (serves : s.chip.netServes = true) (next : (s.chip.accrue p).nextFrame p = some f) : ∃ x : NetPort, x.queue = (s.chip.port p).queue.erase f ∧
      exec (.frameTransmitStart p) s = .next (s.put (((s.chip.setPort p x).departs f.kind f.bytes).2.emit
        (.frame p f.kind ((s.chip.setPort p x).departs f.kind f.bytes).1))) := by
  let x := (s.chip.accrue p).port p
  let express := !((s.chip.accrue p).preemptable p f.tc) || !x.verified
  have queue : x.queue = (s.chip.port p).queue := by
    rw [show x = _ from Chip.port_setPort_self ..]
  refine ⟨x.starts f express (bitAt ((s.chip.accrue p).eff (recTrd p) 0x100 16) f.tc), congrArg (List.erase · f) queue,
    (onChip_clocked _ clocked).trans (congrArg _ (congrArg s.put ?_))⟩
  have twice : s.chip.setPort p (x.starts f express (bitAt ((s.chip.accrue p).eff (recTrd p) 0x100 16) f.tc)) =
      (s.chip.accrue p).setPort p (x.starts f express (bitAt ((s.chip.accrue p).eff (recTrd p) 0x100 16) f.tc)) := by
    rw [Chip.accrue, Chip.setPort_setPort]
  rw [frameTransmitStartOp, if_neg (by simp [clocked, up, serves]), twice]
  simp only [next]
  rfl

/-- A frame that is neither an acknowledgement nor of a queue pair leaves as it is. -/
theorem Chip.departs_plain (c : Chip) {k : TxKind} (qp : k.qpOf = none) (ack : ∀ x, k ≠ .ack x) (len : Nat) : (c.departs k len).2 = c := by
  unfold Chip.departs
  split
  next x => exact absurd rfl (ack x)
  next => rfl
  next => rw [Chip.sealFrame, qp]

/-- A window as its acknowledgement leaves (R614). -/
def WinState.acked (w : WinState) : WinState := { w with acks := satAdd 32 w.acks 1, ackQueued := false }

/-- An acknowledgement without a second port counts as it leaves (R614). -/
theorem Chip.departs_ack (c : Chip) {x : Nat} (alone : c.winF x 7 4 = 0) (len : Nat) : c.departs (.ack x) len =
    (c.ackBytes x, c.modWin x WinState.acked) := by
  simp [Chip.departs, alone]
  rfl

theorem Chip.winF_setPort (c : Chip) (p : Nat) (y : NetPort) (x off lsb : Nat) : (c.setPort p y).winF x off lsb = c.winF x off lsb := rfl

theorem Chip.ackBytes_setPort (c : Chip) (p : Nat) (y : NetPort) (x : Nat) : (c.setPort p y).ackBytes x = c.ackBytes x := rfl

/-! ## A window closes (R605) -/

section
variable (c : Chip) (x : Nat)

theorem Chip.win_modWin_self (f : WinState → WinState) : (c.modWin x f).win x = f (c.win x) := tget_put_self ..

theorem Chip.win_modWin_ne (f : WinState → WinState) {y : Nat} (other : y ≠ x) : (c.modWin x f).win y = c.win y := tget_put_ne _ _ _ other

/-- A window whose next opening is reserved until `upto` (R605). -/
theorem Chip.reserve_closed (t upto : Nat) : let u := (c.reserve x t).modWin x fun w => { w with resTo := upto }
    (u.win x).reserved = c.nextOwners x ∧ (u.win x).resFrom = add48 t (c.winF x 8 0) ∧ (u.win x).next = (c.win x).next ∧
      (∀ y, y ≠ x → u.win y = c.win y) ∧ u = { c with wins := u.wins } := by
  have mine : ((c.reserve x t).modWin x fun w => { w with resTo := upto }).win x = _ := Chip.win_modWin_self ..
  have reserved : (c.reserve x t).win x = _ := Chip.win_modWin_self ..
  dsimp only
  rw [mine, reserved]
  exact ⟨rfl, rfl, rfl, fun y other => (Chip.win_modWin_ne _ _ _ other).trans (Chip.win_modWin_ne _ _ _ other), rfl⟩

end

/-- As an opening of the latest cycle closes, the next one is reserved (R605). -/
theorem exec_windowClose {s : State} {x : Fin 256} {t : Nat} (clocked : s.chip.clocked = true)
    (running : (s.chip.port (s.chip.winF x 1 0)).state = .running) (start : (s.chip.port (s.chip.winF x 1 0)).cycleStart = some t)
    (live : (s.chip.win x).live = true) : ∃ upto, exec (.windowClose x) s = .next (s.put
      (((s.chip.passTo (add48 t (s.chip.winF x 0xC 0))).reserve x (add48 t (s.chip.eff (recTrd (s.chip.winF x 1 0)) 0x120 0))).modWin x
        fun w => { w with resTo := upto })) := by
  have op : ∃ upto, windowCloseOp x s.chip = ((s.chip.passTo (add48 t (s.chip.winF x 0xC 0))).reserve x
      (add48 t (s.chip.eff (recTrd (s.chip.winF x 1 0)) 0x120 0))).modWin x fun w => { w with resTo := upto } := by
    simp only [windowCloseOp, running, start, live, Bool.not_true, Bool.false_eq_true, if_false]
    exact ⟨_, rfl⟩
  obtain ⟨upto, closed⟩ := op
  exact ⟨upto, (onChip_clocked _ clocked).trans (congrArg _ (congrArg s.put closed))⟩

/-- Settles O34: the checks of a frame, its leaving, and the reservation of a window. -/
theorem frames : Obligations.Frames := by
  unfold Obligations.Frames
  refine ⟨fun s f clocked => ⟨fun up bad => ?_, fun up fcs long => ?_, fun up fcs short stream ptp ip => ?_, fun h up fcs short stream sdu recovers => ?_,
    fun h => exec_frerResetTimeout clocked⟩, fun s p f clocked up serves next => ?_, fun s x t clocked => ?_⟩
  · rw [exec_frameReceive clocked up, Chip.checkFrame_fcs bad]
    rfl
  · rw [exec_frameReceive clocked up, Chip.checkFrame_long fcs (by rwa [Chip.eff_arrived])]
    rfl
  · rw [exec_frameReceive clocked up, Chip.checkFrame_other fcs (by rwa [Chip.eff_arrived]) (by rwa [Chip.identifyFrame_arrived]),
      Chip.otherFrame_plain _ ptp ip]
    rfl
  · rw [exec_frameReceive clocked up, Chip.checkFrame_held fcs (by rwa [Chip.eff_arrived]) (by rwa [Chip.identifyFrame_arrived])
      (by rwa [Chip.strF_arrived]) (by rwa [Chip.strF_arrived]), Chip.held_arrived]
    rfl
  · obtain ⟨y, queue, moved⟩ := exec_frameTransmitStart clocked up serves next
    refine ⟨fun qp ack => ?_, fun x kind alone => ?_⟩
    · rw [Chip.departs_plain _ qp ack] at moved
      exact ⟨_, moved, s.put_pending _, by rw [← queue]; exact congrArg NetPort.queue (Chip.port_setPort_self ..), ⟨_, rfl⟩,
        fun q other => Chip.port_setPort_ne _ _ other, rfl⟩
    · rw [kind, Chip.departs_ack _ (by rwa [Chip.winF_setPort]), Chip.ackBytes_setPort, ← kind] at moved
      exact ⟨_, moved, s.put_pending _, by rw [← queue]; exact congrArg NetPort.queue (Chip.port_setPort_self ..), rfl,
        congrArg WinState.acks ((s.chip.setPort p y).win_modWin_self x WinState.acked),
        congrArg WinState.ackQueued ((s.chip.setPort p y).win_modWin_self x WinState.acked),
        fun q other => Chip.port_setPort_ne _ _ other, rfl⟩
  · intro p c running start live
    obtain ⟨upto, closed⟩ := exec_windowClose clocked running start live
    obtain ⟨m, later⟩ := s.chip.passTo_tmb (add48 t (s.chip.winF x 0xC 0))
    obtain ⟨reserved, resFrom, kept, others, frame⟩ := c.reserve_closed x (add48 t (s.chip.eff (recTrd p) 0x120 0)) upto
    refine ⟨_, closed, s.put_pending _, reserved, resFrom.trans ?_, kept.trans ?_, fun y other => (others y other).trans ?_, frame.trans ?_⟩
    all_goals simp only [c, later]
    all_goals rfl

end Sys2Proof.Machine
end

section
/-! Settles O35: the vector recovery algorithm, and the recovery hold (R590–R592). -/

namespace Sys2Proof.Machine

/-! ## Vector recovery (R590) -/

section
variable {H s : Nat} (takeNone : Bool) {x : StreamState}

/-- The distance between sequence numbers, within half their range. -/
theorem toSigned_ahead {k : Nat} (small : k < 2 ^ 15) (hs : s < 2 ^ 16) : toSigned 16 (((s + k) % 2 ^ 16 + 2 ^ 16 - s) % 2 ^ 16) = k := by
  have : ((s + k) % 2 ^ 16 + 2 ^ 16 - s) % 2 ^ 16 = k := by omega
  rw [this]
  unfold toSigned
  split <;> omega

theorem recover_first (none : x.recov = none) : recover H takeNone (some s) x = (true, { x with recov := some s, hist := [true] }) := by
  simp [recover, none]

theorem recover_duplicate (wide : 1 < H) (hs : s < 2 ^ 16) {l : List Bool} (last : x.recov = some s) (seen : x.hist = true :: l) :
    recover H takeNone (some s) x = (false, { x with discarded := satAdd 32 x.discarded 1 }) := by
  have same := toSigned_ahead (k := 0) (by decide) hs
  rw [Nat.add_zero, Nat.mod_eq_of_lt hs] at same
  simp only [recover, last, same]
  rw [if_neg (by omega)]
  simp [seen]

theorem recover_next (wide : 1 < H) (hs : s < 2 ^ 16) (last : x.recov = some s) :
    (recover H takeNone (some ((s + 1) % 2 ^ 16)) x).1 = true ∧
      (recover H takeNone (some ((s + 1) % 2 ^ 16)) x).2.recov = some ((s + 1) % 2 ^ 16) ∧
      (recover H takeNone (some ((s + 1) % 2 ^ 16)) x).2.outOfOrder = x.outOfOrder := by
  have ahead := toSigned_ahead (k := 1) (by decide) hs
  simp only [recover, last, ahead]
  rw [if_neg (by omega), if_neg (by omega)]
  simp

theorem recover_rogue (small : H < 2 ^ 15) (hs : s < 2 ^ 16) (last : x.recov = some s) :
    recover H takeNone (some ((s + H) % 2 ^ 16)) x = (false, { x with rogue := satAdd 32 x.rogue 1 }) := by
  have ahead := toSigned_ahead small hs
  simp only [recover, last, ahead]
  rw [if_pos (.inl le_rfl)]

end

/-! ## The hold (R591, R592) -/

theorem Chip.modStream_const (c : Chip) (i : Nat) (y : StreamState) : c.modStream i (fun _ => y) = { c with streams := tput c.streams {} i y } := rfl

/-- What recovery decides on a stream does not look at the held frames or at the clock. -/
theorem recover_later (c : Chip) (h : List HeldFrame) (m : Tmb) (i : Nat) (r : Option Nat) :
    recover (({ c with held := h, tmb := m } : Chip).strF i 0x1C 0) (({ c with held := h, tmb := m } : Chip).strF i 0x14 25 == 1) r
      (({ c with held := h, tmb := m } : Chip).stream i) = recover (c.strF i 0x1C 0) (c.strF i 0x14 25 == 1) r (c.stream i) := rfl

/-- The held frame with the earliest last bit leaves its hold, and recovery decides on it. -/
theorem frerHoldExpireOp_first {c e : Chip} {x : HeldFrame} {d : Bool × StreamState} (first : firstHeld c.held = some x)
    (later : ({ c with held := c.held.erase x } : Chip).passTo (add48 x.frame.last.toNat 64) = e)
    (decided : recover (c.strF x.stream 0x1C 0) (c.strF x.stream 0x14 25 == 1) (x.frame.rtag.map (·.toNat)) (c.stream x.stream) = d) :
    frerHoldExpireOp c = if d.1 then ({ e with streams := tput e.streams {} x.stream d.2 } : Chip).meterAndSend x.stream x.frame
      else { e with streams := tput e.streams {} x.stream d.2 } := by
  obtain ⟨m, passed⟩ := ({ c with held := c.held.erase x } : Chip).passTo_tmb (add48 x.frame.last.toNat 64)
  have same : recover (e.strF x.stream 0x1C 0) (e.strF x.stream 0x14 25 == 1) (x.frame.rtag.map (·.toNat)) (e.stream x.stream) = d := by
    rw [← later, passed]
    exact (recover_later c (c.held.erase x) m _ _).trans decided
  simp only [frerHoldExpireOp, first, later, same, Chip.modStream_const]

/-- Settles O35: the cases of the algorithm by the distance of a number from the latest, and the two outcomes of the hold. -/
theorem sequenceRecovery : Obligations.SequenceRecovery := by
  unfold Obligations.SequenceRecovery
  refine ⟨fun H s takeNone x wide small hs => ⟨recover_first takeNone, fun l => recover_duplicate takeNone wide hs, recover_next takeNone wide hs,
    recover_rogue takeNone small hs, rfl, rfl⟩, fun s x clocked first => ?_⟩
  intro c d c2
  have moved : exec .frerHoldExpire s = .next (s.put (if d.1 then c2.meterAndSend x.stream x.frame else c2)) :=
    (onChip_clocked _ clocked).trans (congrArg _ (congrArg s.put (frerHoldExpireOp_first first rfl rfl)))
  exact ⟨fun discarded => by rw [moved, if_neg (Bool.eq_false_iff.mp discarded)], fun passes => by rw [moved, if_pos passes]⟩

end Sys2Proof.Machine
end

section
/-! Settles O36: doorbells of the work queues and the read of an entry (R278–R281, R288, R289, R300, R308). -/

namespace Sys2Proof.Machine

/-! ## Places of a ring (R276, R278) -/

/-- A place no further than a whole ring past another: in the same turn of the ring, or in the next one. -/
theorem ring_turns {size done p : Nat} (sized : 0 < size) (low : done ≤ p) (high : p ≤ done + size) :
    p / size = done / size ∧ done % size ≤ p % size ∧ p - done = p % size - done % size ∨
      p / size = done / size + 1 ∧ p - done = size + p % size - done % size := by
  have := Nat.div_add_mod p size
  have := Nat.div_add_mod done size
  have := Nat.mod_lt p sized
  have := Nat.mod_lt done sized
  rcases Nat.lt_or_ge (p / size) (done / size + 1) with below | above
  · have : done / size ≤ p / size := Nat.div_le_div_right low
    have same : p / size = done / size := by omega
    have turns : size * (p / size) = size * (done / size) := congrArg _ same
    exact .inl ⟨same, by omega, by omega⟩
  · have next : p / size ≤ done / size + 1 := by
      rw [← Nat.add_div_right _ sized]
      exact Nat.div_le_div_right high
    have same : p / size = done / size + 1 := by omega
    have turns : size * (p / size) = size * (done / size) + size := by rw [same, Nat.mul_add, Nat.mul_one]
    exact .inr ⟨same, by omega⟩

/-- A tail that names a place of the ring counts the entries up to there. -/
theorem Queue.outstanding_place {q : Queue} (sized : 0 < q.size) {p : Nat} (low : q.done ≤ p) (high : p ≤ q.done + q.size) :
    q.outstanding (p % q.size) (p / q.size % 2) = some (p - q.done) := by
  have := Nat.mod_lt q.done sized
  have := Nat.mod_lt p sized
  unfold Queue.outstanding Queue.phase Queue.index
  obtain ⟨same, below, count⟩ | ⟨next, count⟩ := ring_turns sized low high
  · rw [same, if_neg (not_not_intro rfl), Nat.zero_add, if_neg (by omega), if_neg (by omega), count]
  · have turned : (q.done / q.size + 1) % 2 ≠ q.done / q.size % 2 := by omega
    rw [next, if_pos turned, if_neg (by omega), if_neg (by omega), count]

/-- An index names the place of the ring at or after the oldest entry not completed. -/
theorem Queue.posOf_place {q : Queue} (sized : 0 < q.size) {p : Nat} (low : q.done ≤ p) (high : p < q.done + q.size) :
    q.posOf (p % q.size) = p := by
  have := Nat.mod_lt q.done sized
  have small := Nat.mod_lt p sized
  unfold Queue.posOf Queue.index
  obtain ⟨-, below, count⟩ | ⟨-, count⟩ := ring_turns sized low high.le
  · have : p % q.size + q.size - q.done % q.size = p % q.size - q.done % q.size + q.size := by omega
    rw [this, Nat.add_mod_right, Nat.mod_eq_of_lt (by omega)]
    omega
  · rw [Nat.mod_eq_of_lt (by omega)]
    omega

/-! ## Doorbells (R280, R288, R289, R308) -/

theorem bits_low (x : Nat) : bits x 0 16 = x % 2 ^ 16 := by
  simp [bits]

section
variable {c : Chip} {f : Fn} {g : Grp} {v : W32} (noFlr : (c.fn f).flr = none)
include noFlr

theorem wqTailOp_publish {p : Nat} (live : c.live f g = true) (index : v.toNat % 2 ^ 16 = p % (c.queue f g).size)
    (phase : v.toNat / 2 ^ 16 % 2 = p / (c.queue f g).size % 2) (low : (c.queue f g).done ≤ (c.queue f g).tail) (next : (c.queue f g).tail ≤ p)
    (high : p ≤ (c.queue f g).done + (c.queue f g).size) (sized : 0 < (c.queue f g).size) :
    wqTailOp f g v c = c.setFn f { (c.fn f).setQueue g { c.queue f g with
      tail := p, stopped := false,
      pubs := if p = (c.queue f g).tail then (c.queue f g).pubs else (c.queue f g).pubs ++ [(p, (c.fn f).stamp + 1)] } with
      stamp := (c.fn f).stamp + 1 } := by
  have named : bits v.toNat 0 16 = p % (c.queue f g).size := (bits_low _).trans index
  have turn : bits v.toNat 16 1 = p / (c.queue f g).size % 2 := phase
  have inside := Nat.mod_lt p sized
  have reach : (c.queue f g).done + (p - (c.queue f g).done) = p := by omega
  unfold wqTailOp
  simp only [noFlr, live, named, turn, Queue.outstanding_place sized (low.trans next) high, reach]
  rw [if_neg (by simp), if_neg (by simp [inside]), if_neg (by omega)]
  rfl

theorem wqTailOp_dead (dead : c.live f g = false) : wqTailOp f g v c = c.doorbellError f g v.toNat := by
  simp [wqTailOp, noFlr, dead]

theorem wqInvalOp_place {p : Nat} (live : c.live f g = true) (index : v.toNat % 2 ^ 16 = p % (c.queue f g).size) (low : (c.queue f g).done ≤ p)
    (published : p < (c.queue f g).tail) (high : p < (c.queue f g).done + (c.queue f g).size) :
    wqInvalOp f g v c = if p < (c.queue f g).nextPos then c.modQueue f g fun q => { q with invalLate := satAdd 8 q.invalLate 1 }
      else c.modQueue f g fun q => { q with cache := terase q.cache p } := by
  have sized : 0 < (c.queue f g).size := by omega
  have named : bits v.toNat 0 16 = p % (c.queue f g).size := (bits_low _).trans index
  have inside := Nat.mod_lt p sized
  unfold wqInvalOp
  simp only [noFlr, live, named, Queue.posOf_place sized low high]
  rw [if_neg (by simp), if_neg (by simp), if_neg (by omega), if_neg (by omega)]

end

/-! ## The read of an entry (R281, R300) -/

theorem entryFetchOp_next {c : Chip} {f : Fn} {g : Grp} {p : Nat} (r : FetchResult) (live : c.live f g = true) (sound : (c.queue f g).error = false)
    (going : (c.queue f g).stopped = false) (noFlr : (c.fn f).flr = none) (serves : c.vault.stopped = false) (places : c.outOfPlaces = false)
    (next : (c.queue f g).nextFetch (c.window (c.queue f g)) (c.queue f g).nextPos = some p) :
    entryFetchOp f g r c = match r with
      | .ok e => if eOwn e then c.modQueue f g fun q => { q with cache := tinsert q.cache p e } else c.modQueue f g fun q => { q with stopped := true }
      | .err x => (c.modQueue f g fun q => { q with error := true }).raiseOne f
        { type := 1, queue := if g.val = 0 then 0xFF else g.val - 1, info := hostErrCode x, data := (c.queue f g).index p,
          seq := (c.modQueue f g fun q => { q with error := true }).nextPlace } := by
  unfold entryFetchOp
  simp only [live, sound, going, noFlr, serves, places, next]
  cases r <;> rfl

/-- Settles O36: the place that a doorbell names, and the three outcomes of a read. -/
theorem queueHandover : Obligations.QueueHandover := by
  unfold Obligations.QueueHandover
  refine ⟨fun s f g v p clocked noFlr => ?_, fun s f g e x p clocked => ?_⟩
  · intro x q
    refine ⟨fun live index phase low next high sized => ?_, fun dead => ?_, fun live index admitted low published high => ?_,
      fun live index admitted low published high => ?_⟩
    · exact (onChip_clocked _ clocked).trans (congrArg _ (congrArg s.put (wqTailOp_publish noFlr live index phase low next high sized)))
    · exact ⟨_, (onChip_clocked _ clocked).trans (congrArg _ (congrArg s.put (wqTailOp_dead noFlr dead))), rfl, rfl, rfl⟩
    · exact (onChip_clocked _ clocked).trans (congrArg _ (congrArg s.put
        ((wqInvalOp_place noFlr live index low published high).trans (if_neg admitted.not_gt))))
    · exact (onChip_clocked _ clocked).trans (congrArg _ (congrArg s.put
        ((wqInvalOp_place noFlr live index low published high).trans (if_pos admitted))))
  · intro q live sound going noFlr serves places next
    have op (r : FetchResult) := entryFetchOp_next r live sound going noFlr serves places next
    refine ⟨fun own => ?_, fun free => ?_, ?_⟩
    · exact (onChip_clocked _ clocked).trans (congrArg _ (congrArg s.put ((op (.ok e)).trans (if_pos own))))
    · exact (onChip_clocked _ clocked).trans (congrArg _ (congrArg s.put ((op (.ok e)).trans (if_neg (by simp [free])))))
    · exact ⟨_, (onChip_clocked _ clocked).trans (congrArg _ (congrArg s.put (op (.err x)))), rfl, rfl, rfl⟩

end Sys2Proof.Machine
end

section
/-! Settles O37: the admission of an entry, its completion, its shadow and its message (R273, R282–R286, R291, R295, R296, R324). -/

namespace Sys2Proof.Machine

/-! ## Admission (R273, R295, R296) -/

theorem Queue.examine_alone {q : Queue} {e : BitVec 512} (next : q.cached q.nextPos = some e) (first : eFirst e = true) (last : eLast e = true) (n : Nat) :
    q.examine (n + 1) 0 false = some (1, false) := by
  simp [Queue.examine, next, first, last]

/-- The status of an admission does not depend on the places taken. -/
theorem admitStatus_takeSeq (c : Chip) (f g : Nat) (broken : Bool) (e : BitVec 512) :
    admitStatus c.takeSeq.2 f g broken e = admitStatus c f g broken e := by
  obtain ⟨n, p, ⟨_, _, _, rfl⟩, taken⟩ := c.takeSeq_placed
  rw [taken]
  rfl

theorem Chip.takeSeq_fn (c : Chip) (f : Nat) : c.takeSeq.2.fn f = c.fn f := by
  obtain ⟨n, p, -, taken⟩ := c.takeSeq_placed
  rw [taken]
  rfl

theorem admitStatus_fenced {c : Chip} {f g : Nat} {e : BitVec 512} (io : g ≠ 0) (role : c.par.role = .standby ∨ c.par.role = .fenced) :
    admitStatus c f g false e = some (stFenced, c.par.role.code) := by
  unfold admitStatus
  simp [io, role]

/-- The admin queue is not closed by the role: the structure and the rights of the sender decide. -/
theorem admitStatus_admin (c : Chip) (f : Nat) (e : BitVec 512) : admitStatus c f 0 false e =
    match structCheck c false e with
    | some o => some (stMalformed, o)
    | none => if deniedTo f false e then some (stDenied, 0) else none := by
  simp only [admitStatus]
  rw [if_neg (by simp), if_neg (by simp)]
  cases check : structCheck c (0 != 0) e <;> simp [show structCheck c false e = _ from check]

section
variable {c : Chip} {f : Fn} {g : Grp} {e : BitVec 512} (live : c.live f g = true) (noFlr : (c.fn f).flr = none) (serves : c.vault.stopped = false)
  (settled : c.par.handing = .none) (admits : c.admits = true) (next : (c.queue f g).cached (c.queue f g).nextPos = some e) (first : eFirst e = true)
  (last : eLast e = true) (free : (c.fn f).fenceBlocks g (c.queue f g).nextPos e = false)
include live noFlr serves settled admits next first last free

theorem entryAdmitOp_alone : entryAdmitOp f g c = c.takeSeq.2.setFn f ((c.fn f).setQueue g { c.queue f g with
    cache := terase (c.queue f g).cache (c.queue f g).nextPos, nextPos := (c.queue f g).nextPos + 1,
    work := (c.queue f g).work ++
      [{ pos := (c.queue f g).nextPos, entry := e, seq := c.takeSeq.1, status := admitStatus c f g false e }] }) := by
  have opens : (!c.live f g || (c.fn f).flr.isSome || c.vault.stopped || c.par.handing != .none || !c.admits) = false := by
    simp [live, noFlr, serves, settled, admits]
  unfold entryAdmitOp
  simp only [opens, Queue.examine_alone next first last, next, free, admitRun, admitStatus_takeSeq]
  rw [if_neg (by simp), if_neg (by simp), Chip.modQueue, Chip.modFn, Chip.takeSeq_fn]
  rfl

end

/-- The ingest calendar does not hold the entry back. -/
theorem entryAdmitPacedOp_fits {c : Chip} {f : Fn} {g : Grp} {e : BitVec 512} (next : (c.queue f g).cached (c.queue f g).nextPos = some e)
    (first : eFirst e = true) (last : eLast e = true) (paced : g = 0 ∨ c.calendarOk (c.queue f g) 1 = true) :
    entryAdmitPacedOp f g c = entryAdmitOp f g c := by
  unfold entryAdmitPacedOp
  simp only [Queue.examine_alone next first last]
  rw [if_neg]
  rcases paced with rfl | fits
  · simp
  · simp [fits]

/-! ## Completion, shadow and message (R282–R286, R324) -/

section
variable {c : Chip} {f : Fn} (noFlr : (c.fn f).flr = none)
include noFlr

theorem Chip.hostWrite_noFlr (addr : Nat) (l : List Byte) : c.hostWrite f addr l = c.emit (.hostWrite f addr l) := by
  simp [Chip.hostWrite, noFlr]

theorem entryCompleteOp_oldest {g : Grp} {a : Adm} {l : List Adm} {code detail : Nat} (work : (c.queue f g).work = a :: l)
    (status : a.status = some (code, detail)) (oldest : a.pos = (c.queue f g).done) :
    entryCompleteOp f g c = { c.setFn f ((c.fn f).setQueue g { c.queue f g with
        work := l, done := (c.queue f g).done + 1, lastSeq := a.seq, intrDue := (c.queue f g).intrDue || eIntr a.entry }) with
      out := c.out ++ [.hostWrite f ((c.queue f g).base + 64 * (a.pos % (c.queue f g).size) + 0x38) (leBytes 6 a.seq ++ [BitVec.ofNat 8 code]),
        .hostWrite f ((c.queue f g).base + 64 * (a.pos % (c.queue f g).size) + 0x3F) [BitVec.ofNat 8 (detail % 128)]] } := by
  have second (o : Output) (addr : Nat) (b : List Byte) : (c.emit o).hostWrite f addr b = (c.emit o).emit (.hostWrite f addr b) :=
    Chip.hostWrite_noFlr (c := c.emit o) noFlr addr b
  have both (x y : Output) : c.out ++ [x] ++ [y] = c.out ++ [x, y] := List.append_assoc ..
  unfold entryCompleteOp
  simp only [work, status, oldest, Chip.hostWrite_noFlr noFlr, second]
  rw [if_neg (not_not_intro rfl)]
  simp only [Chip.emit, both]
  rfl

theorem msixMessageOp_asked {n : Fin 64} (asked : n.val ∈ (c.fn f).msix) : msixMessageOp f n c =
    { c.setFn f { c.fn f with msix := (c.fn f).msix.filter (· != n.val) } with out := c.out ++ [.msix f n] } := by
  unfold msixMessageOp
  rw [if_pos (List.contains_iff_mem.mpr asked), if_neg (by simp [noFlr])]
  rfl

theorem shadowWriteOp_behind {g : Grp} (behind : (c.queue f g).done ≠ (c.queue f g).head) : shadowWriteOp f g c =
    (c.emit (.hostWrite f (c.queue f g).shadow (c.queue f g).shadowBytes)).modFn f fun x =>
      if (c.queue f g).intrDue then (x.setQueue g { c.queue f g with head := (c.queue f g).done, intrDue := false }).due (c.queue f g).vector
      else x.setQueue g { c.queue f g with head := (c.queue f g).done, intrDue := false } := by
  unfold shadowWriteOp
  simp only [if_neg behind, Chip.hostWrite_noFlr noFlr]

end

theorem Func.queue_setQueue_ne (x : Func) {g k : Nat} (q : Queue) (other : k ≠ g) : (x.setQueue g q).queue k = x.queue k := tget_put_ne _ _ _ other

theorem Func.due_eq (x : Func) (v : Nat) : ∃ l, x.due v = { x with msix := l } ∧ ∀ k, k ∈ l ↔ k ∈ x.msix ∨ k = v := by
  unfold Func.due
  split
  case isTrue listed =>
    refine ⟨x.msix, rfl, fun k => ⟨.inl, fun hit => hit.elim id ?_⟩⟩
    rintro rfl
    exact List.contains_iff_mem.mp listed
  case isFalse => exact ⟨x.msix ++ [v], rfl, fun k => by simp⟩

/-- A queue's shadow is written: its marks move, and its message is asked for where an entry asked for one. -/
theorem Func.shadowed (x : Func) (g : Nat) (q : Queue) (ask : Bool) (v : Nat) :
    ∃ l, (if ask then (x.setQueue g q).due v else x.setQueue g q) = { x.setQueue g q with msix := l } ∧
      ∀ k, k ∈ l ↔ k ∈ x.msix ∨ (ask = true ∧ k = v) := by
  cases ask with
  | false => exact ⟨x.msix, rfl, fun k => by simp⟩
  | true =>
    obtain ⟨l, due, members⟩ := (x.setQueue g q).due_eq v
    exact ⟨l, due, fun k => (members k).trans (by simp [Func.setQueue])⟩

/-- Settles O37: each step of an entry's life on its queue. -/
theorem entriesRun : Obligations.EntriesRun := by
  unfold Obligations.EntriesRun
  refine ⟨fun s f g e clocked => ?_, fun s f g a l code detail n clocked noFlr => ?_⟩
  · intro q live noFlr serves settled admits next first last free paced
    refine ⟨admitStatus s.chip f g false e, ?_, fun io role => admitStatus_fenced (by simpa using io) role, ?_, ?_⟩
    · exact (onChip_clocked _ clocked).trans (congrArg _ (congrArg s.put
        ((entryAdmitPacedOp_fits next first last paced).trans
          (entryAdmitOp_alone live noFlr serves settled admits next first last free))))
    · rintro rfl unknown
      have check : structCheck s.chip false e = some 0 := by simp [structCheck, unknown]
      exact (admitStatus_admin s.chip f e).trans (by rw [check])
    · rintro rfl check
      exact (admitStatus_admin s.chip f e).trans (by rw [check])
  · intro x q slot
    refine ⟨fun work status oldest => ?_, fun behind => ?_, fun asked => ?_⟩
    · exact (onChip_clocked _ clocked).trans (congrArg _ (congrArg s.put (entryCompleteOp_oldest noFlr work status oldest)))
    · refine ⟨_, (onChip_clocked _ clocked).trans (congrArg _ (congrArg s.put (shadowWriteOp_behind noFlr behind))), s.put_pending _, ?_⟩
      obtain ⟨l, shadowed, members⟩ := x.shadowed g { q with head := q.done, intrDue := false } q.intrDue q.vector
      rw [State.put_chip]
      have fn : ((s.chip.emit (.hostWrite f q.shadow q.shadowBytes)).modFn f fun x =>
          if q.intrDue then (x.setQueue g { q with head := q.done, intrDue := false }).due q.vector
          else x.setQueue g { q with head := q.done, intrDue := false }).fn f =
          { x.setQueue g { q with head := q.done, intrDue := false } with msix := l } := (Chip.fn_modFn_self _ _ _).trans shadowed
      refine ⟨rfl, ?_, fun k other => ?_, fun k => ?_, ?_, fun k other => Chip.fn_modFn_ne _ _ other, rfl⟩
      · exact (congrArg (Func.queue · g) fn).trans (Func.queue_setQueue_self x g _)
      · exact (congrArg (Func.queue · k) fn).trans (Func.queue_setQueue_ne x _ other)
      · exact (Eq.to_iff (congrArg (k ∈ ·.msix) fn)).trans (members k)
      · exact fn.trans (by rw [fn]; rfl)
    · exact (onChip_clocked _ clocked).trans (congrArg _ (congrArg s.put (msixMessageOp_asked noFlr asked)))

end Sys2Proof.Machine
end

section
/-! Settles O38: the queue commands, the event ring and the Function Level Reset (R266, R304–R311, R317–R329). -/

namespace Sys2Proof.Machine

/-! ## Commands on an admitted entry -/

section
variable {c d : Chip} {f : Fn} {g : Grp} {ix : BitVec 16} {op : Nat} {a : Adm}

theorem Chip.onEntry_entryAt (entry : c.entryAt f g ix op a) (h : Adm → Chip → Chip) : c.onEntry f g ix.toNat op h = h a c := by
  obtain ⟨stands, open_, waits, code⟩ := entry
  simp [Chip.onEntry, stands, open_, waits, code]

theorem Chip.onAdmin_entryAt (entry : c.entryAt f 0 ix op a) {h : Adm → Chip → (Nat × Nat) × Chip} {code detail : Nat} (result : h a c = ((code, detail), d)) :
    c.onAdmin f ix.toNat op h = d.finish f 0 a.pos code detail := by
  refine (Chip.onEntry_entryAt (g := 0) entry _).trans ?_
  simp only [result]

end

/-! ## Queues and rings of a function (R304–R311) -/

section
variable {c : Chip} {f : Fn} {ix : BitVec 16} {a : Adm}

theorem createIoqOp_new (entry : c.entryAt f 0 ix 0x01 a) (noFlr : (c.fn f).flr = none) (new : (c.queue f (eField a.entry 4 1 + 1)).created = false) :
    createIoqOp f ix c = Chip.done { c.setFn f ((c.fn f).setQueue (eField a.entry 4 1 + 1) {
        created := true, size := eField a.entry 8 4, base := eDptr a.entry, shadow := eField a.entry 0x10 8, vector := eField a.entry 5 1,
        weight := eField a.entry 6 1 }) with out := c.out ++ [.hostWrite f (eField a.entry 0x10 8) (List.replicate 16 0)] } f a := by
  refine Chip.onAdmin_entryAt entry (?_ : _ = ((stOk, 0), _))
  rw [if_neg (by simp [new])]
  refine congrArg ((stOk, 0), ·) ((Chip.hostWrite_noFlr (by simpa [Func.setQueue] using noFlr) _ _).trans ?_)
  rfl

theorem deleteIoqOp_live (entry : c.entryAt f 0 ix 0x02 a) (created : (c.queue f (eField a.entry 4 1 + 1)).created = true)
    (sound : (c.queue f (eField a.entry 4 1 + 1)).error = false) : deleteIoqOp f ix c =
    if (c.queue f (eField a.entry 4 1 + 1)).done < (c.queue f (eField a.entry 4 1 + 1)).tail then c.finish f 0 a.pos stQueueBusy 0
    else (c.setFn f ((c.fn f).setQueue (eField a.entry 4 1 + 1) {})).done f a := by
  by_cases busy : (c.queue f (eField a.entry 4 1 + 1)).done < (c.queue f (eField a.entry 4 1 + 1)).tail
  · rw [if_pos busy]
    refine Chip.onAdmin_entryAt entry (?_ : _ = ((stQueueBusy, 0), _))
    rw [if_neg (by simp [created]), if_pos (by simp [sound, busy])]
  · rw [if_neg busy]
    refine Chip.onAdmin_entryAt entry (?_ : _ = ((stOk, 0), _))
    rw [if_neg (by simp [created]), if_neg (by simp [sound, busy])]
    rfl

theorem Chip.tellLost_none (none : (c.fn f).lostSince = 0) : c.tellLost f = c := by
  simp [Chip.tellLost, none]

theorem setEventRingOp_set (entry : c.entryAt f 0 ix 0x03 a) (consumed : (c.fn f).evtSet = true → (c.fn f).evtTail ≤ (c.fn f).evtHead)
    (sized : eField a.entry 8 4 ≠ 0) (none : (c.fn f).lostSince = 0) : setEventRingOp f ix c = (c.setFn f { c.fn f with
      evtSet := true, evtBase := eDptr a.entry, evtSize := eField a.entry 8 4,
      evtMask := if isPf f then eField a.entry 4 2 ||| 0x8006 else (eField a.entry 4 2 ||| 0x8006) &&& 0x8086,
      evtVector := eField a.entry 6 1, evtTail := 0, evtHead := 0 }).done f a := by
  refine Chip.onAdmin_entryAt entry (?_ : _ = ((stOk, 0), _))
  rw [if_neg (fun waits => (consumed waits.1).not_gt waits.2), if_neg sized, Chip.tellLost_none (by simpa using none)]
  rfl

theorem setEventRingOp_unset (entry : c.entryAt f 0 ix 0x03 a) (consumed : (c.fn f).evtSet = true → (c.fn f).evtTail ≤ (c.fn f).evtHead)
    (none : eField a.entry 8 4 = 0) : setEventRingOp f ix c = (c.setFn f { c.fn f with
      evtSet := false, evtBase := 0, evtSize := 16, evtMask := 0, evtVector := 0, evtTail := 0, evtHead := 0 }).done f a := by
  refine Chip.onAdmin_entryAt entry (?_ : _ = ((stOk, 0), _))
  rw [if_neg (fun waits => (consumed waits.1).not_gt waits.2), if_pos none]
  rfl

end

/-! ## The admin queue (06, "Registers") -/

section
variable {c : Chip} {f : Fn} {v : W32}

theorem adminQueueEnableOp_set (set : (c.fn f).enable = true) : adminQueueEnableOp f v c = c := by
  simp [adminQueueEnableOp, set]

variable (off : (c.fn f).enable = false) (noFlr : (c.fn f).flr = none) (asked : v.getLsbD 31 = true)
include off noFlr asked

theorem adminQueueEnableOp_start (sized : v.toNat % 2 ^ 16 ≠ 0) (base : (c.fn f).adminBase % 64 = 0) (shadow : (c.fn f).adminShadow % 16 = 0) :
    adminQueueEnableOp f v c = c.setFn f (({ c.fn f with
      sizeM1 := v.toNat % 2 ^ 16, vector := v.toNat / 2 ^ 16 % 64, adminErr := false, enable := true } : Func).setQueue 0 {
        created := true, size := v.toNat % 2 ^ 16 + 1, base := (c.fn f).adminBase, shadow := (c.fn f).adminShadow,
        vector := v.toNat / 2 ^ 16 % 64 }) := by
  have vector : bits v.toNat 16 6 = v.toNat / 2 ^ 16 % 64 := rfl
  unfold adminQueueEnableOp
  simp only [bits_low, vector]
  rw [if_neg (by simp [off, noFlr]), if_neg (by simp [asked]), if_neg (by simp only [sized, base, shadow, ne_eq, not_true_eq_false, or_self, not_false_eq_true])]

theorem adminQueueEnableOp_refused (bad : v.toNat % 2 ^ 16 = 0 ∨ (c.fn f).adminBase % 64 ≠ 0) : adminQueueEnableOp f v c =
    c.setFn f { c.fn f with sizeM1 := v.toNat % 2 ^ 16, vector := bits v.toNat 16 6, adminErr := true } := by
  unfold adminQueueEnableOp
  simp only [bits_low]
  rw [if_neg (by simp [off, noFlr]), if_neg (by simp [asked]), if_pos (bad.imp_right .inl)]

end

/-! ## The event ring (R317–R323) -/

section
variable {c : Chip} {f : Fn} {v : Ev} (on : (c.fn f).enable = true) (noFlr : (c.fn f).flr = none) (set : (c.fn f).evtSet = true)
  (asked : bitAt (c.fn f).evtMask v.type = true)
include on noFlr set asked

/-- An event with a free slot: its bytes 0 to 14, then its phase byte. -/
theorem Chip.deliver_posted (free : (c.fn f).evtFull = false) : c.deliver v f =
    ((((c.arrive 5).emit (.hostWrite f ((c.fn f).evtBase + 16 * ((c.fn f).evtTail % (c.fn f).evtSize)) v.bytes)).emit
      (.hostWrite f ((c.fn f).evtBase + 16 * ((c.fn f).evtTail % (c.fn f).evtSize) + 15)
        (leBytes 1 (128 * (((c.fn f).evtTail / (c.fn f).evtSize + 1) % 2))))).modFn f fun x =>
      { x with evtTail := x.evtTail + 1, ring := x.ring ++ [v] }.due x.evtVector) := by
  have first (l : List Byte) (addr : Nat) : (c.arrive 5).hostWrite f addr l = (c.arrive 5).emit (.hostWrite f addr l) :=
    Chip.hostWrite_noFlr (c := c.arrive 5) noFlr addr l
  have second (o : Output) (l : List Byte) (addr : Nat) : ((c.arrive 5).emit o).hostWrite f addr l = ((c.arrive 5).emit o).emit (.hostWrite f addr l) :=
    Chip.hostWrite_noFlr (c := (c.arrive 5).emit o) noFlr addr l
  unfold Chip.deliver Chip.putEvent
  rw [if_pos (by simp [on, noFlr, set, asked, free])]
  simp only [first, second]
  rfl

/-- An event with the ring full is counted. -/
theorem Chip.deliver_full (full : (c.fn f).evtFull = true) : c.deliver v f = (c.dropMoving 5).modFn f fun x => { x with
    ovf := tput x.ovf 0 v.type (satAdd 32 (tget x.ovf 0 v.type) 1), eventsLost := true, lostSince := satAdd 32 x.lostSince 1 } := by
  unfold Chip.deliver
  rw [if_neg (by simp [full])]
  simp only [on, noFlr, set, asked, full]
  rfl

end

theorem eventPostOp_one {c : Chip} {f : Fn} {x : Raised} {l : List Raised} (raised : c.raised = x :: l) (own : x.live = none)
    (target : x.targets = [f.val]) : ∃ e, eventPostOp c = ({ c with raised := l, evr := e } : Chip).deliver x.ev f := by
  obtain ⟨e, record⟩ := ({ c with raised := l } : Chip).record_evr 4 1 x.ev.type x.ev.data x.ev.info
  refine ⟨e, ?_⟩
  simp only [eventPostOp, raised, own, target, List.foldl]
  exact congrArg (Chip.deliver · x.ev f) record

theorem wqEvtHeadOp_consume {c : Chip} {f : Fn} {v : W32} {n : Nat} (noFlr : (c.fn f).flr = none) (set : (c.fn f).evtSet = true) (sized : 0 < (c.fn f).evtSize)
    (unconsumed : n ≤ (c.fn f).evtTail - (c.fn f).evtHead) (small : n ≤ (c.fn f).evtSize) (none : (c.fn f).lostSince = 0)
    (index : v.toNat % 2 ^ 16 = ((c.fn f).evtHead + n) % (c.fn f).evtSize) (phase : v.toNat / 2 ^ 16 % 2 = ((c.fn f).evtHead + n) / (c.fn f).evtSize % 2) :
    wqEvtHeadOp f v c = (c.giveBack 5 n).setFn f { c.fn f with evtHead := (c.fn f).evtHead + n, ring := (c.fn f).ring.drop n } := by
  have named : bits v.toNat 0 16 = ((c.fn f).evtHead + n) % (c.fn f).evtSize := (bits_low _).trans index
  have turn : bits v.toNat 16 1 = ((c.fn f).evtHead + n) / (c.fn f).evtSize % 2 := phase
  have inside := Nat.mod_lt ((c.fn f).evtHead + n) sized
  have below := Nat.mod_lt (c.fn f).evtHead sized
  have base : (if ((c.fn f).evtHead + n) / (c.fn f).evtSize % 2 ≠ (c.fn f).evtHead / (c.fn f).evtSize % 2 then (c.fn f).evtSize else 0) +
      ((c.fn f).evtHead + n) % (c.fn f).evtSize = (c.fn f).evtHead % (c.fn f).evtSize + n := by
    obtain ⟨same, low, count⟩ | ⟨next, count⟩ := ring_turns sized (Nat.le_add_right (c.fn f).evtHead n) (by omega)
    · rw [same, if_neg (not_not_intro rfl)]
      omega
    · have turned : ((c.fn f).evtHead / (c.fn f).evtSize + 1) % 2 ≠ (c.fn f).evtHead / (c.fn f).evtSize % 2 := by omega
      rw [next, if_pos turned]
      omega
  unfold wqEvtHeadOp
  simp only [named, turn, base, Nat.add_sub_cancel_left]
  rw [if_neg (by simp [noFlr]), if_neg, Chip.tellLost_none]
  · rfl
  · exact (congrArg Func.lostSince (Chip.fn_modFn_self ..)).trans none
  · rintro (unset | outside | behind | ahead)
    · simp [set] at unset
    all_goals omega

/-! ## Function Level Reset (R325–R329) -/

section
variable {h : Func → Func} (settled : ∀ x, h (h x) = h x)
include settled

/-- The same change made to each function of a list. -/
theorem Chip.fn_foldl_modFn (l : List Nat) (c : Chip) (n : Nat) :
    (l.foldl (fun c f => c.modFn f h) c).fn n = if n ∈ l then h (c.fn n) else c.fn n := by
  induction l generalizing c with
  | nil => rfl
  | cons f l ih =>
    rw [List.foldl_cons, ih]
    by_cases hit : n = f
    · subst hit
      simp [settled]
    · simp [Chip.fn_modFn_ne _ _ hit, hit]

end

theorem Chip.foldl_modFn_funcs (h : Func → Func) (l : List Nat) (c : Chip) :
    l.foldl (fun c f => c.modFn f h) c = { c with funcs := (l.foldl (fun c f => c.modFn f h) c).funcs } := by
  induction l generalizing c with
  | nil => rfl
  | cons f l ih => exact ih _

/-- A Function Level Reset takes one place, and begins in each function that it takes. -/
theorem Chip.startFlr_begins (c : Chip) (f : Nat) : ∃ l n p, c.startFlr f = { c with funcs := l, admNext := n, par := p } ∧
    (∀ n, n ∈ flrSet f → (c.startFlr f).fn n = { c.fn n with flr := some c.takeSeq.1, msix := [] }) ∧ ∀ n, n ∉ flrSet f → (c.startFlr f).fn n = c.fn n := by
  obtain ⟨n, p, -, taken⟩ := c.takeSeq_placed
  have all (k : Nat) := Chip.fn_foldl_modFn (h := fun x => { x with flr := some c.takeSeq.1, msix := [] }) (fun _ => rfl) (flrSet f) c.takeSeq.2 k
  refine ⟨_, n, p, (Chip.foldl_modFn_funcs _ (flrSet f) c.takeSeq.2).trans (by rw [taken]), fun k hit => ?_, fun k miss => ?_⟩
  · exact (all k).trans (by rw [if_pos hit, Chip.takeSeq_fn])
  · exact (all k).trans (by rw [if_neg miss, Chip.takeSeq_fn])

theorem flrCompleteOp_over {c : Chip} {f : Fn} {k : Nat} (flr : (c.fn f).flr = some k)
    (done : ∀ gq ∈ (c.fn f).queues, ∀ a ∈ gq.2.work, a.status.isSome = true) :
    flrCompleteOp f c = (c.giveBack 5 ((c.fn f).evtTail - (c.fn f).evtHead)).setFn f { flrSeq := some k } := by
  have ended : ((c.fn f).queues.all fun gq => gq.2.work.all fun a => a.status.isSome) = true :=
    List.all_eq_true.mpr fun gq hit => List.all_eq_true.mpr (done gq hit)
  simp only [flrCompleteOp, flr, ended]
  rfl

/-- Settles O38: each command and each operation by its own equation. -/
theorem queueServices : Obligations.QueueServices := by
  unfold Obligations.QueueServices
  refine ⟨fun s f ix a v clocked => ?_, fun s f v x l n port clocked => ?_, fun s f k clocked => ?_⟩
  · intro e x q
    refine ⟨fun entry noFlr new => ?_, fun entry created sound idle => ?_, fun entry created sound busy => ?_, fun entry consumed sized none => ?_,
      fun entry consumed none => ?_, fun off noFlr asked sized base shadow => ?_, fun off noFlr asked bad => ?_, fun set => ?_⟩
    · exact (onChip_clocked _ clocked).trans (congrArg _ (congrArg s.put (createIoqOp_new entry noFlr new)))
    · exact (onChip_clocked _ clocked).trans (congrArg _ (congrArg s.put ((deleteIoqOp_live entry created sound).trans (if_neg idle.not_lt))))
    · exact (onChip_clocked _ clocked).trans (congrArg _ (congrArg s.put ((deleteIoqOp_live entry created sound).trans (if_pos busy))))
    · exact (onChip_clocked _ clocked).trans (congrArg _ (congrArg s.put (setEventRingOp_set entry consumed sized none)))
    · exact (onChip_clocked _ clocked).trans (congrArg _ (congrArg s.put (setEventRingOp_unset entry consumed none)))
    · refine ⟨_, (onChip_clocked _ clocked).trans (congrArg _ (congrArg s.put (adminQueueEnableOp_start off noFlr asked sized base shadow))),
        s.put_pending _, ?_⟩
      rw [State.put_chip]
      refine ⟨?_, ?_, ?_, fun k other => ?_, fun k other => Chip.fn_setFn_ne _ _ other, rfl⟩
      · rw [Chip.fn_setFn_self]
        rfl
      · rw [Chip.fn_setFn_self]
        rfl
      · rw [Chip.queue, Chip.fn_setFn_self, Func.queue_setQueue_self]
      · rw [Chip.queue, Chip.fn_setFn_self, Func.queue_setQueue_ne _ _ other]
        rfl
    · refine ⟨_, (onChip_clocked _ clocked).trans (congrArg _ (congrArg s.put (adminQueueEnableOp_refused off noFlr asked bad))), ?_⟩
      rw [State.put_chip, Chip.fn_setFn_self]
      exact ⟨off, rfl⟩
    · exact (onChip_clocked _ clocked).trans (congrArg _ (congrArg s.put (adminQueueEnableOp_set set)))
  · intro y at0
    refine ⟨fun raised own target on noFlr set asked free => ?_, fun raised own target on noFlr set asked full => ?_,
      fun noFlr set sized unconsumed small none index phase => ?_, fun up => ?_⟩
    · obtain ⟨r, op⟩ := eventPostOp_one raised own target
      have posted := op.trans (Chip.deliver_posted (c := { s.chip with raised := l, evr := r }) on noFlr set asked free)
      obtain ⟨m, due, members⟩ := ({ y with evtTail := y.evtTail + 1, ring := y.ring ++ [x.ev] } : Func).due_eq y.evtVector
      have fn := ((congrArg (Chip.fn · f) posted).trans (Chip.fn_modFn_self ..)).trans due
      refine ⟨_, onChip_clocked _ clocked, s.put_pending _, ?_⟩
      rw [State.put_chip]
      refine ⟨by rw [posted]; rfl, by rw [posted]; exact List.append_assoc .., by rw [fn], by rw [fn], ?_, fun k other => ?_, by rw [posted]; rfl⟩
      · rw [fn]
        exact (members _).mpr (.inr rfl)
      · rw [posted]
        exact Chip.fn_modFn_ne _ _ other
    · obtain ⟨r, op⟩ := eventPostOp_one raised own target
      have counted := op.trans (Chip.deliver_full (c := { s.chip with raised := l, evr := r }) on noFlr set asked full)
      refine ⟨_, (onChip_clocked _ clocked).trans (congrArg _ (congrArg s.put counted)), ?_⟩
      rw [State.put_chip]
      exact ⟨rfl, rfl, Chip.fn_modFn_self ..⟩
    · exact (onChip_clocked _ clocked).trans (congrArg _ (congrArg s.put
        (wqEvtHeadOp_consume noFlr set sized unconsumed small none index phase)))
    · refine (onChip_clocked _ clocked).trans (congrArg _ (congrArg s.put ?_))
      rw [configRequestOp, up]
      rfl
  · intro x
    refine ⟨fun noFlr noArea => ?_, fun flr done => ?_⟩
    · obtain ⟨l, n, p, started, inside, outside⟩ := s.chip.startFlr_begins f
      have op : functionLevelResetOp f s.chip = s.chip.startFlr f := by
        rw [functionLevelResetOp, if_neg (by rw [show (s.chip.fn f).flr = none from noFlr]; exact Bool.noConfusion), Chip.loseHostTier]
        rw [show (s.chip.startFlr f).rma.hostArea = none by rw [started]; exact noArea]
      refine ⟨_, (onChip_clocked _ clocked).trans (congrArg _ (congrArg s.put op)), s.put_pending _, ?_⟩
      rw [State.put_chip]
      exact ⟨inside, outside, by rw [started]⟩
    · exact (onChip_clocked _ clocked).trans (congrArg _ (congrArg s.put (flrCompleteOp_over flr done)))

end Sys2Proof.Machine
end

section
/-! Settles O39: the data of a command, the checks of READ and WRITE, and their division into items (R271, R299, R334, R335, R376, R526–R528). -/

namespace Sys2Proof.Machine

/-! ## The data of a command (R271, R299, R334, R335) -/

section
variable {c : Chip} {f : Fn} {g : Grp} {ix : BitVec 16} {a : Adm} {l : List Byte} {n : Option Nat} (stands : c.adm f g ix.toNat = some a)
  (open_ : a.status = none) (fresh : a.data = none)
include stands open_ fresh

theorem hostDataFetchOp_error (x : HostErr) (asked : c.fetches (g != 0) a ≠ .nothing) :
    hostDataFetchOp f g ix (.err x) c = c.finish f g a.pos stHostAccess (hostErrCode x) := by
  unfold hostDataFetchOp
  simp only [stands]
  rw [if_neg (by simp [open_, fresh])]

theorem hostDataFetchOp_data (fetch : c.fetches (g != 0) a = .data n) (whole : eInd a.entry = false → l.length = eDlen a.entry)
    (suits : ∀ m, n = some m → l.length = m) :
    hostDataFetchOp f g ix (.ok l) c = if g = 0 then c.modAdm f g a.pos fun x => { x with data := some l } else c.writeData f g a l := by
  have length : (n.any fun m => l.length != m) = false := by
    cases n with
    | none => rfl
    | some m => simp [suits m rfl]
  unfold hostDataFetchOp
  simp only [stands, fetch, length]
  rw [if_neg (by simp [open_, fresh]), if_neg (fun short => short.2 (whole (by simpa using short.1))), if_neg Bool.false_ne_true]

theorem hostDataFetchOp_table (fetch : c.fetches (g != 0) a = .table n) (whole : l.length = 16 * eDlen a.entry) :
    hostDataFetchOp f g ix (.ok l) c = if !fragsOk l then c.finish f g a.pos stMalformed 0x28
      else if n.any fun m => (fragsOf l).foldl (fun s x => s + x.2) 0 != m then c.finish f g a.pos stMalformed 0x30
      else c.modAdm f g a.pos fun x => { x with data := some l } := by
  unfold hostDataFetchOp
  simp only [stands, fetch]
  rw [if_neg (by simp [open_, fresh]), if_neg (not_not_intro whole)]

end

/-! ## Division into items (R376–R381) -/

/-- A command whose parts all have room is divided, and its items go to their engines. -/
theorem Chip.divide_items {c d : Chip} {f g : Nat} {a : Adm} {data : Option (List Byte)} {is : List (Nat × Item)}
    (items : c.hostItems f g a (c.ioParts a.entry) data 0 (c.ioParts a.entry) = some (is, d)) : c.divide f g a data =
    is.foldl (fun c i => c.submit i.1 i.2) (d.modAdm f g a.pos fun x => { x with
      begun := true, left := is.length, data := if data.isSome then some [] else x.data }) := by
  simp only [Chip.divide, items]

section
variable {c : Chip} {f : Fn} {g : Grp} {ix : BitVec 16} {a : Adm} (io : g ≠ 0)
include io

theorem readOp_refused (entry : c.entryAt f g ix 0x80 a) {code detail : Nat} (refused : c.ioCheck f a false = some (code, detail)) :
    readOp f g ix c = c.finish f g a.pos code detail := by
  rw [readOp, if_neg io]
  refine (Chip.onEntry_entryAt entry _).trans ?_
  simp only [refused]

theorem readOp_divided (entry : c.entryAt f g ix 0x80 a) (passes : c.ioCheck f a false = none) (direct : eInd a.entry = false) :
    readOp f g ix c = c.divide f g a none := by
  rw [readOp, if_neg io]
  refine (Chip.onEntry_entryAt entry _).trans ?_
  simp only [passes]
  exact if_pos (by simp [Adm.placed, direct])

theorem writeOp_refused (entry : c.entryAt f g ix 0x81 a) {code detail : Nat} (refused : c.ioCheck f a true = some (code, detail)) :
    writeOp f g ix c = c.finish f g a.pos code detail := by
  rw [writeOp, if_neg io]
  refine (Chip.onEntry_entryAt entry _).trans ?_
  simp only [refused]

theorem writeOp_begins (entry : c.entryAt f g ix 0x81 a) (passes : c.ioCheck f a true = none) :
    writeOp f g ix c = c.modAdm f g a.pos fun x => { x with begun := true } := by
  rw [writeOp, if_neg io]
  refine (Chip.onEntry_entryAt entry _).trans ?_
  simp only [passes]

end

/-! ## The checks of READ and WRITE (R406, R456, R528, R534, R538) -/

section
variable (c : Chip) (f : Nat) (a : Adm) (w : Bool)

/-- The function has the access that the command needs (R534). -/
def Chip.mayIo : Prop := if w then c.accessOf f (eField a.entry 4 1) = 3 else c.accessOf f (eField a.entry 4 1) ≠ 0

theorem Chip.mayIo_iff : c.mayIo f a w ↔ ¬ (if w then c.accessOf f (eField a.entry 4 1) != 3 else c.accessOf f (eField a.entry 4 1) == 0) = true := by
  cases w <;> simp [Chip.mayIo]

variable {c f a w}

theorem Chip.ioCheck_denied (may : ¬ c.mayIo f a w) : c.ioCheck f a w = some (stDenied, 0) :=
  if_pos (not_not.mp (mt (c.mayIo_iff f a w).mpr may))

variable (may : c.mayIo f a w)
include may

theorem Chip.ioCheck_absent (absent : (c.vol (eField a.entry 4 1)).state = .none) : c.ioCheck f a w = some (stRange, 4) :=
  (if_neg ((c.mayIo_iff f a w).mp may)).trans (if_pos absent)

variable (made : (c.vol (eField a.entry 4 1)).state ≠ .none)
include made

theorem Chip.ioCheck_outside
    (out : ¬ (eField a.entry 8 8 + eField a.entry 0x10 4) * (c.vol (eField a.entry 4 1)).blockSize ≤ c.volBytes (eField a.entry 4 1)) :
    c.ioCheck f a w = some (stRange, 8) :=
  (if_neg ((c.mayIo_iff f a w).mp may)).trans ((if_neg made).trans (if_pos (not_le.mp out)))

variable (inRange : (eField a.entry 8 8 + eField a.entry 0x10 4) * (c.vol (eField a.entry 4 1)).blockSize ≤ c.volBytes (eField a.entry 4 1))
include inRange

theorem Chip.ioCheck_inRange : c.ioCheck f a w =
    if (!(c.vol (eField a.entry 4 1)).serves a.seq) = true ∨ (!(c.arr (c.vol (eField a.entry 4 1)).array).recovered) = true then some (stNotReady, 0)
    else if (c.arr (c.vol (eField a.entry 4 1)).array).failed then some (stState, 0)
    else if w && c.noRegion then some (stNotReady, 0) else none :=
  (if_neg ((c.mayIo_iff f a w).mp may)).trans ((if_neg made).trans (if_neg (not_lt.mpr inRange)))

theorem Chip.ioCheck_notUp
    (up : ¬ ((c.vol (eField a.entry 4 1)).serves a.seq = true ∧ (c.arr (c.vol (eField a.entry 4 1)).array).recovered = true)) :
    c.ioCheck f a w = some (stNotReady, 0) :=
  (Chip.ioCheck_inRange may made inRange).trans (if_pos (by simpa [or_iff_not_imp_left] using up))

theorem Chip.ioCheck_up (up : (c.vol (eField a.entry 4 1)).serves a.seq = true ∧ (c.arr (c.vol (eField a.entry 4 1)).array).recovered = true) :
    c.ioCheck f a w = if (c.arr (c.vol (eField a.entry 4 1)).array).failed then some (stState, 0)
      else if w && c.noRegion then some (stNotReady, 0) else none :=
  (Chip.ioCheck_inRange may made inRange).trans (if_neg (by simp [up]))

end

/-- Settles O39: the outcomes of a fetch and of the two commands, and the checks one after the other. -/
theorem hostReadsAndWrites : Obligations.HostReadsAndWrites := by
  unfold Obligations.HostReadsAndWrites
  refine ⟨fun s f g ix a l n clocked => ?_, fun c f a w => ?_⟩
  · intro c e ps
    refine ⟨fun x stands open_ fresh asked => ?_, fun admin stands open_ fresh fetch whole suits => ?_, fun stands open_ fresh fetch whole ok => ?_,
      fun stands open_ fresh fetch whole bad => ?_, fun is d io stands open_ fresh fetch whole plain items => ?_, fun is d io entry passes direct items => ?_,
      fun code detail io entry refused => ?_, fun io entry passes => ?_, fun code detail io entry refused => ?_⟩
    · exact (onChip_clocked _ clocked).trans (congrArg _ (congrArg s.put (hostDataFetchOp_error stands open_ fresh x asked)))
    · exact (onChip_clocked _ clocked).trans (congrArg _ (congrArg s.put
        ((hostDataFetchOp_data stands open_ fresh (by rw [admin]; exact fetch) whole suits).trans (if_pos admin))))
    · exact (onChip_clocked _ clocked).trans (congrArg _ (congrArg s.put
        ((hostDataFetchOp_table stands open_ fresh fetch whole).trans ((if_neg (by simp [ok])).trans (if_neg Bool.false_ne_true)))))
    · exact (onChip_clocked _ clocked).trans (congrArg _ (congrArg s.put
        ((hostDataFetchOp_table stands open_ fresh fetch whole).trans (if_pos (by simp [bad])))))
    · have isIo : (g != 0) = true := by simpa using io
      exact (onChip_clocked _ clocked).trans (congrArg _ (congrArg s.put
        ((hostDataFetchOp_data stands open_ fresh (by rw [isIo]; exact fetch) whole (fun m same => Option.some.inj same)).trans
          ((if_neg io).trans ((if_pos plain).trans (Chip.divide_items items))))))
    · exact (onChip_clocked _ clocked).trans (congrArg _ (congrArg s.put ((readOp_divided io entry passes direct).trans (Chip.divide_items items))))
    · exact (onChip_clocked _ clocked).trans (congrArg _ (congrArg s.put (readOp_refused io entry refused)))
    · exact (onChip_clocked _ clocked).trans (congrArg _ (congrArg s.put (writeOp_begins io entry passes)))
    · exact (onChip_clocked _ clocked).trans (congrArg _ (congrArg s.put (writeOp_refused io entry refused)))
  · intro v x may inRange up
    refine ⟨Chip.ioCheck_denied, Chip.ioCheck_absent, Chip.ioCheck_outside, Chip.ioCheck_notUp, fun m made r u failed => ?_,
      fun m made r u sound lands => ?_, fun m made r u sound write none => ?_, fun pf => if_pos pf⟩
    · exact (Chip.ioCheck_up m made r u).trans (if_pos failed)
    · refine (Chip.ioCheck_up m made r u).trans ((if_neg (Bool.eq_false_iff.mp sound)).trans (if_neg ?_))
      rcases lands with rfl | region
      · simp
      · simp [region]
    · exact (Chip.ioCheck_up m made r u).trans ((if_neg (Bool.eq_false_iff.mp sound)).trans (if_pos (by simp [write, none])))

end Sys2Proof.Machine
end

section
/-! Settles O40: ABORT, IDENTIFY, GET_LOG, the loader and the owner keys (R249–R257, R312–R316, R545–R553, R799). -/

namespace Sys2Proof.Machine

/-! ## ABORT, IDENTIFY, GET_LOG (R545–R553) -/

section
variable {c : Chip} {f : Fn} {ix : BitVec 16} {a t : Adm}

section
variable (entry : c.entryAt f 0 ix 0x04 a) (made : (c.queue f (eField a.entry 4 1 + 1)).created = true)
include entry

theorem abortOp_noQueue (none : (c.queue f (eField a.entry 4 1 + 1)).created = false) : abortOp f ix c = c.finish f 0 a.pos stRange 4 := by
  refine Chip.onAdmin_entryAt entry (?_ : _ = ((stRange, 4), _))
  rw [if_pos (by simp [none])]

include made

theorem abortOp_none (none : (c.queue f (eField a.entry 4 1 + 1)).target (eField a.entry 6 2) a.seq = none) : abortOp f ix c = c.done f a := by
  refine Chip.onAdmin_entryAt entry (?_ : _ = ((stOk, 0), _))
  rw [if_neg (by simp [made])]
  simp only [none]

variable (target : (c.queue f (eField a.entry 4 1 + 1)).target (eField a.entry 6 2) a.seq = some t)
include target

theorem abortOp_committed (committed : t.committed = true) : abortOp f ix c = c.done f a := by
  refine Chip.onAdmin_entryAt entry (?_ : _ = ((stOk, 0), _))
  rw [if_neg (by simp [made])]
  simp only [target]
  rw [if_pos committed]

theorem abortOp_aborted (open_ : t.committed = false) : abortOp f ix c =
    ((c.withdraw f (eField a.entry 4 1 + 1) t.pos).modAdm f (eField a.entry 4 1 + 1) t.pos fun x =>
      { x with status := some (stAborted, 0), caught := true }).finish f 0 a.pos stOk 1 := by
  refine Chip.onAdmin_entryAt entry (?_ : _ = ((stOk, 1), _))
  rw [if_neg (by simp [made])]
  simp only [target]
  rw [if_neg (by simp [open_])]

end

section
variable (entry : c.entryAt f 0 ix 0x05 a) (placed : a.placed = true)
include entry placed

theorem identifyOp_data {l : List Byte} (data : c.identify f (eField a.entry 4 1) (eField a.entry 5 1) = .ok l) :
    identifyOp f ix c = (c.toBuffer f a.buffer 0 l).done f a := by
  refine (Chip.onEntry_entryAt (g := 0) entry _).trans ?_
  simp only [placed, data]
  rfl

theorem identifyOp_refused {code detail : Nat} (refused : c.identify f (eField a.entry 4 1) (eField a.entry 5 1) = .error (code, detail)) :
    identifyOp f ix c = c.finish f 0 a.pos code detail := by
  refine (Chip.onEntry_entryAt (g := 0) entry _).trans ?_
  simp only [placed, refused]
  rfl

end

theorem Chip.identify_noMember {f id : Nat} (none : 48 ≤ id) : c.identify f 1 id = .error (stRange, 5) := if_pos none

section
variable (entry : c.entryAt f 0 ix 0x06 a)
include entry

theorem getLogOp_data {l : List Byte} (direct : eInd a.entry = false) (log : c.log (eField a.entry 4 1) (eField a.entry 5 1) = some l) :
    getLogOp f ix c = (c.toBuffer f [(eDptr a.entry, eDlen a.entry)] 0 (padTo (eDlen a.entry) (l.drop (eField a.entry 8 8)))).done f a := by
  have placed : a.placed = true := by simp [Adm.placed, direct]
  have buffer : a.buffer = [(eDptr a.entry, eDlen a.entry)] := by simp [Adm.buffer, direct]
  refine (Chip.onEntry_entryAt (g := 0) entry _).trans ?_
  simp only [placed, log, buffer, List.foldl, Nat.zero_add]
  rfl

theorem getLogOp_none (placed : a.placed = true) (none : c.log (eField a.entry 4 1) (eField a.entry 5 1) = none) :
    getLogOp f ix c = c.finish f 0 a.pos stRange 5 := by
  refine (Chip.onEntry_entryAt (g := 0) entry _).trans ?_
  simp only [placed, none]
  rfl

end

end

/-! ## A change of several engines -/

section
variable (h : Nat → Engine → Engine)

/-- The same kind of change to each engine of a list without repetition. -/
theorem Chip.eng_foldl_modEng {l : List Nat} (once : l.Nodup) (c : Chip) (x : Nat) :
    (l.foldl (fun c e => c.modEng e (h e)) c).eng x = if x ∈ l then h x (c.eng x) else c.eng x := by
  induction l generalizing c with
  | nil => rfl
  | cons e l ih =>
    obtain ⟨apart, rest⟩ := List.nodup_cons.mp once
    rw [List.foldl_cons, ih rest]
    by_cases hit : x = e
    · subst hit
      simp [apart]
    · simp [Chip.eng_modEng_ne _ _ hit, hit]

theorem Chip.foldl_modEng_engines (l : List Nat) (c : Chip) :
    l.foldl (fun c e => c.modEng e (h e)) c = { c with engines := (l.foldl (fun c e => c.modEng e (h e)) c).engines } := by
  induction l generalizing c with
  | nil => rfl
  | cons e l ih => exact ih _

end

theorem targets_nodup (kind engine : Nat) : (targets kind engine).Nodup := by
  unfold targets
  split
  · exact List.nodup_range
  · exact List.nodup_singleton _

/-! ## The loader (R251, R255, R257, R312–R314) -/

theorem passes_of_none {ok : Bool} {n : Nat} {k : Option Nat} (accepted : (if ok then k else some n) = none) : ok = true ∧ k = none := by
  cases ok
  · exact absurd accepted (Option.some_ne_none n)
  · exact ⟨rfl, accepted⟩

/-- An image that every check accepts has its windows placed on every engine it targets (check 0x0B). -/
theorem Chip.loadReason_placed {c : Chip} {slot engine hb hs : Nat} {l : List Byte} (accepted : c.loadReason slot engine hb hs l = none) :
    ∀ e ∈ targets (imgKind l) engine, (placeWins e hb hs (lmRange (imgKind l)) (winReqs l) (c.lmUsed e)).isSome = true := by
  unfold Chip.loadReason at accepted
  dsimp only at accepted
  iterate 10 replace accepted := (passes_of_none accepted).2
  exact List.all_eq_true.mp (passes_of_none accepted).1

/-- Engine `e` with the image of an accepted load in slot `k`. -/
def Engine.loaded (l : List Byte) (seq k hb hs : Nat) (params : List Nat) (e : Nat) (x : Engine) : Engine :=
  let m := imageOn l seq params ((placeWins e hb hs (lmRange (imgKind l)) (winReqs l)
    (x.slots.flatMap fun s => (s.2.cur.toList ++ s.2.old.toList).flatMap fun i =>
      (i.windows.filter fun w => w.space == 0).map fun w => (w.base, w.base + w.size))).getD [])
  { x with
    slots := tput x.slots {} k { cur := some m, old := if e < 16 then (tget x.slots {} k).cur else none }
    lm := mwrite zeros x.lm (winTable e k) (winTableBytes m.windows) }

theorem Engine.loaded_slot {c : Chip} {l : List Byte} {k hb hs e : Nat} {ws : List Window} (seq : Nat) (params : List Nat)
    (placed : placeWins e hb hs (lmRange (imgKind l)) (winReqs l) (c.lmUsed e) = some ws) :
    tget (Engine.loaded l seq k hb hs params e (c.eng e)).slots {} k =
      { cur := some (imageOn l seq params ws), old := if e < 16 then (c.slot e k).cur else none } := by
  unfold Chip.lmUsed at placed
  simp only [Engine.loaded, placed, Option.getD_some, tget_put_self]
  rfl

theorem Engine.loaded_slot_ne (l : List Byte) (seq : Nat) {k j : Nat} (hb hs : Nat) (params : List Nat) (e : Nat) (x : Engine) (other : j ≠ k) :
    tget (Engine.loaded l seq k hb hs params e x).slots {} j = tget x.slots {} j := by
  simp only [Engine.loaded, tget_put_ne _ _ _ other]

/-- Engine `e` with slot `k` cleared. -/
def Engine.unloaded (k e : Nat) (x : Engine) : Engine :=
  { x with slots := tput x.slots {} k {}, lm := mwrite zeros x.lm (winTable e k) (List.replicate 64 0) }

theorem Engine.unloaded_slot (k e : Nat) (x : Engine) : tget (Engine.unloaded k e x).slots {} k = {} := by
  simp only [Engine.unloaded, tget_put_self]

theorem Engine.unloaded_slot_ne {k j : Nat} (e : Nat) (x : Engine) (other : j ≠ k) : tget (Engine.unloaded k e x).slots {} j = tget x.slots {} j := by
  simp only [Engine.unloaded, tget_put_ne _ _ _ other]

section
variable {c : Chip} {f : Fn} {ix : BitVec 16} {a : Adm} {l : List Byte}

theorem progLoadOp_rejected {r : Nat} (entry : c.entryAt f 0 ix 0x30 a) (data : a.data = some l)
    (rejected : c.loadReason (eField a.entry 4 1) (eField a.entry 5 1) (eField a.entry 0x34 2) (eField a.entry 0x36 2) l = some r) :
    progLoadOp f ix c = c.finish f 0 a.pos stLoadRejected r := by
  refine (Chip.onEntry_entryAt (g := 0) entry _).trans ?_
  simp only [data, rejected]

theorem progLoadOp_accepted (entry : c.entryAt f 0 ix 0x30 a) (data : a.data = some l)
    (accepted : c.loadReason (eField a.entry 4 1) (eField a.entry 5 1) (eField a.entry 0x34 2) (eField a.entry 0x36 2) l = none) :
    progLoadOp f ix c = (((targets (imgKind l) (eField a.entry 5 1)).foldl (fun c e => c.modEng e (Engine.loaded l a.seq (eField a.entry 4 1)
      (eField a.entry 0x34 2) (eField a.entry 0x36 2) [eField a.entry 8 8, eField a.entry 0x10 8, eField a.entry 0x18 8, eField a.entry 0x20 8] e)) c).extend 5
        (sm3 l)).finish f 0 a.pos stOk 0 := by
  refine (Chip.onEntry_entryAt (g := 0) entry _).trans ?_
  simp only [data, accepted]
  rfl

theorem progUnloadOp_named (entry : c.entryAt f 0 ix 0x31 a)
    (valid : eField a.entry 5 1 = 0xFF ∧ eField a.entry 4 1 < 8 ∨ eField a.entry 5 1 < 4 ∧ eField a.entry 4 1 < 2)
    (named : c.slotNamed (eField a.entry 5 1) (eField a.entry 4 1) = true) : progUnloadOp f ix c = c.finish f 0 a.pos stQueueBusy 0 := by
  refine Chip.onAdmin_entryAt entry (?_ : _ = ((stQueueBusy, 0), _))
  rw [if_neg, if_neg, if_pos named]
  · rcases valid with ⟨all, small⟩ | ⟨own, small⟩
    · rw [if_pos all]
      omega
    · rw [if_neg (by omega)]
      omega
  · rcases valid with ⟨all, -⟩ | ⟨own, -⟩
    · simp [all]
    · simp [own]

theorem progUnloadOp_clears (entry : c.entryAt f 0 ix 0x31 a)
    (valid : eField a.entry 5 1 = 0xFF ∧ eField a.entry 4 1 < 8 ∨ eField a.entry 5 1 < 4 ∧ eField a.entry 4 1 < 2)
    (unnamed : c.slotNamed (eField a.entry 5 1) (eField a.entry 4 1) = false) : progUnloadOp f ix c =
      ((targets (if eField a.entry 5 1 = 0xFF then 0 else 1) (eField a.entry 5 1)).foldl
        (fun c e => c.modEng e (Engine.unloaded (eField a.entry 4 1) e)) (c.extendFree 5)).finish f 0 a.pos stOk 0 := by
  refine Chip.onAdmin_entryAt entry (?_ : _ = ((stOk, 0), _))
  rw [if_neg, if_neg, if_neg (by simp [unnamed])]
  · rfl
  · rcases valid with ⟨all, small⟩ | ⟨own, small⟩
    · rw [if_pos all]
      omega
    · rw [if_neg (by omega)]
      omega
  · rcases valid with ⟨all, -⟩ | ⟨own, -⟩
    · simp [all]
    · simp [own]

end

/-- An extend with free bytes touches the measurements and the counter of free values alone. -/
theorem Chip.extendFree_eq (c : Chip) (i : Nat) : ∃ m n, c.extendFree i = { c with sec := { c.sec with meas := m }, free := n } := ⟨_, _, rfl⟩

theorem oldImageRetireOp_free {c : Chip} {e : Se} {k : Fin 8} {m o : Image} (cur : (c.slot e k.val).cur = some m) (old : (c.slot e k.val).old = some o)
    (later : ∀ x ∈ (c.eng e).items, x.slot = k.val → timeDiff m.loadSeq x.seq ≤ 0)
    (run : ∀ r, (c.eng e).run = some r → r.slot = k.val → r.image = m) :
    oldImageRetireOp e k c = c.setEng e { c.eng e with slots := tput (c.eng e).slots {} k.val { cur := some m, old := none } } := by
  have noItem : ((c.eng e).items.any fun x => x.slot == k.val && decide (0 < timeDiff m.loadSeq x.seq)) = false := by
    refine List.any_eq_false.mpr fun x hit older => ?_
    obtain ⟨same, before⟩ := Bool.and_eq_true_iff.mp older
    exact absurd (later x hit (by simpa using same)) (by simpa using before)
  have noRun : ((c.eng e).run.any fun r => r.slot == k.val && decide (r.image ≠ m)) = false := by
    cases runs : (c.eng e).run with
    | none => rfl
    | some r => simpa using run r runs
  unfold oldImageRetireOp
  simp only [cur, old, noItem, noRun]
  rfl

/-! ## Owner keys (R249, R250, R315, R316) -/

theorem find_tinsert_self {α : Type} {t : Tab α} {k : Nat} (v : α) (absent : t.find? (fun x => x.1 == k) = none) :
    (tinsert t k v).find? (fun x => x.1 == k) = some (k, v) := by
  induction t with
  | nil => simp [tinsert]
  | cons p r ih =>
    have other : (p.1 == k) = false := by simpa using List.find?_eq_none.mp absent p (List.mem_cons_self ..)
    rw [List.find?_cons_of_neg (by simp [other])] at absent
    unfold tinsert
    split
    · simp
    · rw [List.find?_cons_of_neg (by simp [other])]
      exact ih absent

theorem find_tinsert_ne {α : Type} (t : Tab α) {k j : Nat} (v : α) (other : j ≠ k) :
    (tinsert t k v).find? (fun x => x.1 == j) = t.find? (fun x => x.1 == j) := by
  induction t with
  | nil => simp [tinsert, other.symm]
  | cons p r ih =>
    unfold tinsert
    split
    · rw [List.find?_cons_of_neg (by simpa using other.symm)]
    · rw [List.find?_cons, List.find?_cons, ih]

section
variable {c : Chip} {f : Fn} {ix : BitVec 16} {a : Adm} {l d : List Byte} (owner : 0 < eField a.entry 4 1) (slot : eField a.entry 4 1 < 4)
include owner slot

theorem ownerKeySetOp_set (entry : c.entryAt f 0 ix 0x32 a) (data : a.data = some l) (free : c.keyDigest (eField a.entry 4 1) = none) :
    ownerKeySetOp f ix c =
      (({ c with sec := { c.sec with keys := tinsert c.sec.keys (eField a.entry 4 1) (sm3 l) } } : Chip).extendFree 4).finish f 0 a.pos stOk 0 := by
  refine (Chip.onEntry_entryAt (g := 0) entry _).trans ?_
  simp only [data]
  rw [if_neg (by omega), if_neg (by simp [free])]

theorem ownerKeySetOp_full (entry : c.entryAt f 0 ix 0x32 a) (data : a.data = some l) (full : c.keyDigest (eField a.entry 4 1) = some d) :
    ownerKeySetOp f ix c = c.finish f 0 a.pos stState 1 := by
  refine (Chip.onEntry_entryAt (g := 0) entry _).trans ?_
  simp only [data]
  rw [if_neg (by omega), if_pos (by simp [full])]

variable (entry : c.entryAt f 0 ix 0x33 a) (full : c.keyDigest (eField a.entry 4 1) = some d)
include entry full

theorem ownerKeyRevokeOp_revokes (valid : tget c.sec.revoked false (eField a.entry 4 1) = false) (confirm : d.take 4 = leBytes 4 (eField a.entry 8 4)) :
    ownerKeyRevokeOp f ix c = (({ c with sec := { c.sec with revoked := tput c.sec.revoked false (eField a.entry 4 1) true } } : Chip).extendFree 4).finish
      f 0 a.pos stOk 0 := by
  refine Chip.onAdmin_entryAt entry (?_ : _ = ((stOk, 0), _))
  rw [if_neg (by omega)]
  simp only [full]
  rw [if_neg (by simp [valid]), if_neg (not_not_intro confirm)]

theorem ownerKeyRevokeOp_revoked (revoked : tget c.sec.revoked false (eField a.entry 4 1) = true) :
    ownerKeyRevokeOp f ix c = c.finish f 0 a.pos stState 2 := by
  refine Chip.onAdmin_entryAt entry (?_ : _ = ((stState, 2), _))
  rw [if_neg (by omega)]
  simp only [full]
  rw [if_pos revoked]

end

/-- Settles O40: each command by its own equation. -/
theorem adminAndLoader : Obligations.AdminAndLoader := by
  unfold Obligations.AdminAndLoader
  refine ⟨fun s f ix a t l clocked => ?_, fun s f ix a l e k clocked => ?_, fun s f ix a l d clocked => ?_⟩
  · intro c e g
    refine ⟨fun entry made none => ?_, fun entry made target committed => ?_, fun entry made target open_ => ?_, fun entry none => ?_,
      fun entry placed data => ?_, fun entry placed member none => ?_, fun entry direct log => ?_, fun entry placed none => ?_⟩
    · exact (onChip_clocked _ clocked).trans (congrArg _ (congrArg s.put (abortOp_none entry made none)))
    · exact (onChip_clocked _ clocked).trans (congrArg _ (congrArg s.put (abortOp_committed entry made target committed)))
    · exact (onChip_clocked _ clocked).trans (congrArg _ (congrArg s.put (abortOp_aborted entry made target open_)))
    · exact (onChip_clocked _ clocked).trans (congrArg _ (congrArg s.put (abortOp_noQueue entry none)))
    · exact (onChip_clocked _ clocked).trans (congrArg _ (congrArg s.put (identifyOp_data entry placed data)))
    · exact (onChip_clocked _ clocked).trans (congrArg _ (congrArg s.put
        (identifyOp_refused entry placed ((congrArg (c.identify f · _) member).trans (Chip.identify_noMember none)))))
    · exact (onChip_clocked _ clocked).trans (congrArg _ (congrArg s.put (getLogOp_data entry direct log)))
    · exact (onChip_clocked _ clocked).trans (congrArg _ (congrArg s.put (getLogOp_none entry placed none)))
  · intro c n slot engine
    refine ⟨fun r entry data rejected => ?_, fun entry data accepted => ?_, fun entry valid unnamed => ?_, fun entry valid named => ?_,
      fun m o cur old later run => ?_⟩
    · exact (onChip_clocked _ clocked).trans (congrArg _ (congrArg s.put (progLoadOp_rejected entry data rejected)))
    · refine ⟨_, (onChip_clocked _ clocked).trans (congrArg _ (congrArg s.put (progLoadOp_accepted entry data accepted))), s.put_pending _, ?_⟩
      rw [State.put_chip]
      have eng := Chip.eng_foldl_modEng (Engine.loaded l a.seq slot (eField n 0x34 2) (eField n 0x36 2)
        [eField n 8 8, eField n 0x10 8, eField n 0x18 8, eField n 0x20 8]) (targets_nodup (imgKind l) engine) c
      have frame := Chip.foldl_modEng_engines (Engine.loaded l a.seq slot (eField n 0x34 2) (eField n 0x36 2)
        [eField n 8 8, eField n 0x10 8, eField n 0x18 8, eField n 0x20 8]) (targets (imgKind l) engine) c
      refine ⟨fun x hit => ?_, fun x miss => (eng x).trans (if_neg miss), ?_, ?_⟩
      · obtain ⟨ws, placed⟩ := Option.isSome_iff_exists.mp (Chip.loadReason_placed accepted x hit)
        have slots (j : Nat) := congrArg (tget ·.slots {} j) ((eng x).trans (if_pos hit))
        exact ⟨ws, placed, (slots slot).trans (Engine.loaded_slot _ _ placed),
          fun j other => (slots j).trans (Engine.loaded_slot_ne _ _ _ _ _ _ _ other)⟩
      · refine (tget_put_self ..).trans ?_
        rw [frame]
        rfl
      · rw [frame]
        rfl
    · refine ⟨_, (onChip_clocked _ clocked).trans (congrArg _ (congrArg s.put (progUnloadOp_clears entry valid unnamed))), s.put_pending _, ?_⟩
      rw [State.put_chip]
      have eng := Chip.eng_foldl_modEng (Engine.unloaded slot) (targets_nodup (if engine = 0xFF then 0 else 1) engine) (c.extendFree 5)
      have frame := Chip.foldl_modEng_engines (Engine.unloaded slot) (targets (if engine = 0xFF then 0 else 1) engine) (c.extendFree 5)
      refine ⟨fun x hit => ?_, fun x miss => (eng x).trans (if_neg miss), ?_⟩
      · have slots (j : Nat) := congrArg (tget ·.slots {} j) ((eng x).trans (if_pos hit))
        exact ⟨(slots slot).trans (Engine.unloaded_slot ..), fun j other => (slots j).trans (Engine.unloaded_slot_ne _ _ other)⟩
      · rw [frame]
        rfl
    · exact (onChip_clocked _ clocked).trans (congrArg _ (congrArg s.put (progUnloadOp_named entry valid named)))
    · exact (onChip_clocked _ clocked).trans (congrArg _ (congrArg s.put (oldImageRetireOp_free cur old later run)))
  · intro c k
    refine ⟨fun entry data owner slot free => ?_, fun entry data owner slot full => ?_, fun entry owner slot full valid confirm => ?_,
      fun entry owner slot full revoked => ?_⟩
    · refine ⟨_, (onChip_clocked _ clocked).trans (congrArg _ (congrArg s.put (ownerKeySetOp_set owner slot entry data free))), s.put_pending _, ?_⟩
      rw [State.put_chip]
      have absent : c.sec.keys.find? (fun x => x.1 == k) = none := by
        rw [Chip.keyDigest, if_neg owner.ne'] at free
        exact Option.map_eq_none_iff.mp free
      refine ⟨?_, fun j other => ?_, rfl, rfl⟩
      · exact (if_neg owner.ne').trans (congrArg (Option.map (·.2)) (find_tinsert_self (sm3 l) absent))
      · exact congrArg (fun x => if j = 0 then some c.sec.key0 else x.map (·.2)) (find_tinsert_ne c.sec.keys (sm3 l) other)
    · exact (onChip_clocked _ clocked).trans (congrArg _ (congrArg s.put (ownerKeySetOp_full owner slot entry data full)))
    · refine ⟨_, (onChip_clocked _ clocked).trans (congrArg _ (congrArg s.put (ownerKeyRevokeOp_revokes owner slot entry full valid confirm))),
        s.put_pending _, ?_⟩
      rw [State.put_chip]
      exact ⟨tget_put_self c.sec.revoked false true k, rfl, fun j other => tget_put_ne c.sec.revoked false true other, rfl⟩
    · exact (onChip_clocked _ clocked).trans (congrArg _ (congrArg s.put (ownerKeyRevokeOp_revoked owner slot entry full revoked)))

end Sys2Proof.Machine
end

section
/-! Settles O41: member states, member events and member commands (R387–R389, R529, R541, R555–R569). -/

namespace Sys2Proof.Machine

/-! ## What a change of member state is (R559) -/

/-- `t` is `c` with member `m` in state `next`, and the event that says so at one place of the admission order. -/
def Chip.MemberTold (c : Chip) (m : Nat) (next : MbrState) (reason : Nat) (t : Chip) : Prop :=
  ∃ n p pools b v, v.ev = { type := 3, info := m + 2 ^ 8 * next.code, data := reason, seq := c.takeSeq.1 } ∧
    t = { c.modMbr m (fun x => { x with state := next }) with admNext := n, par := p, pools := pools, blocks := b, raised := c.raised ++ [v] }

/-- A change that leaves the member's position alone, to a state other than FAILED. -/
theorem Chip.memberState_told {c : Chip} {m : Nat} {next : MbrState} (reason : Nat) (sound : next ≠ .failed)
    (keeps : (c.mbr m).attached = false ∨ next = .bound ∨ next = .retiring ∨ next = .retired ∨ next = .ready) :
    c.MemberTold m next reason (c.memberState m next reason) := by
  obtain ⟨n, p, -, taken⟩ := c.takeSeq_placed
  have stays : ¬ ((c.mbr m).attached = true ∧ next ≠ .bound ∧ next ≠ .retiring ∧ next ≠ .retired ∧ next ≠ .ready) := by
    rintro ⟨attached, bound, retiring, retired, ready⟩
    simp [attached, bound, retiring, retired, ready] at keeps
  have clear : (next == .failed) = false := by simpa using sound
  have op : c.memberState m next reason = ((c.takeSeq.2.modMbr m fun x => { x with state := next }).raise
      { type := 3, info := m + 2 ^ 8 * next.code, data := reason, seq := c.takeSeq.1 }).setLevel (recMbr m) 3 false := by
    simp only [Chip.memberState, if_neg stays, clear]
  rw [taken, Chip.setLevel_off] at op
  exact ⟨n, p, _, _, { ev := { type := 3, info := m + 2 ^ 8 * next.code, data := reason, seq := c.takeSeq.1 }, targets := _ }, rfl, op⟩

section
variable {c t : Chip} {m : Nat} {next : MbrState} {reason : Nat} (told : c.MemberTold m next reason t)
include told

theorem Chip.MemberTold.mbr : t.mbr m = { c.mbr m with state := next } := by
  obtain ⟨_, _, _, _, _, _, rfl⟩ := told
  exact c.mbr_modMbr_self m fun x => { x with state := next }

theorem Chip.MemberTold.mbr_ne {k : Nat} (other : k ≠ m) : t.mbr k = c.mbr k := by
  obtain ⟨_, _, _, _, _, _, rfl⟩ := told
  exact c.mbr_modMbr_ne (fun x => { x with state := next }) other

theorem Chip.MemberTold.arr (a : Nat) : t.arr a = c.arr a := by
  obtain ⟨_, _, _, _, _, _, rfl⟩ := told
  rfl

end

/-! ## Failures, links, sanitise (R541, R558, R559, R562) -/

theorem Chip.failMember_may {c : Chip} {m : Nat} (may : (c.mbr m).state.mayFail = true) (reason : Nat) :
    c.failMember m reason = (c.setMbr m { c.mbr m with waits := false }).memberState m .failed reason := if_pos may

theorem memberLinkUpOp_trains {c : Chip} {m : Mbr} (rate : BitVec 4) (width : BitVec 3) (clocked : c.clocked = true) (absent : (c.mbr m).state = .absent)
    (lane : c.noLane m = false) (trained : m.val / 4 ∈ c.pwr.groupsTrained) :
    memberLinkUpOp m rate width c = (c.setMbr m { c.mbr m with rate := rate.toNat, width := width.toNat }).memberState m .attaching 1 :=
  if_neg (by simp [absent, lane, clocked, trained])

theorem Chip.dropMember_free {c : Chip} {m : Nat} (reason : Nat) (free : (c.mbr m).attached = false) :
    (c.dropMember m reason).mbr m =
      { c.mbr m with state := .absent, rate := 0, width := 0, resv := false, preempting := false, auth := 0, alg := 0, position := none, waits := false } ∧
      ∀ k, k ≠ m → (c.dropMember m reason).mbr k = c.mbr k := by
  have told := c.memberState_told (next := .absent) reason (by decide) (.inl free)
  unfold Chip.dropMember
  exact ⟨by rw [Chip.mbr_modMbr_self, told.mbr], fun k other => by rw [Chip.mbr_modMbr_ne _ _ other, told.mbr_ne other]⟩

theorem Chip.mbr_progressEvent (c : Chip) (id : Nat) (member : Bool) (what data seq k : Nat) : (c.progressEvent id member what data seq).mbr k = c.mbr k := rfl

theorem memberSanitizeDoneOp_done {c : Chip} {m : Mbr} (runs : (c.mbr m).state = .sanitizing) :
    (memberSanitizeDoneOp m c).mbr m = { c.mbr m with state := .ready, media := [], bad := [] } ∧ ∀ k, k ≠ m.val → (memberSanitizeDoneOp m c).mbr k = c.mbr k := by
  have told := (c.modMbr m fun x => { x with media := [], bad := [] }).memberState_told (m := m) (next := .ready) 8 (by decide) (by simp)
  have op : memberSanitizeDoneOp m c = ((c.modMbr m fun x => { x with media := [], bad := [] }).memberState m .ready 8).progressEvent m true 2 1000
      (c.modMbr m fun x => { x with media := [], bad := [] }).nextPlace := by
    rw [memberSanitizeDoneOp, if_neg (not_not_intro runs)]
  rw [op]
  simp only [Chip.mbr_progressEvent]
  exact ⟨told.mbr.trans (by rw [Chip.mbr_modMbr_self]), fun k other => (told.mbr_ne other).trans (Chip.mbr_modMbr_ne _ _ other)⟩

/-! ## Attach and SMART (R555–R557, R563–R566) -/

/-- What an attach keeps of a drive. -/
def Chip.identified (c : Chip) (m : Nat) (i : AttachInfo) : Member :=
  { c.mbr m with
    auth := c.authOf m i, alg := if decide (c.authOf m i = 1 ∨ c.authOf m i = 2) then i.alg.toNat else 0, nguid := i.nguid.toNat, capacity := i.capacity,
    lba := i.lba, serial := i.serial, model := i.model, fwRev := i.fwRev,
    cert := if decide (c.authOf m i = 1 ∨ c.authOf m i = 2) then i.certDigest.toNat else 0, fua := i.wcFixed }

/-- The chip once an attach has kept what the drive says of itself. -/
def Chip.attachedKept (c : Chip) (m : Nat) (i : AttachInfo) : Chip :=
  ({ c with age := { c.age with wearSent := terase c.age.wearSent m } } : Chip).setMbr m (c.identified m i)

section
variable {c : Chip} {m : Mbr} {i : AttachInfo} (attaching : (c.mbr m).state = .attaching) (fresh : (c.mbr m).waits = false)
include attaching fresh

theorem memberAttachOp_eq : memberAttachOp m i c =
    if !i.checksOk then ((c.attachedKept m i).memberState m .refused 3).allAttached
    else if c.eff (recMbr m) 0x100 0 = 2 ∧ c.authOf m i ≠ 1 then ((c.attachedKept m i).memberState m .refused 9).allAttached
    else if bitAt i.critWarn.toNat 2 ∨ bitAt i.critWarn.toNat 3 then
      ((((c.attachedKept m i).modMbr m fun x => { x with registered := true, resv := c.par.role == .active || c.par.role == .alone }).wearRead m i.pctUsed.toNat
        i.critWarn.toNat).failMember m 6).allAttached
    else ((((((c.attachedKept m i).modMbr m fun x => { x with registered := true, resv := c.par.role == .active || c.par.role == .alone }).wearRead m
      i.pctUsed.toNat i.critWarn.toNat).otherNamespace m).completeAttach m).trackSanitize m i.sanitizing).allAttached := by
  unfold memberAttachOp
  rw [if_neg (by simp [attaching, fresh])]
  rfl

end

theorem smartPollOp_kept {c : Chip} {m : Mbr} {pct crit : BitVec 8} (log : List Byte) (polled : (c.mbr m).state.polled = true)
    (reliable : bitAt crit.toNat 2 = false) (writable : bitAt crit.toNat 3 = false) :
    smartPollOp m pct crit log c = (c.setMbr m { c.mbr m with smart := log.take 512 }).wearRead m pct.toNat crit.toNat := by
  unfold smartPollOp
  rw [if_neg (by simp [polled]), if_neg (by simp [reliable, writable])]
  rfl

/-! ## The commands of an engine on a member (R387–R389) -/

theorem memberCommandCompleteOp_eq {c : Chip} {m : Mbr} (e : Se) (k : MemberCmd) (r : MemberResult) (clocked : c.clocked = true)
    (attached : (c.mbr m).attached = true) : memberCommandCompleteOp m e k r c = match r with
      | .ok => c.pulse (0x60 + e)
      | .mediaError =>
        let d := (c.pulse (0x60 + e)).modMbr m fun x =>
          { x with mediaErr := satAdd 16 x.mediaErr 1, bad := if k.isWrite then x.bad else x.bad ++ [(k.off, k.len)] }
        if k.isWrite then d else (d.chunksAt m k.off k.len).foldl (fun c x => c.wantRepair (c.mbr m).array x.1 x.2.1 x.2.2) d
      | .reservationConflict =>
        if k.proof ∨ !k.isWrite then c.pulse (0x60 + e)
        else (if c.serving then (c.pulse (0x60 + e)).yieldToken .fenced 9 false else c.pulse (0x60 + e)).setCause 83 6 := by
  unfold memberCommandCompleteOp
  rw [if_neg (by simp [attached, clocked])]
  cases r <;> rfl

theorem memberCommandCompleteOp_mediaError {c : Chip} {m : Mbr} (e : Se) {k : MemberCmd} (clocked : c.clocked = true)
    (attached : (c.mbr m).attached = true) (write : k.isWrite = true) :
    memberCommandCompleteOp m e k .mediaError c = (c.pulse (0x60 + e)).setMbr m { c.mbr m with mediaErr := satAdd 16 (c.mbr m).mediaErr 1 } := by
  rw [memberCommandCompleteOp_eq e k .mediaError clocked attached]
  dsimp only
  rw [if_pos write, write]
  rfl

theorem memberCommandCompleteOp_conflict {c : Chip} {m : Mbr} (e : Se) {k : MemberCmd} (clocked : c.clocked = true)
    (attached : (c.mbr m).attached = true) (write : k.isWrite = true) (plain : k.proof = false) (idle : c.serving = false) :
    memberCommandCompleteOp m e k .reservationConflict c = (c.pulse (0x60 + e)).setCause 83 6 := by
  rw [memberCommandCompleteOp_eq e k .reservationConflict clocked attached]
  dsimp only
  rw [if_neg (by simp [plain, write]), idle]
  rfl

/-! ## Writes to members -/

/-- `d` differs from `c` in what stands on the members' media alone. -/
def Chip.MediaOnly (c d : Chip) : Prop :=
  (∃ l, d = { c with members := l }) ∧ ∀ k, ∃ x y z, d.mbr k = { c.mbr k with media := x, bad := y, written := z }

theorem Chip.MediaOnly.refl (c : Chip) : c.MediaOnly c := ⟨⟨_, rfl⟩, fun _ => ⟨_, _, _, rfl⟩⟩

theorem Chip.MediaOnly.trans {c d e : Chip} (first : c.MediaOnly d) (second : d.MediaOnly e) : c.MediaOnly e := by
  obtain ⟨⟨l, rfl⟩, first⟩ := first
  obtain ⟨⟨k, rfl⟩, second⟩ := second
  refine ⟨⟨k, rfl⟩, fun n => ?_⟩
  obtain ⟨_, _, _, was⟩ := first n
  obtain ⟨x, y, z, now⟩ := second n
  exact ⟨x, y, z, now.trans (by rw [was])⟩

theorem Chip.MediaOnly.arr {c d : Chip} (media : c.MediaOnly d) (a : Nat) : d.arr a = c.arr a := by
  obtain ⟨⟨l, rfl⟩, -⟩ := media
  rfl

/-- A change of a member that writes its media. -/
def Member.Writes (f : Member → Member) : Prop := ∀ x : Member, ∃ a b n, f x = { x with media := a, bad := b, written := n }

theorem Member.writes_put (off : Nat) (l : List Byte) : Member.Writes fun x => x.put off l := fun _ => ⟨_, _, _, rfl⟩

theorem Member.writes_zero (off n : Nat) : Member.Writes fun x => x.zero off n := fun _ => ⟨_, _, _, rfl⟩

theorem Member.Writes.comp {f g : Member → Member} (hg : Member.Writes g) (hf : Member.Writes f) : Member.Writes fun x => g (f x) := by
  intro x
  obtain ⟨_, _, _, was⟩ := hf x
  obtain ⟨a, b, n, now⟩ := hg (f x)
  exact ⟨a, b, n, now.trans (by rw [was])⟩

theorem Member.Writes.foldl {α : Type} {f : Member → α → Member} (hf : ∀ v, Member.Writes (f · v)) (l : List α) : Member.Writes (l.foldl f ·) := by
  induction l with
  | nil => exact fun _ => ⟨_, _, _, rfl⟩
  | cons v l ih => exact ih.comp (hf v)

theorem Chip.modMbr_media (c : Chip) (m : Nat) {f : Member → Member} (writes : Member.Writes f) : c.MediaOnly (c.modMbr m f) := by
  refine ⟨⟨_, rfl⟩, fun k => ?_⟩
  by_cases same : k = m
  · subst same
    rw [Chip.mbr_modMbr_self]
    exact writes _
  · rw [Chip.mbr_modMbr_ne _ _ same]
    exact ⟨_, _, _, rfl⟩

theorem Chip.foldl_media {α : Type} {g : Chip → α → Chip} (step : ∀ (c : Chip) (v : α), c.MediaOnly (g c v)) (l : List α) (c : Chip) : c.MediaOnly (l.foldl g c) := by
  induction l generalizing c with
  | nil => exact .refl c
  | cons v l ih => exact (step c v).trans (ih _)

theorem Chip.posPut_media (c : Chip) (a y : Nat) {f : Member → Member} (writes : Member.Writes f) : c.MediaOnly (c.posPut a y f) := by
  have second (d : Chip) : d.MediaOnly (match (d.arr a).retire with | some t => if t.pos = y then d.modMbr t.repl f else d | none => d) := by
    split
    · split
      · exact d.modMbr_media _ writes
      · exact .refl d
    · exact .refl d
  unfold Chip.posPut
  cases c.memberAt a y with
  | none => exact second c
  | some m => exact (c.modMbr_media m writes).trans (second _)

theorem Chip.everyMember_media (c : Chip) (a off : Nat) (l : Nat → List Byte) : c.MediaOnly (c.everyMember a off l) :=
  Chip.foldl_media (fun c y => c.posPut_media a y (Member.writes_put off (l y))) _ c

theorem Chip.mbr_modArr (c : Chip) (a : Nat) (f : RaidArray → RaidArray) (k : Nat) : (c.modArr a f).mbr k = c.mbr k := rfl

theorem Chip.arr_modMbr (c : Chip) (m : Nat) (f : Member → Member) (a : Nat) : (c.modMbr m f).arr a = c.arr a := rfl

/-- A superblock update counts a generation, and writes media. -/
theorem Chip.superUpdate_media (c : Chip) (a : Nat) : (c.modArr a fun r => { r with gen := r.gen + 1 }).MediaOnly (c.superUpdate a) :=
  (Chip.everyMember_media _ a 0 _).trans (Chip.everyMember_media _ a 0x100000 _)

theorem Chip.seedMember_media (c : Chip) (a y m : Nat) : c.MediaOnly (c.seedMember a y m) := by
  have vols (l : List (Nat × Volume)) : Member.Writes fun x : Member =>
      l.foldl (fun x v => (x.put (0x404000 + 64 * v.1) (v.2.record v.1)).put (0x408000 + 64 * v.1) (v.2.record v.1)) x :=
    Member.Writes.foldl (fun v => (Member.writes_put _ _).comp (Member.writes_put _ _)) l
  exact c.modMbr_media m <| (Member.writes_put _ _).comp ((Member.writes_put _ _).comp ((Member.writes_put _ _).comp ((vols _).comp
    ((Member.writes_zero _ _).comp ((Member.writes_zero _ _).comp ((Member.writes_put _ _).comp ((Member.writes_put _ _).comp (Member.writes_zero _ _))))))))

/-! ## Retirement (R568, R569) -/

/-- The end of a retirement copy: the replacement takes the position, and the old member is RETIRED. -/
theorem retirementCopyDoneOp_done {c : Chip} {a : Arr} {y : Fin 48} {t : Retire} (retire : (c.arr a).retire = some t) (place : t.pos = y.val)
    (copied : (c.arr a).rows ≤ t.row) (attached : (c.mbr t.repl).attached = true) (two : t.old ≠ t.repl) :
    let d := retirementCopyDoneOp a y c
    (d.arr a).retire = none ∧ (d.arr a).pos = (c.arr a).pos.modify y.val (fun p => { p with member := some t.repl, id := (c.mbr t.repl).nguid }) ∧
      (d.mbr t.repl).position = some y.val ∧ (d.mbr t.repl).array = a.val ∧ (d.mbr t.old).state = .retired ∧ (d.mbr t.old).position = none := by
  intro d
  obtain ⟨e, he⟩ : ∃ e, e = (c.modArr a fun r => { r with
      retire := none, pos := r.pos.modify y.val fun p => { p with member := some t.repl, id := (c.mbr t.repl).nguid } }).modMbr t.repl
        fun x => { x with array := a.val, position := some y.val } := ⟨_, rfl⟩
  have op : d = (((e.seedMember a y t.repl).superUpdate a).modMbr t.old fun x => { x with position := none }).memberState t.old .retired 7 := by
    subst he
    simp only [d, retirementCopyDoneOp, retire]
    rw [if_neg (by simp [place, attached, copied])]
  have seeds := e.seedMember_media a y t.repl
  have updates := (e.seedMember a y t.repl).superUpdate_media a
  have told := (((e.seedMember a y t.repl).superUpdate a).modMbr t.old fun x => { x with position := none }).memberState_told (m := t.old) (next := .retired) 7
    (by decide) (by simp)
  have arr : d.arr a = { e.arr a with gen := (e.arr a).gen + 1 } := by
    rw [op, told.arr, Chip.arr_modMbr, updates.arr, Chip.arr_modArr_self, seeds.arr]
  have repl : ∃ x y z, d.mbr t.repl = { e.mbr t.repl with media := x, bad := y, written := z } := by
    obtain ⟨_, _, _, was⟩ := seeds.2 t.repl
    obtain ⟨x, y, z, now⟩ := updates.2 t.repl
    rw [Chip.mbr_modArr, was] at now
    rw [op, told.mbr_ne two.symm, Chip.mbr_modMbr_ne _ _ two.symm]
    exact ⟨x, y, z, now⟩
  have old : (d.mbr t.old).state = .retired ∧ (d.mbr t.old).position = none := by
    rw [op, told.mbr, Chip.mbr_modMbr_self]
    exact ⟨rfl, rfl⟩
  obtain ⟨_, _, _, repl⟩ := repl
  have placed : e.mbr t.repl = { c.mbr t.repl with array := a.val, position := some y.val } := by
    rw [he]
    exact Chip.mbr_modMbr_self ..
  have given : e.arr a = { c.arr a with
      retire := none, pos := (c.arr a).pos.modify y.val fun p => { p with member := some t.repl, id := (c.mbr t.repl).nguid } } := by
    rw [he, Chip.arr_modMbr, Chip.arr_modArr_self]
  rw [arr, given, repl, placed]
  exact ⟨rfl, rfl, rfl, rfl, old⟩

/-! ## Commands (R529, R559, R564, R568) -/

section
variable {c : Chip} {f : Fn} {ix : BitVec 16} {a : Adm}

theorem memberTrustOp_clears (entry : c.entryAt f 0 ix 0x15 a) (slot : eField a.entry 4 1 < 8) (direct : eInd a.entry = false) (none : eDlen a.entry = 0) :
    memberTrustOp f ix c = Chip.done { c with trust := terase c.trust (eField a.entry 4 1) } f a := by
  refine (Chip.onEntry_entryAt (g := 0) entry _).trans ?_
  rw [if_neg (by omega), if_pos (by simp [direct, none])]
  rfl

theorem memberTrustOp_takes {l : List Byte} (entry : c.entryAt f 0 ix 0x15 a) (slot : eField a.entry 4 1 < 8) (some_ : eDlen a.entry ≠ 0)
    (data : a.data = some l) : memberTrustOp f ix c = Chip.done { c with trust := tput c.trust 0 (eField a.entry 4 1) (ofLe l + 1) } f a := by
  refine (Chip.onEntry_entryAt (g := 0) entry _).trans ?_
  rw [if_neg (by omega), if_neg (fun none => some_ none.2)]
  simp only [data]
  rfl

theorem retireMemberOp_begins {old : Nat} (entry : c.entryAt f 0 ix 0x16 a) (array : eField a.entry 4 1 < 16) (made : (c.arr (eField a.entry 4 1)).made = true)
    (position : eField a.entry 5 1 < (c.arr (eField a.entry 4 1)).pos.length) (number : eField a.entry 6 1 ≤ 47)
    (holds : c.memberAt (eField a.entry 4 1) (eField a.entry 5 1) = some old)
    (serves : ((c.arr (eField a.entry 4 1)).pos[eField a.entry 5 1]?.any fun p => p.state == .inService) = true)
    (noPass : (c.arr (eField a.entry 4 1)).pass = none) (noReshape : (c.arr (eField a.entry 4 1)).reshape = none)
    (noRetire : (c.arr (eField a.entry 4 1)).retire = none) (ready : (c.mbr (eField a.entry 6 1)).state = .ready)
    (large : (c.arr (eField a.entry 4 1)).capacity ≤ (c.mbr (eField a.entry 6 1)).capacity) :
    retireMemberOp f ix c = (((((c.setArr (eField a.entry 4 1) { c.arr (eField a.entry 4 1) with
      retire := some { pos := eField a.entry 5 1, old := old, repl := eField a.entry 6 1 } }).memberState old .retiring 15).modMbr (eField a.entry 6 1)
        fun x => { x with array := eField a.entry 4 1, position := none }).memberState (eField a.entry 6 1) .bound 12).done f a) := by
  refine Chip.onAdmin_entryAt entry (?_ : _ = ((stOk, 0), _))
  rw [if_neg (by simp [Chip.noArray, array, made]), if_neg (by omega), if_neg (by omega)]
  simp only [holds]
  rw [if_neg (by simp [serves]), if_neg (by simp [noPass, noReshape, noRetire]), if_neg (by simp [ready, large])]
  rfl

theorem detachMemberOp_releases (entry : c.entryAt f 0 ix 0x17 a) (number : eField a.entry 4 1 ≤ 47) (present : (c.mbr (eField a.entry 4 1)).state ≠ .absent)
    (unbound : (c.mbr (eField a.entry 4 1)).state ≠ .bound) (stays : (c.mbr (eField a.entry 4 1)).state ≠ .retiring) :
    detachMemberOp f ix c = (c.dropMember (eField a.entry 4 1) 10).done f a := by
  refine Chip.onAdmin_entryAt entry (?_ : _ = ((stOk, 0), _))
  rw [if_neg (by omega), if_neg (by simp [unbound, stays]), if_neg present]

theorem detachMemberOp_bound (entry : c.entryAt f 0 ix 0x17 a) (number : eField a.entry 4 1 ≤ 47) (bound : (c.mbr (eField a.entry 4 1)).state = .bound) :
    detachMemberOp f ix c = c.finish f 0 a.pos stState 3 := by
  refine Chip.onAdmin_entryAt entry (?_ : _ = ((stState, 3), _))
  rw [if_neg (by omega), if_pos (.inl bound)]

end

/-- Settles O41: each event and each command of a member by its own equation. -/
theorem members : Obligations.Members := by
  unfold Obligations.Members
  refine ⟨fun s m rate width clocked => ?_, fun s m i log pct crit e k a y t clocked => ?_, fun s f ix a l old clocked => ?_⟩
  · intro c x
    refine ⟨fun next reason free sound => ?_, fun may => ⟨?_, ?_⟩, fun absent lane trained => ?_, fun present free => ?_, fun absent => ?_, fun runs => ?_,
      fun preempting => ?_⟩
    · have told := c.memberState_told (m := m) reason sound (.inl free)
      refine ⟨told.mbr, fun k other => told.mbr_ne other, ?_⟩
      obtain ⟨n, p, pools, b, v, event, same⟩ := told
      exact ⟨⟨v, by rw [same], event⟩, by rw [same]; rfl⟩
    · exact (onChip_clocked _ clocked).trans (congrArg _ (congrArg s.put
        ((if_pos may).trans (Chip.failMember_may (c := c.emit (.memberReset m)) may 4))))
    · exact (onChip_clocked _ clocked).trans (congrArg _ (congrArg s.put (Chip.failMember_may may 5)))
    · exact (onChip_clocked _ clocked).trans (congrArg _ (congrArg s.put (memberLinkUpOp_trains rate width clocked absent lane trained)))
    · refine ⟨_, (onChip_clocked _ clocked).trans (congrArg _ (congrArg s.put (if_neg present))), s.put_pending _, ?_⟩
      rw [State.put_chip]
      exact Chip.dropMember_free 2 free
    · exact (onChip_clocked _ clocked).trans (congrArg _ (congrArg s.put (if_pos absent)))
    · refine ⟨_, onChip_clocked _ clocked, s.put_pending _, ?_⟩
      rw [State.put_chip]
      exact memberSanitizeDoneOp_done runs
    · exact (onChip_clocked _ clocked).trans (congrArg _ (congrArg s.put (if_neg (by simp [show (s.chip.mbr m).preempting = true from preempting]))))
  · intro c x auth ran x1 c1
    refine ⟨fun attaching fresh bad => ?_, fun attaching fresh ok asked fails => ?_, fun attaching fresh ok optional reliable writable => ?_,
      fun polled reliable writable => ?_, fun attached => ?_, fun attached write => ?_, fun attached write plain idle => ?_,
      fun retire place copied attached two => ?_⟩
    · exact (onChip_clocked _ clocked).trans (congrArg _ (congrArg s.put ((memberAttachOp_eq attaching fresh).trans (if_pos (by simp [bad])))))
    · exact (onChip_clocked _ clocked).trans (congrArg _ (congrArg s.put
        ((memberAttachOp_eq attaching fresh).trans ((if_neg (by simp [ok])).trans (if_pos ⟨asked, fails⟩)))))
    · refine (onChip_clocked _ clocked).trans (congrArg _ (congrArg s.put
        ((memberAttachOp_eq attaching fresh).trans ((if_neg (by simp [ok])).trans ((if_neg (fun both => optional both.1)).trans
          ((if_neg (by simp [reliable, writable])).trans ?_))))))
      rw [Chip.modMbr, Chip.attachedKept, Chip.mbr_setMbr_self, Chip.setMbr_setMbr]
      rfl
    · exact (onChip_clocked _ clocked).trans (congrArg _ (congrArg s.put (smartPollOp_kept log polled reliable writable)))
    · exact (onChip_clocked _ clocked).trans (congrArg _ (congrArg s.put (memberCommandCompleteOp_eq e k .ok clocked attached)))
    · exact (onChip_clocked _ clocked).trans (congrArg _ (congrArg s.put (memberCommandCompleteOp_mediaError e clocked attached write)))
    · exact (onChip_clocked _ clocked).trans (congrArg _ (congrArg s.put (memberCommandCompleteOp_conflict e clocked attached write plain idle)))
    · refine ⟨_, onChip_clocked _ clocked, s.put_pending _, ?_⟩
      rw [State.put_chip]
      exact retirementCopyDoneOp_done retire place copied attached two
  · intro c e
    refine ⟨fun entry slot direct none => ?_, fun entry slot some_ data => ?_,
      fun entry array made position number holds serves noPass noReshape noRetire ready large => ?_, fun entry number present unbound stays => ?_,
      fun entry number bound => ?_⟩
    · exact (onChip_clocked _ clocked).trans (congrArg _ (congrArg s.put (memberTrustOp_clears entry slot direct none)))
    · exact (onChip_clocked _ clocked).trans (congrArg _ (congrArg s.put (memberTrustOp_takes entry slot some_ data)))
    · exact (onChip_clocked _ clocked).trans (congrArg _ (congrArg s.put
        (retireMemberOp_begins entry array made position number holds serves noPass noReshape noRetire ready large)))
    · exact (onChip_clocked _ clocked).trans (congrArg _ (congrArg s.put (detachMemberOp_releases entry number present unbound stays)))
    · exact (onChip_clocked _ clocked).trans (congrArg _ (congrArg s.put (detachMemberOp_bound entry number bound)))

end Sys2Proof.Machine
end

section
/-! Settles O42: the commands on arrays and volumes (R481, R495, R501, R520, R530–R542, R858). -/

namespace Sys2Proof.Machine

/-! ## Tables -/

/-- What a table holds at a key is the default, or stands in a pair of the table. -/
theorem tget_mem {α : Type} (t : Tab α) (d : α) (k : Nat) : tget t d k = d ∨ (k, tget t d k) ∈ t := by
  induction t with
  | nil => exact .inl rfl
  | cons p r ih =>
    by_cases hit : p.1 = k
    · subst hit
      exact .inr (by simp [tget])
    · rw [tget, if_neg hit]
      exact ih.imp_right (List.mem_cons_of_mem _)

theorem Chip.arr_changeArr (c : Chip) (a seq k : Nat) (f : RaidArray → RaidArray) : (c.changeArr a seq f).arr k = (c.modArr a f).arr k := by
  unfold Chip.changeArr
  dsimp only
  split <;> rfl

/-! ## Arrays (R531, R532, R858) -/

section
variable {c : Chip} {f : Fn} {ix : BitVec 16} {a : Adm} {l : List Byte}

section
variable (entry : c.entryAt f 0 ix 0x10 a)
include entry

theorem createArrayOp_early {code d : Nat} (refused : createEarly a.entry = some (code, d)) : createArrayOp f ix c = c.finish f 0 a.pos code d := by
  refine (Chip.onEntry_entryAt (g := 0) entry _).trans ?_
  simp only [refused]

variable (early : createEarly a.entry = none) (data : a.data = some l)
include early data

theorem createArrayOp_late {code d : Nat} (refused : c.createLate a.entry (l.map BitVec.toNat) = some (code, d)) :
    createArrayOp f ix c = c.finish f 0 a.pos code d := by
  refine (Chip.onEntry_entryAt (g := 0) entry _).trans ?_
  simp only [early, data, refused]

theorem createArrayOp_makes (passes : c.createLate a.entry (l.map BitVec.toNat) = none) :
    createArrayOp f ix c = (c.makeArray a.entry (sortNat (l.map BitVec.toNat)) a.seq).done f a := by
  refine (Chip.onEntry_entryAt (g := 0) entry _).trans ?_
  simp only [early, data, passes]
  rfl

end

theorem Chip.noArray_made {n : Nat} (number : n < 16) (made : (c.arr n).made = true) : c.noArray n = false := by
  simp [Chip.noArray, number, made]

/-- No member of an array is attached. -/
theorem Chip.attached_none {n : Nat} (none : ∀ m ∈ c.members, m.2.attached = true → m.2.array ≠ n) :
    (List.range 48).filter (fun m => (c.mbr m).attached && (c.mbr m).array == n) = [] := by
  refine List.filter_eq_nil_iff.mpr fun m _ held => ?_
  obtain ⟨attached, array⟩ := Bool.and_eq_true_iff.mp held
  rcases tget_mem c.members {} m with default | listed
  · rw [Chip.mbr, default] at attached
    exact Bool.noConfusion attached
  · exact none _ listed attached (beq_iff_eq.mp array)

section
variable (entry : c.entryAt f 0 ix 0x11 a) (number : eField a.entry 4 1 < 16) (made : (c.arr (eField a.entry 4 1)).made = true)
include entry number made

theorem deleteArrayOp_busy (busy : (c.volumes.any fun v => v.2.state != .none && v.2.array == eField a.entry 4 1) = true) :
    deleteArrayOp f ix c = c.finish f 0 a.pos stQueueBusy 0 := by
  refine Chip.onAdmin_entryAt entry (?_ : _ = ((stQueueBusy, 0), _))
  rw [if_neg (by simp [Chip.noArray_made number made]), if_pos busy]

/-- An array without volumes, attached members and bobbins goes. -/
theorem deleteArrayOp_free (volumes : ∀ v ∈ c.volumes, v.2.state = .none ∨ v.2.array ≠ eField a.entry 4 1)
    (members : ∀ m ∈ c.members, m.2.attached = true → m.2.array ≠ eField a.entry 4 1) (bobbins : ∀ b ∈ c.bobbins, c.bobArray b ≠ eField a.entry 4 1) :
    deleteArrayOp f ix c = (c.changeArr (eField a.entry 4 1) a.seq fun _ => {}).finish f 0 a.pos stOk 0 := by
  have noVolume : (c.volumes.any fun v => v.2.state != .none && v.2.array == eField a.entry 4 1) = false := by
    refine List.any_eq_false.mpr fun v listed used => ?_
    rcases volumes v listed with gone | other
    · simp [gone] at used
    · simp [other] at used
  have noBobbin : c.bobbins.filter (fun b => c.bobArray b == eField a.entry 4 1) = [] :=
    List.filter_eq_nil_iff.mpr fun b listed => by simpa using bobbins b listed
  refine Chip.onAdmin_entryAt entry (?_ : _ = ((stOk, 0), _))
  rw [if_neg (by simp [Chip.noArray_made number made]), if_neg (by simp [noVolume]), Chip.attached_none members]
  simp only [List.foldl_nil, noBobbin]

end

section
variable (entry : c.entryAt f 0 ix 0x21 a) (number : eField a.entry 4 1 < 16) (made : (c.arr (eField a.entry 4 1)).made = true)
include entry number made

theorem scrubNowOp_begins (pass : (c.arr (eField a.entry 4 1)).pass = none) (reshape : (c.arr (eField a.entry 4 1)).reshape = none) :
    scrubNowOp f ix c = (c.scrubStart (eField a.entry 4 1)).done f a := by
  refine Chip.onAdmin_entryAt entry (?_ : _ = ((stOk, 0), _))
  rw [if_neg (by simp [Chip.noArray_made number made]), if_neg (by simp [pass, reshape])]

theorem scrubNowOp_refused (busy : (c.arr (eField a.entry 4 1)).pass.isSome = true ∨ (c.arr (eField a.entry 4 1)).reshape.isSome = true) :
    scrubNowOp f ix c = c.finish f 0 a.pos stState 1 := by
  refine Chip.onAdmin_entryAt entry (?_ : _ = ((stState, 1), _))
  rw [if_neg (by simp [Chip.noArray_made number made]), if_pos busy]

end

theorem replaceMemberOp_begins (entry : c.entryAt f 0 ix 0x20 a) (array : eField a.entry 4 1 < 16) (made : (c.arr (eField a.entry 4 1)).made = true)
    (position : eField a.entry 5 1 < (c.arr (eField a.entry 4 1)).pos.length) (number : eField a.entry 6 1 ≤ 47)
    (gone : ∀ p, (c.arr (eField a.entry 4 1)).pos[eField a.entry 5 1]? = some p → p.state ≠ .inService)
    (reshape : (c.arr (eField a.entry 4 1)).reshape = none) (joins : c.mayJoin (eField a.entry 6 1) (c.arr (eField a.entry 4 1)).capacity = true)
    (empty : c.memberAt (eField a.entry 4 1) (eField a.entry 5 1) = none) : replaceMemberOp f ix c =
      (((((c.setMbr (eField a.entry 6 1) { c.mbr (eField a.entry 6 1) with array := eField a.entry 4 1, position := some (eField a.entry 5 1) }).memberState
        (eField a.entry 6 1) .bound 12).setPos (eField a.entry 4 1) (eField a.entry 5 1) a.seq
          fun p => { p with state := .rebuilding, toRepl := true, member := some (eField a.entry 6 1), id := (c.mbr (eField a.entry 6 1)).nguid }).startPass
            (eField a.entry 4 1) a.seq).seedMember (eField a.entry 4 1) (eField a.entry 5 1) (eField a.entry 6 1)).done f a := by
  have lost : ((c.arr (eField a.entry 4 1)).pos[eField a.entry 5 1]?.any fun p => p.state == .inService) = false := by
    cases held : (c.arr (eField a.entry 4 1)).pos[eField a.entry 5 1]? with
    | none => rfl
    | some p => simpa using gone p held
  refine Chip.onAdmin_entryAt entry (?_ : _ = ((stOk, 0), _))
  rw [if_neg (by simp [Chip.noArray_made array made]), if_neg (by omega), if_neg (by omega), if_neg (by simp [lost]), if_neg (by simp [reshape]),
    if_neg (by simp [joins])]
  simp only [empty]
  rfl

section
variable (entry : c.entryAt f 0 ix 0x22 a) (added : 0 < eField a.entry 7 1) (data : a.data = some l)
include entry added data

theorem reshapeOp_range {o : Nat} (refused : c.reshapeRange a.entry (l.map BitVec.toNat) = some o) : reshapeOp f ix c = c.finish f 0 a.pos stRange o := by
  refine (Chip.onEntry_entryAt (g := 0) entry _).trans ?_
  dsimp only
  rw [if_neg (fun none => added.ne' none.1)]
  simp only [data, refused]

theorem reshapeOp_begins (range : c.reshapeRange a.entry (l.map BitVec.toNat) = none)
    (state : c.reshapeState (eField a.entry 4 1) ⟨(c.arr (eField a.entry 4 1)).geom.n + eField a.entry 7 1, eField a.entry 5 1, eField a.entry 6 1,
      stripesPerRow ((c.arr (eField a.entry 4 1)).geom.n + eField a.entry 7 1) (eField a.entry 5 1) (eField a.entry 6 1)⟩ (l.map BitVec.toNat) = none) :
    reshapeOp f ix c = (c.startReshape (eField a.entry 4 1) ⟨(c.arr (eField a.entry 4 1)).geom.n + eField a.entry 7 1, eField a.entry 5 1, eField a.entry 6 1,
      stripesPerRow ((c.arr (eField a.entry 4 1)).geom.n + eField a.entry 7 1) (eField a.entry 5 1) (eField a.entry 6 1)⟩ (l.map BitVec.toNat) a.seq).done f a := by
  refine (Chip.onEntry_entryAt (g := 0) entry _).trans ?_
  dsimp only
  rw [if_neg (fun none => added.ne' none.1)]
  simp only [data, range, state]
  rfl

end

/-! ## Volumes (R530, R533–R542) -/

/-- A change of a volume counts a generation, and writes its record to media. -/
theorem Chip.volUpdate_media (c : Chip) (v : Nat) (g : Volume → Volume) : (c.modVol v fun x => { g x with gen := x.gen + 1 }).MediaOnly (c.volUpdate v g) :=
  (Chip.foldl_media (fun c y => c.posPut_media _ y (Member.writes_put _ _)) _ _).trans
    (Chip.foldl_media (fun c y => c.posPut_media _ y (Member.writes_put _ _)) _ _)

/-- A command that changed volume `v` to `x`, and ended its entry. -/
theorem Chip.volUpdate_keeps (c : Chip) (v : Nat) (g : Volume → Volume) (f : Fn) (p code detail : Nat) :
    let t := (c.volUpdate v g).finish f 0 p code detail
    (∀ k, k ≠ v → t.vol k = c.vol k) ∧ t = { c with volumes := t.volumes, members := t.members, funcs := t.funcs } ∧
      t.vol v = { g (c.vol v) with gen := (c.vol v).gen + 1 } := by
  obtain ⟨⟨l, media⟩, -⟩ := c.volUpdate_media v g
  have vol (k : Nat) : ((c.volUpdate v g).finish f 0 p code detail).vol k = (c.modVol v fun x => { g x with gen := x.gen + 1 }).vol k := by
    rw [media]
    rfl
  refine ⟨fun k other => (vol k).trans (Chip.vol_modVol_ne _ _ other), ?_, (vol v).trans (Chip.vol_modVol_self ..)⟩
  rw [media]
  rfl

section
variable (entry : c.entryAt f 0 ix 0x12 a) (array : eField a.entry 5 1 < 16) (made : (c.arr (eField a.entry 5 1)).made = true)
include entry array made

theorem createVolumeOp_outside (outside : (c.arr (eField a.entry 5 1)).stripes ≤ eField a.entry 8 8) :
    createVolumeOp f ix c = c.finish f 0 a.pos stRange 8 := by
  refine Chip.onAdmin_entryAt entry (?_ : _ = ((stRange, 8), _))
  rw [if_neg (by simp [Chip.noArray_made array made]), if_pos outside]

theorem createVolumeOp_creates (some_ : 0 < eField a.entry 0x10 8)
    (inside : eField a.entry 8 8 + eField a.entry 0x10 8 ≤ (c.arr (eField a.entry 5 1)).stripes) (new : (c.vol (eField a.entry 4 1)).state = .none)
    (apart : ∀ w ∈ c.volumes, w.2.state = .none ∨ w.2.array ≠ eField a.entry 5 1 ∨ eField a.entry 8 8 + eField a.entry 0x10 8 ≤ w.2.first ∨
      w.2.first + w.2.count ≤ eField a.entry 8 8) :
    createVolumeOp f ix c = (c.volUpdate (eField a.entry 4 1) fun x => {
      state := .unformatted, array := eField a.entry 5 1, big := eField a.entry 6 1 == 1, first := eField a.entry 8 8, count := eField a.entry 0x10 8, gen := x.gen, seq := a.seq }).finish f 0 a.pos stOk 0 := by
  have free : (c.volumes.any fun x => x.2.state != .none && x.2.array == eField a.entry 5 1 &&
      meet (eField a.entry 8 8) (eField a.entry 0x10 8) x.2.first x.2.count) = false := by
    refine List.any_eq_false.mpr fun w listed meets => ?_
    simp only [meet, Bool.and_eq_true, bne_iff_ne, beq_iff_eq, decide_eq_true_eq] at meets
    obtain ⟨⟨used, same⟩, low, high⟩ := meets
    rcases apart w listed with gone | other | below | above
    · exact used gone
    · exact other same
    · omega
    · omega
  refine Chip.onAdmin_entryAt entry (?_ : _ = ((stOk, 0), _))
  rw [if_neg (by simp [Chip.noArray_made array made]), if_neg (by omega), if_neg (by omega), if_neg (by simp [new]), if_neg (by simp [free])]

end

section
variable (entry : c.entryAt f 0 ix 0x13 a) (made : (c.vol (eField a.entry 4 1)).state ≠ .none)
include entry made

theorem deleteVolumeOp_busy (busy : c.volBusy (eField a.entry 4 1) = true) : deleteVolumeOp f ix c = c.finish f 0 a.pos stQueueBusy 0 := by
  refine Chip.onAdmin_entryAt entry (?_ : _ = ((stQueueBusy, 0), _))
  rw [if_neg made, if_pos (.inl busy)]

theorem deleteVolumeOp_free (idle : c.volBusy (eField a.entry 4 1) = false) (unnamed : c.volNamed (eField a.entry 4 1) = false) :
    deleteVolumeOp f ix c = (c.volUpdate (eField a.entry 4 1) fun x => { state := .none, array := x.array, gen := x.gen, seq := a.seq }).finish
      f 0 a.pos stOk 0 := by
  refine Chip.onAdmin_entryAt entry (?_ : _ = ((stOk, 0), _))
  rw [if_neg made, if_neg (by simp [idle, unnamed])]

end

theorem volumeGrantOp_grants (entry : c.entryAt f 0 ix 0x14 a) (made : (c.vol (eField a.entry 4 1)).state ≠ .none) (virtual : eField a.entry 5 1 % 64 ≠ 0)
    (number : eField a.entry 5 1 < 128) : volumeGrantOp f ix c = (c.setVol (eField a.entry 4 1) { c.vol (eField a.entry 4 1) with
      grants := tput (c.vol (eField a.entry 4 1)).grants 0 (eField a.entry 5 1) (eField a.entry 6 1) }).done f a := by
  refine Chip.onAdmin_entryAt entry (?_ : _ = ((stOk, 0), _))
  rw [if_neg made, if_neg (by omega)]
  rfl

theorem Chip.formatCheck_passes {v detail : Nat} (rests : (c.vol v).state = .unformatted ∨ (c.vol v).state = .ready)
    (sound : (c.arr (c.vol v).array).failed = false) : c.formatCheck v detail = none := by
  unfold Chip.formatCheck
  rcases rests with rests | rests
  · simp [rests, sound]
  · simp [rests, sound]

theorem formatVolumeOp_begins (entry : c.entryAt f 0 ix 0x18 a)
    (rests : (c.vol (eField a.entry 4 1)).state = .unformatted ∨ (c.vol (eField a.entry 4 1)).state = .ready)
    (sound : (c.arr (c.vol (eField a.entry 4 1)).array).failed = false) :
    formatVolumeOp f ix c = (c.startFormat (eField a.entry 4 1) a.seq .formatting).finish f 0 a.pos stOk 0 := by
  refine Chip.onAdmin_entryAt entry (?_ : _ = ((stOk, 0), _))
  simp only [Chip.formatCheck_passes rests sound]

section
variable (entry : c.entryAt f 0 ix 0x19 a)
include entry

theorem sanitizeOp_volume (volume : eField a.entry 4 1 = 0)
    (rests : (c.vol (eField a.entry 5 1)).state = .unformatted ∨ (c.vol (eField a.entry 5 1)).state = .ready)
    (sound : (c.arr (c.vol (eField a.entry 5 1)).array).failed = false) :
    sanitizeOp f ix c = (c.startFormat (eField a.entry 5 1) a.seq .sanitizing).finish f 0 a.pos stOk 0 := by
  refine Chip.onAdmin_entryAt entry (?_ : _ = ((stOk, 0), _))
  rw [if_pos volume]
  simp only [Chip.formatCheck_passes rests sound]

theorem sanitizeOp_member (member : eField a.entry 4 1 ≠ 0) (number : eField a.entry 5 1 ≤ 47)
    (free : (c.mbr (eField a.entry 5 1)).state = .ready ∨ (c.mbr (eField a.entry 5 1)).state = .retired) :
    sanitizeOp f ix c = ((c.memberState (eField a.entry 5 1) .sanitizing 16).progressEvent (eField a.entry 5 1) true 2 0 a.seq).done f a := by
  refine Chip.onAdmin_entryAt entry (?_ : _ = ((stOk, 0), _))
  rw [if_neg member, if_neg (by omega), if_neg (fun neither => free.elim neither.1 neither.2)]

end

end

/-- Settles O42: each command by its own equation, and volumes by what a change of a record keeps. -/
theorem arraysAndVolumes : Obligations.ArraysAndVolumes := by
  unfold Obligations.ArraysAndVolumes
  refine ⟨fun s f ix a l clocked => ?_, fun s f ix a clocked => ?_⟩
  · intro c e n r ms
    refine ⟨fun code d entry refused => ?_, fun code d entry early data refused => ?_, fun entry early data passes => ?_, fun entry number made busy => ?_,
      fun entry number made volumes members bobbins => ?_, fun entry number made pass reshape => ?_, fun entry number made busy => ?_, ?_, ?_,
      fun o entry added data refused => ?_⟩
    · exact (onChip_clocked _ clocked).trans (congrArg _ (congrArg s.put (createArrayOp_early entry refused)))
    · exact (onChip_clocked _ clocked).trans (congrArg _ (congrArg s.put (createArrayOp_late entry early data refused)))
    · exact (onChip_clocked _ clocked).trans (congrArg _ (congrArg s.put (createArrayOp_makes entry early data passes)))
    · exact (onChip_clocked _ clocked).trans (congrArg _ (congrArg s.put (deleteArrayOp_busy entry number made busy)))
    · refine ⟨_, (onChip_clocked _ clocked).trans (congrArg _ (congrArg s.put (deleteArrayOp_free entry number made volumes members bobbins))),
        s.put_pending _, ?_⟩
      rw [State.put_chip]
      exact ⟨(c.arr_changeArr ..).trans (Chip.arr_modArr_self ..), fun k other => (c.arr_changeArr ..).trans (Chip.arr_modArr_ne _ _ other)⟩
    · exact (onChip_clocked _ clocked).trans (congrArg _ (congrArg s.put (scrubNowOp_begins entry number made pass reshape)))
    · exact (onChip_clocked _ clocked).trans (congrArg _ (congrArg s.put (scrubNowOp_refused entry number made busy)))
    · intro y m entry array made position number gone reshape joins empty
      exact (onChip_clocked _ clocked).trans (congrArg _ (congrArg s.put
        (replaceMemberOp_begins entry array made position number gone reshape joins empty)))
    · intro k g entry added data range state
      exact (onChip_clocked _ clocked).trans (congrArg _ (congrArg s.put (reshapeOp_begins entry added data range state)))
    · exact (onChip_clocked _ clocked).trans (congrArg _ (congrArg s.put (reshapeOp_range entry added data refused)))
  · intro c e v x keeps
    have kept (v : Nat) (g : Volume → Volume) : keeps (s.put ((c.volUpdate v g).finish f 0 a.pos stOk 0)) v ∧
        (s.put ((c.volUpdate v g).finish f 0 a.pos stOk 0)).chip.vol v = { g (c.vol v) with gen := (c.vol v).gen + 1 } := by
      obtain ⟨others, frame, own⟩ := c.volUpdate_keeps v g f a.pos stOk 0
      exact ⟨⟨s.put_pending _, others, frame⟩, own⟩
    refine ⟨?_, fun entry array made outside => ?_, fun entry made idle unnamed => ?_, fun entry made busy => ?_, ?_, fun entry rests sound => ?_, ?_, ?_⟩
    · intro n first count entry array made some_ inside new apart
      refine ⟨_, (onChip_clocked _ clocked).trans (congrArg _ (congrArg s.put (createVolumeOp_creates entry array made some_ inside new apart))), ?_⟩
      exact kept _ _
    · exact (onChip_clocked _ clocked).trans (congrArg _ (congrArg s.put (createVolumeOp_outside entry array made outside)))
    · refine ⟨_, (onChip_clocked _ clocked).trans (congrArg _ (congrArg s.put (deleteVolumeOp_free entry made idle unnamed))), ?_⟩
      exact kept _ _
    · exact (onChip_clocked _ clocked).trans (congrArg _ (congrArg s.put (deleteVolumeOp_busy entry made busy)))
    · intro g entry made virtual number
      exact (onChip_clocked _ clocked).trans (congrArg _ (congrArg s.put (volumeGrantOp_grants entry made virtual number)))
    · refine ⟨_, (onChip_clocked _ clocked).trans (congrArg _ (congrArg s.put (formatVolumeOp_begins entry rests sound))), ?_⟩
      exact kept _ _
    · intro u entry volume rests sound
      refine ⟨_, (onChip_clocked _ clocked).trans (congrArg _ (congrArg s.put (sanitizeOp_volume entry volume rests sound))), ?_⟩
      exact kept _ _
    · intro u entry member number free
      exact (onChip_clocked _ clocked).trans (congrArg _ (congrArg s.put (sanitizeOp_member entry member number free)))

end Sys2Proof.Machine
end

section
/-! Settles O43: the WRITE, READ and RECONSTRUCT entries of STRIPE2 (R387–R397, R406, R414). -/

namespace Sys2Proof.Machine

/-! ## What the stock program has taken -/

section
variable {c : Chip} {e prog ep : Nat} {r : Run} {i : Item} {is : List Item}

theorem Chip.stock_run (runs : c.stock e prog ep = some r) : (c.eng e).run = some r := by
  unfold Chip.stock at runs
  dsimp only at runs
  split at runs
  · exact absurd runs.symm (Option.some_ne_none r)
  · exact (Option.filter_eq_some_iff.mp runs).1

theorem Chip.taken_stock (runs : c.stock e prog ep = some r) (took : r.taken = i :: is) : c.taken e = i :: is := by
  simp only [Chip.taken, Chip.stock_run runs, took]

end

/-! ## Landing (R185, R189, R695) -/

/-- A confirmation lands in every role, and ALONE confirms at once. -/
theorem landing_confirmed {role : Role} {l : LandResult} (landed : l = .confirmed ∨ role = .alone) : landing role l = some .confirmed := by
  rcases landed with rfl | rfl
  · cases role <;> rfl
  · rfl

/-! ## The entries (R388–R397, R406, R414) -/

section
variable {c : Chip} {e : Se} {l : LandResult} {r : Run} {i : Item} {is : List Item} (took : r.taken = i :: is)
include took

section
variable (runs : c.stock e 0x10001 0 = some r)
include runs

theorem stripe2WriteOp_refused {code : Nat} (refused : (c.gather e i.sameWrite 32).writeCheck i (((c.gather e i.sameWrite 32).taken e).all (c.gather e i.sameWrite 32).replaces)
      (((c.gather e i.sameWrite 32).arr i.array).geomOf i.stripe)
      (((c.gather e i.sameWrite 32).taken e).flatMap ((c.gather e i.sameWrite 32).piecesOf ((c.gather e i.sameWrite 32).arr i.array).stripBytes)) = some (code, [])) :
    stripe2WriteOp e l c = (c.gather e i.sameWrite 32).endStock e code := by
  unfold stripe2WriteOp
  simp only [runs, Chip.taken_stock runs took, refused]
  rfl

theorem stripe2WriteOp_lands {d : Chip} (passes : (c.gather e i.sameWrite 32).writeCheck i (((c.gather e i.sameWrite 32).taken e).all (c.gather e i.sameWrite 32).replaces)
      (((c.gather e i.sameWrite 32).arr i.array).geomOf i.stripe)
      (((c.gather e i.sameWrite 32).taken e).flatMap ((c.gather e i.sameWrite 32).piecesOf ((c.gather e i.sameWrite 32).arr i.array).stripBytes)) = none)
    (landed : l = .confirmed ∨ (c.gather e i.sameWrite 32).par.role = .alone)
    (written : (c.gather e i.sameWrite 32).writeStripe e i.array i.stripe (((c.gather e i.sameWrite 32).arr i.array).geomOf i.stripe)
      (((c.gather e i.sameWrite 32).taken e).all (c.gather e i.sameWrite 32).replaces)
      (((c.gather e i.sameWrite 32).taken e).flatMap ((c.gather e i.sameWrite 32).piecesOf ((c.gather e i.sameWrite 32).arr i.array).stripBytes))
      ((c.gather e i.sameWrite 32).taken e) = some d) :
    stripe2WriteOp e l c = ((d.confirmUpTo e (d.eng e).issued (d.par.role == .alone)).writeLanded e i.array i.stripe
      (((c.gather e i.sameWrite 32).taken e).all (c.gather e i.sameWrite 32).replaces) i.seq).endStock e stOk := by
  unfold stripe2WriteOp
  simp only [runs, Chip.taken_stock runs took, passes, landing_confirmed landed, written, Chip.landEnd]

end

section
variable (runs : c.stock e 0x10001 1 = some r)
include runs

theorem stripe2ReadOp_failed (failed : (c.arr i.array).failed = true) : stripe2ReadOp e c = c.endStock e stState := by
  unfold stripe2ReadOp
  simp only [runs, Chip.taken_stock runs took]
  exact if_pos failed

variable (serves : (c.arr i.array).failed = false)
include serves

theorem stripe2ReadOp_lost (lost : c.readLost i (c.header i 0 4) = true) : stripe2ReadOp e c = c.endStock e stDataLost := by
  unfold stripe2ReadOp
  simp only [runs, Chip.taken_stock runs took]
  rw [if_neg (by simp [serves]), if_pos lost]

theorem stripe2ReadOp_delivers {bytes : List Byte} (present : c.readLost i (c.header i 0 4) = false)
    (read : c.readStrip i.array ((c.arr i.array).geomOf i.stripe) i.stripe i.strip (c.header i 0 4) (c.header i 4 4) = some bytes)
    (clean : c.badChunks i.array ((c.arr i.array).geomOf i.stripe) i.stripe i.strip (c.header i 0 4 / 512)
      ((c.header i 0 4 + c.header i 4 4 + 511) / 512 - c.header i 0 4 / 512) = []) :
    stripe2ReadOp e c = (c.deliverRead i bytes).endStock e stOk := by
  unfold stripe2ReadOp
  simp only [runs, Chip.taken_stock runs took, read, clean, List.foldl_nil]
  rw [if_neg (by simp [serves]), if_neg (by simp [present])]

end

section
variable (runs : c.stock e 0x10001 3 = some r)
include runs

/-- The strips that a RECONSTRUCT item names: P and Q of a resynchronisation, the mask of a read repair. -/
def Item.rebuiltStrips (i : Item) (g : Geom) : List Nat := if i.origin = 9 then [g.w - 2, g.w - 1] else (List.range g.w).filter (bitAt (i.field 4 4))

/-- The sectors that a RECONSTRUCT item names: the whole strip of a resynchronisation, one chunk of a read repair. -/
def Item.rebuiltSectors (i : Item) (S : Nat) : List Nat := if i.origin = 9 then List.range (S / 512) else chunkSectors S (i.field 1 1)

theorem stripe2ReconstructOp_eq : stripe2ReconstructOp e l c =
    match c.rebuilt i.array ((c.arr i.array).geomOf i.stripe) i.stripe (i.rebuiltStrips ((c.arr i.array).geomOf i.stripe))
      (i.rebuiltSectors (c.arr i.array).stripBytes) with
    | none => (c.loseStrips e i.array i.stripe ((i.rebuiltSectors (c.arr i.array).stripBytes).flatMap fun k =>
        let u := c.unavailStrips i.array ((c.arr i.array).geomOf i.stripe) i.stripe k 1
        if 2 < u.length then u else []).dedup 1 i.seq).endStock e stDataLost
    | some vals => match landing c.par.role l, c.rewrite e i.array i.stripe ((c.arr i.array).geomOf i.stripe) vals i
        (512 * (i.rebuiltSectors (c.arr i.array).stripBytes).length) with
      | some r, some c1 => c1.landEnd e r stOk fun c => c
      | _, _ => c := by
  unfold stripe2ReconstructOp Item.rebuiltStrips Item.rebuiltSectors
  simp only [runs, Chip.taken_stock runs took, beq_iff_eq] <;> rfl

theorem stripe2ReconstructOp_lands {d : Chip} {vals : List (Nat × List (Nat × List Byte))}
    (rebuilt : c.rebuilt i.array ((c.arr i.array).geomOf i.stripe) i.stripe (i.rebuiltStrips ((c.arr i.array).geomOf i.stripe))
      (i.rebuiltSectors (c.arr i.array).stripBytes) = some vals) (landed : l = .confirmed ∨ c.par.role = .alone)
    (rewritten : c.rewrite e i.array i.stripe ((c.arr i.array).geomOf i.stripe) vals i (512 * (i.rebuiltSectors (c.arr i.array).stripBytes).length) = some d) :
    stripe2ReconstructOp e l c = (d.confirmUpTo e (d.eng e).issued (d.par.role == .alone)).endStock e stOk := by
  rw [stripe2ReconstructOp_eq took runs]
  simp only [rebuilt, rewritten, landing_confirmed landed, Chip.landEnd]

theorem stripe2ReconstructOp_gone (gone : c.rebuilt i.array ((c.arr i.array).geomOf i.stripe) i.stripe (i.rebuiltStrips ((c.arr i.array).geomOf i.stripe))
      (i.rebuiltSectors (c.arr i.array).stripBytes) = none) :
    ∃ lost, stripe2ReconstructOp e l c = (c.loseStrips e i.array i.stripe lost 1 i.seq).endStock e stDataLost := by
  have op := stripe2ReconstructOp_eq (l := l) took runs
  rw [gone] at op
  exact ⟨_, op⟩

end

end

/-- Settles O43: each entry by the checks that its items pass. -/
theorem stripeReadsAndWrites : Obligations.StripeReadsAndWrites := by
  unfold Obligations.StripeReadsAndWrites
  refine ⟨fun s e l r i is clocked runs took => ?_, fun s e l r i is clocked took => ?_⟩
  · intro c all a g ps full
    refine ⟨fun code refused => ?_, fun d passes landed written => ?_, fun failed => if_pos failed⟩
    · exact (onChip_clocked _ clocked).trans (congrArg _ (congrArg s.put (stripe2WriteOp_refused took runs refused)))
    · exact (onChip_clocked _ clocked).trans (congrArg _ (congrArg s.put (stripe2WriteOp_lands took runs passes landed written)))
  · intro c a g o n
    refine ⟨fun runs failed => ?_, fun runs serves lost => ?_, fun bytes runs serves present read clean => ?_, ?_⟩
    · exact (onChip_clocked _ clocked).trans (congrArg _ (congrArg s.put (stripe2ReadOp_failed took runs failed)))
    · exact (onChip_clocked _ clocked).trans (congrArg _ (congrArg s.put (stripe2ReadOp_lost took runs serves lost)))
    · exact (onChip_clocked _ clocked).trans (congrArg _ (congrArg s.put (stripe2ReadOp_delivers took runs serves present read clean)))
    · intro strips ks
      refine ⟨fun vals d runs rebuilt landed rewritten => ?_, fun runs gone => ?_⟩
      · exact (onChip_clocked _ clocked).trans (congrArg _ (congrArg s.put (stripe2ReconstructOp_lands took runs rebuilt landed rewritten)))
      · obtain ⟨lost, op⟩ := stripe2ReconstructOp_gone (l := l) took runs gone
        exact ⟨lost, (onChip_clocked _ clocked).trans (congrArg _ (congrArg s.put op))⟩

end Sys2Proof.Machine
end

section
/-! Settles O45: the admission of repair work, and what the stock programs do with its items (R473–R478, R486–R500, R505–R511, R568, R608, R664). -/

namespace Sys2Proof.Machine

/-! ## Admission (R473–R478, R495) -/

section
variable {c : Chip} {a : Arr}

theorem repairAdmitOp_off (off : c.repairOn a = false) : repairAdmitOp a c = c := if_pos (by simp [off])

/-- With one item that may come next, that item takes a place and goes to its engine. -/
theorem repairAdmitOp_one {x : Nat × Item} (on : c.repairOn a = true) (noPass : (c.arr a).pass = none)
    (next : (c.repairWork a).filter (c.mayAdmit a) = [x]) : ∃ d : Chip, repairAdmitOp a c = d.submit x.1 { x.2 with seq := c.takeSeq.1 } ∧
      d.engines = c.engines ∧ d.admNext = c.takeSeq.2.admNext ∧ (d.arr a).starved = false := by
  have phase : c.passPhase a c.nextPlace = c := by simp only [Chip.passPhase, noPass]
  have taken : ({ c with free := c.free + 1 } : Chip).takeSeq = (c.takeSeq.1, { c.takeSeq.2 with free := c.free + 1 }) := by
    unfold Chip.takeSeq
    dsimp only
    split <;> rfl
  have only (n : Nat) : [x].getD n x = x := by cases n <;> rfl
  obtain ⟨n, p, -, same⟩ := c.takeSeq_placed
  refine ⟨({ c.takeSeq.2 with free := c.free + 1 } : Chip).modArr a fun z => { z with
      starved := false
      repaired := if x.2.origin = 2 then (z.repaired + 1) % 2 ^ 64 else z.repaired
      repairs := if x.2.origin = 2 then z.repairs.tail else z.repairs }, ?_, by rw [same]; rfl, rfl, ?_⟩
  · unfold repairAdmitOp
    rw [if_neg (by simp [on])]
    simp only [phase, next, Chip.fresh, taken, only]
  · rw [Chip.arr_modArr_self]

theorem repairStarvedOp_tells (on : c.repairOn a = true) (fed : (c.arr a).starved = false) (waits : c.repairWork a ≠ [])
    (held : ∀ x ∈ c.repairWork a, c.gapOk x.1 (c.costOf x.1 x.2) = false) :
    repairStarvedOp a c = (c.setArr a { c.arr a with starved := true }).arrayEvent a 10 0x3F 0 c.nextPlace := by
  have none : ((c.repairWork a).any fun x => c.gapOk x.1 (c.costOf x.1 x.2)) = false := List.any_eq_false.mpr fun x listed => by simp [held x listed]
  unfold repairStarvedOp
  rw [if_neg (by simp [on, fed, waits, none])]
  rfl

theorem scrubPassStartOp_starts (on : c.repairOn a = true) (idle : (c.arr a).scrub = none) (days : c.eff (recSe a) 0x504 8 ≠ 0) :
    scrubPassStartOp a c = c.scrubStart a := if_neg (by simp [on, idle, days])

end

/-! ## A reshape step (R505, R506, R508) -/

/-- The items of a reshape step on row `row`: one for each chunk of each stripe. -/
def Chip.stepItems (c : Chip) (a : Nat) (r : Reshape) (row : Nat) : List (Nat × Item) :=
  (rowStripes r.new row).flatMap fun st => (List.range (chunksOf (c.arr a).stripBytes)).map fun ch =>
    (ownerOf a st, serviceItem 6 a st (c.rbind a 0) (c.rbind a 12) ch (repairBody 3 ch 1 0 (holders (c.arr a).beforeMap r.old st) [] r.old.bytes r.new.bytes))

theorem Chip.stepItems_length (c : Chip) (a : Nat) (r : Reshape) (row : Nat) :
    (c.stepItems a r row).length = r.new.q * chunksOf (c.arr a).stripBytes := by
  simp [Chip.stepItems, rowStripes, List.length_flatMap, Function.comp_def]

/-- The first row of an ascending reshape waits for no earlier one. -/
theorem reshapeStepOp_first {c : Chip} {a : Arr} {r : Reshape} (reshape : (c.arr a).reshape = some r) (on : c.repairOn a = true) (going : r.paused = false)
    (calm : r.pausing = false) (rests : r.stepping = false) (synced : (c.arr a).resync = none) (row : r.row = 0)
    (ascending : r.ascending (c.arr a).stripBytes = true) (admitted : (c.stepItems a r 0).all (c.mayAdmit a) = true)
    (free : c.bobsOf a (r.oldStripes (c.arr a).stripBytes 0) = []) :
    reshapeStepOp a c = (c.stepItems a r 0).foldl (fun d x => d.submit x.1 { x.2 with seq := c.takeSeq.1 })
      (c.takeSeq.2.setArr a { c.arr a with starved := false, reshape := some { r with stepping := true, left := (c.stepItems a r 0).length } }) := by
  obtain ⟨n, p, -, same⟩ := c.takeSeq_placed
  have arr : c.takeSeq.2.arr a = c.arr a := by
    rw [same]
    rfl
  rw [Chip.stepItems] at admitted
  unfold reshapeStepOp
  simp only [reshape, row, ascending]
  rw [if_neg (by simp [on, going, calm, rests, synced]), if_neg (by simp only [admitted]; decide), free, List.filter_nil, List.foldl_nil, Chip.modArr, arr]
  rfl

/-! ## The programs REPAIR, INGEST and CHAIN (R486–R500, R608, R664) -/

section
variable {c : Chip} {e : Se} {l : LandResult} {r : Run} {i : Item} {is : List Item} (took : r.taken = i :: is)
include took

section
variable (runs : c.stock e 0x10002 0 = some r) (settled : c.writesWait i.array = false)
include runs settled

theorem rebuildOp_copies {t : Retire} (copy : i.origin = 4) (retire : (c.arr i.array).retire = some t) (row : t.row = i.pos) :
    rebuildOp e .confirmed c = (c.copyRow i.array t).endStock e stOk := by
  unfold rebuildOp
  simp only [runs, Chip.taken_stock runs took, settled, copy, retire, row]
  rfl

theorem rebuildOp_passes {p : Pass} (chunk : i.origin ≠ 4) (pass : (c.arr i.array).pass = some p)
    (found : (c.passColumns i.array p ((c.arr i.array).geomOf i.stripe) i.stripe (chunkSectors (c.arr i.array).stripBytes (i.field 1 1))).2 = []) :
    rebuildOp e .confirmed c = (((c.passColumns i.array p ((c.arr i.array).geomOf i.stripe) i.stripe
      (chunkSectors (c.arr i.array).stripBytes (i.field 1 1))).1.endStock e stOk).passPhase i.array i.seq) := by
  unfold rebuildOp
  simp only [runs, Chip.taken_stock runs took, settled, pass, if_neg chunk, found]
  rfl

end

section
variable (runs : c.stock e 0x10002 1 = some r)
include runs

theorem scrubOp_skips (bobbin : (c.openBob i.array i.stripe).isSome = true ∨ (c.oldBob i.array i.stripe).isSome = true) :
    scrubOp e l c = (c.setArr i.array { c.arr i.array with
      scrub := (c.arr i.array).scrub.map fun x => { x with skipped := x.skipped + 1 } }).endStock e stOk := by
  unfold scrubOp
  simp only [runs, Chip.taken_stock runs took]
  rw [if_pos bobbin]
  rfl

theorem scrubOp_clean (noOpen : c.openBob i.array i.stripe = none) (noOld : c.oldBob i.array i.stripe = none)
    (readable : ∀ k ∈ chunkSectors (c.arr i.array).stripBytes (i.field 1 1),
      (c.unavailStrips i.array ((c.arr i.array).geomOf i.stripe) i.stripe k 1).length ≤ 2)
    (sound : ∀ j < ((c.arr i.array).geomOf i.stripe).w, c.badChunks i.array ((c.arr i.array).geomOf i.stripe) i.stripe j
      ((chunkSectors (c.arr i.array).stripBytes (i.field 1 1)).headD 0) (chunkSectors (c.arr i.array).stripBytes (i.field 1 1)).length = [])
    (clean : ∀ k ∈ chunkSectors (c.arr i.array).stripBytes (i.field 1 1), ∀ col,
      allSome (c.memberColumn i.array ((c.arr i.array).geomOf i.stripe) i.stripe k) = some col →
        correct ((c.arr i.array).geomOf i.stripe).d col = (.clean, [])) :
    scrubOp e l c = c.endStock e stOk := by
  have noLost : ((chunkSectors (c.arr i.array).stripBytes (i.field 1 1)).flatMap fun k =>
      let u := c.unavailStrips i.array ((c.arr i.array).geomOf i.stripe) i.stripe k 1
      if 2 < u.length then u else []) = [] :=
    List.flatMap_eq_nil_iff.mpr fun k listed => if_neg (readable k listed).not_gt
  have noBad : ((List.range ((c.arr i.array).geomOf i.stripe).w).filter fun j => !(c.badChunks i.array ((c.arr i.array).geomOf i.stripe) i.stripe j
      ((chunkSectors (c.arr i.array).stripBytes (i.field 1 1)).headD 0) (chunkSectors (c.arr i.array).stripBytes (i.field 1 1)).length).isEmpty) = [] :=
    List.filter_eq_nil_iff.mpr fun j listed => by
      rw [sound j (List.mem_range.mp listed)]
      exact Bool.false_ne_true
  have noFix : (((chunkSectors (c.arr i.array).stripBytes (i.field 1 1)).filterMap fun k =>
      (allSome (c.memberColumn i.array ((c.arr i.array).geomOf i.stripe) i.stripe k)).map fun col =>
        (k, correct ((c.arr i.array).geomOf i.stripe).d col)).flatMap fun x => x.2.2.map fun y => (y.1, x.1, y.2)) = [] := by
    refine List.flatMap_eq_nil_iff.mpr fun x found => ?_
    obtain ⟨k, listed, result⟩ := List.mem_filterMap.mp found
    obtain ⟨col, whole, rfl⟩ := Option.map_eq_some_iff.mp result
    simp only [clean k listed col whole, List.map_nil]
  have noStrip (w : Nat) : byStrip w [] = [] := by simp [byStrip]
  unfold scrubOp
  simp only [runs, Chip.taken_stock runs took, noOpen, noOld, noLost, noBad, noFix, noStrip]
  rfl

end

theorem repairReshapeOp_none (runs : c.stock e 0x10002 2 = some r) (ended : (c.arr i.array).reshape = none) :
    repairReshapeOp e l c = c.endStock e stOk := by
  unfold repairReshapeOp
  simp only [runs, Chip.taken_stock runs took, ended]

theorem landFrameOp_lands {d : Chip} {done : List (Item × Nat)} (runs : c.stock e 0x10003 0 = some r)
    (landed : l = .confirmed ∨ (c.gather e (fun j => j.source == 2 && j.origin == i.origin) 64).par.role = .alone)
    (written : (c.gather e (fun j => j.source == 2 && j.origin == i.origin) 64).writeFrames e
      ((c.gather e (fun j => j.source == 2 && j.origin == i.origin) 64).taken e) = some (d, done)) :
    landFrameOp e l c = (done.foldl (fun c x => if x.2 = stOk then c.writeLanded e x.1.array x.1.stripe (c.replaces x.1) x.1.seq else c)
      (d.confirmUpTo e (d.eng e).issued (d.par.role == .alone))).completeFrames e done := by
  unfold landFrameOp
  simp only [runs, Chip.taken_stock runs took, landing_confirmed landed, written]

theorem triggeredOp_copies (runs : c.stock e 0x10004 0 = some r) :
    triggeredOp e c = (c.hbmWrite (i.field 0x20 8) (mread hbmInit c.hbm (i.field 0x18 8) (i.field 0x2C 4))).endStock e stOk := by
  unfold triggeredOp
  simp only [runs, Chip.taken_stock runs took]

end

/-! ## A chunk of a reshape (R506, R507, R509) -/

/-- Sector `k` of data strip `j` of new stripe `st`, as the old side gives it; past the data space it is 0. -/
def Chip.newSector (c : Chip) (a : Nat) (x : Reshape) (S st j k : Nat) : Option (List Byte) :=
  if c.dataEnd a ≤ st * x.new.dataBytes S + j * S + 512 * k then some (List.replicate 512 0)
  else c.oldSector a x.old S (st * x.new.dataBytes S + j * S + 512 * k)

/-- The piece for a sector is found among the pieces of all strips and sectors. -/
theorem find_piece (val : Nat → Nat → List Byte) (js ks : List Nat) {j k : Nat} (hj : j ∈ js) (hk : k ∈ ks) :
    ((js.flatMap fun j => ks.map fun k => (⟨j, 512 * k, val j k⟩ : Piece)).find? fun p => p.strip == j && p.off == 512 * k) = some ⟨j, 512 * k, val j k⟩ := by
  have listed : (⟨j, 512 * k, val j k⟩ : Piece) ∈ js.flatMap fun j => ks.map fun k => (⟨j, 512 * k, val j k⟩ : Piece) :=
    List.mem_flatMap.mpr ⟨j, hj, List.mem_map.mpr ⟨k, hk, rfl⟩⟩
  obtain ⟨p, found⟩ := Option.isSome_iff_exists.mp (List.find?_isSome.mpr ⟨_, listed, by simp⟩ :
    ((js.flatMap fun j => ks.map fun k => (⟨j, 512 * k, val j k⟩ : Piece)).find? fun p => p.strip == j && p.off == 512 * k).isSome = true)
  obtain ⟨j', -, inner⟩ := List.mem_flatMap.mp (List.mem_of_find?_eq_some found)
  obtain ⟨k', -, rfl⟩ := List.mem_map.mp inner
  have hit := List.find?_some found
  obtain ⟨rfl, same⟩ : j' = j ∧ 512 * k' = 512 * k := by simpa using hit
  obtain rfl : k' = k := by omega
  exact found

section
variable {c : Chip} {e : Se} {l : LandResult} {r : Run} {i : Item} {is : List Item} {x : Reshape} (took : r.taken = i :: is)
  (runs : c.stock e 0x10002 2 = some r) (reshape : (c.arr i.array).reshape = some x)
include took runs reshape

theorem repairReshapeOp_waits (early : c.reshapeReady i.array x (c.arr i.array).stripBytes i.seq = false) : repairReshapeOp e l c = c := by
  unfold repairReshapeOp
  simp only [runs, Chip.taken_stock runs took, reshape, early]
  rfl

theorem repairReshapeOp_lands {b : Nat} {d : Chip} {get : Nat → Nat → Option (List Byte)}
    (given : get = c.newSector i.array x (c.arr i.array).stripBytes i.stripe)
    (whole : ∀ j < x.new.d, ∀ k ∈ chunkSectors (c.arr i.array).stripBytes (i.field 1 1),
      (get j k).isSome = true)
    (ready : c.reshapeReady i.array x (c.arr i.array).stripBytes i.seq = true)
    (room : c.roomFor i.array i.stripe (chunksIn (chunkSectors (c.arr i.array).stripBytes (i.field 1 1))) (List.range x.new.w) = true)
    (ring : c.ringRoom i.array 128 = true) (strips : 0 < x.new.d) (landed : l = .confirmed ∨ c.par.role = .alone)
    (bobbin : c.needBob i.array x.new i.stripe = (some b, d)) {u : Chip}
    (built : u = (((chunkSectors (c.arr i.array).stripBytes (i.field 1 1)).foldl (fun v k => v.putColumn b x.new.d k (List.range x.new.d)
      ((List.range x.new.d).map fun j => (get j k).getD []))
        (d.mirrorNew c e false 0 i.array)).mirrorWritten e false b).writeRecords e i.array i.stripe b (c.arr i.array).stripBytes x.new.d false [i]) :
    repairReshapeOp e l c = (u.confirmUpTo e (u.eng e).issued (u.par.role == .alone)).endStock e stOk := by
  subst given
  have noLost : ((List.range x.new.d).filter fun j => (chunkSectors (c.arr i.array).stripBytes (i.field 1 1)).any fun k =>
      (c.newSector i.array x (c.arr i.array).stripBytes i.stripe j k).isNone) = [] := by
    refine List.filter_eq_nil_iff.mpr fun j listed missing => ?_
    obtain ⟨k, sector, none⟩ := List.any_eq_true.mp missing
    have some_ := whole j (List.mem_range.mp listed) k sector
    simp [Option.isNone_iff_eq_none.mp none] at some_
  have column (k : Nat) (sector : k ∈ chunkSectors (c.arr i.array).stripBytes (i.field 1 1)) :
      ((List.range x.new.d).map fun j => ((((List.range x.new.d).flatMap fun j => (chunkSectors (c.arr i.array).stripBytes (i.field 1 1)).map fun k =>
        (⟨j, 512 * k, (c.newSector i.array x (c.arr i.array).stripBytes i.stripe j k).getD (List.replicate 512 0)⟩ : Piece)).find?
          fun p => p.strip == j && p.off == 512 * k).map (·.data)).getD []) =
      (List.range x.new.d).map fun j => (c.newSector i.array x (c.arr i.array).stripBytes i.stripe j k).getD [] := by
    refine List.map_congr_left fun j listed => ?_
    rw [find_piece (fun j k => (c.newSector i.array x (c.arr i.array).stripBytes i.stripe j k).getD (List.replicate 512 0)) _ _ listed sector]
    obtain ⟨bytes, read⟩ := Option.isSome_iff_exists.mp (whole j (List.mem_range.mp listed) k sector)
    simp only [read, Option.map_some, Option.getD_some]
  have columns (v : Chip) : (chunkSectors (c.arr i.array).stripBytes (i.field 1 1)).foldl (fun v k => v.putColumn b x.new.d k (List.range x.new.d)
        ((List.range x.new.d).map fun j => ((((List.range x.new.d).flatMap fun j => (chunkSectors (c.arr i.array).stripBytes (i.field 1 1)).map fun k =>
          (⟨j, 512 * k, (c.newSector i.array x (c.arr i.array).stripBytes i.stripe j k).getD (List.replicate 512 0)⟩ : Piece)).find?
            fun p => p.strip == j && p.off == 512 * k).map (·.data)).getD [])) v =
      (chunkSectors (c.arr i.array).stripBytes (i.field 1 1)).foldl (fun v k => v.putColumn b x.new.d k (List.range x.new.d)
        ((List.range x.new.d).map fun j => (c.newSector i.array x (c.arr i.array).stripBytes i.stripe j k).getD [])) v :=
    List.foldl_ext _ _ v fun w k sector => congrArg (w.putColumn b x.new.d k (List.range x.new.d)) (column k sector)
  unfold repairReshapeOp
  simp only [runs, Chip.taken_stock runs took, reshape, ← Chip.newSector.eq_1, ready, room, ring, landing_confirmed landed, bobbin, noLost, List.length_nil,
    if_neg strips.ne]
  rw [if_neg (by decide), if_pos List.isEmpty_nil, columns, ← built]
  rfl

end

/-- Settles O45: admission, then each program's entry, then the chunk of a reshape sector by sector. -/
theorem repairWork : Obligations.RepairWork := by
  unfold Obligations.RepairWork
  refine ⟨fun s a clocked => ?_, fun s e l r i is clocked took => ?_, fun s e l r i is x clocked runs took reshape => ?_⟩
  · intro c
    refine ⟨fun x on noPass next => ?_, fun off => ?_, fun on fed waits held => ?_, fun on idle days => ?_,
      fun r reshape on going calm rests synced first => ?_⟩
    · obtain ⟨d, op, engines, place, fed⟩ := repairAdmitOp_one on noPass next
      exact ⟨_, d, (onChip_clocked _ clocked).trans (congrArg _ (congrArg s.put op)), rfl, engines, place, fed⟩
    · exact (onChip_clocked _ clocked).trans (congrArg _ (congrArg s.put (repairAdmitOp_off off)))
    · exact (onChip_clocked _ clocked).trans (congrArg _ (congrArg s.put (repairStarvedOp_tells on fed waits held)))
    · exact (onChip_clocked _ clocked).trans (congrArg _ (congrArg s.put (scrubPassStartOp_starts on idle days)))
    · intro items admitted free
      exact ⟨c.stepItems_length a r 0, (onChip_clocked _ clocked).trans (congrArg _ (congrArg s.put
        (reshapeStepOp_first reshape on going calm rests synced first.1 first.2 admitted free)))⟩
  · intro c a st g
    refine ⟨fun t runs settled copy retire row => ?_, fun p runs settled chunk pass found => ?_, fun runs bobbin => ?_, ?_, fun runs ended => ?_, ?_,
      fun runs => ?_⟩
    · exact (onChip_clocked _ clocked).trans (congrArg _ (congrArg s.put (rebuildOp_copies took runs settled copy retire row)))
    · exact (onChip_clocked _ clocked).trans (congrArg _ (congrArg s.put (rebuildOp_passes took runs settled chunk pass found)))
    · exact (onChip_clocked _ clocked).trans (congrArg _ (congrArg s.put (scrubOp_skips took runs bobbin)))
    · intro ks runs noOpen noOld readable sound clean
      exact (onChip_clocked _ clocked).trans (congrArg _ (congrArg s.put (scrubOp_clean took runs noOpen noOld readable sound clean)))
    · exact (onChip_clocked _ clocked).trans (congrArg _ (congrArg s.put (repairReshapeOp_none took runs ended)))
    · intro d done runs c1 landed written
      exact (onChip_clocked _ clocked).trans (congrArg _ (congrArg s.put (landFrameOp_lands took runs landed written)))
    · exact (onChip_clocked _ clocked).trans (congrArg _ (congrArg s.put (triggeredOp_copies took runs)))
  · intro c a st S g ks at0 get
    refine ⟨fun b d whole ready room ring strips landed bobbin => ?_, fun early => ?_⟩
    · exact (onChip_clocked _ clocked).trans (congrArg _ (congrArg s.put
        (repairReshapeOp_lands took runs reshape (get := get) rfl whole ready room ring strips landed bobbin rfl)))
    · exact (onChip_clocked _ clocked).trans (congrArg _ (congrArg s.put (repairReshapeOp_waits took runs reshape early)))

end Sys2Proof.Machine
end

section
/-! Settles O46: the issue of destage items, the plan, and the spill copies (R420, R437, R445–R454). -/

namespace Sys2Proof.Machine

section
variable {c : Chip} (clocked : c.clocked = true) (serves : c.vault.stopped = false)
include clocked serves

/-! ## Destage items (R437, R445) -/

section
variable {b : Fin 16384}

theorem destageIssueOp_issues (due : c.bobState b = 1 ∨ c.bobState b = 2)
    (first : c.bobState b = 1 → c.oldBob (c.bobArray b) (c.bobStripe b) = none) (on : c.serving = true) (settled : c.par.handing = .none)
    (new : b.val ∉ c.cache.issued) : destageIssueOp b c = c.checkPlan.issueDestage b := by
  unfold destageIssueOp
  refine if_neg ?_
  rcases due with opened | destaging
  · simp [opened, first opened, on, settled, clocked, serves, new]
  · simp [destaging, on, settled, clocked, serves, new]

omit clocked serves in
theorem destageIssueOp_rests (rests : c.bobState b = 0 ∨ b.val ∈ c.cache.issued ∨ c.serving = false) : destageIssueOp b c = c := by
  unfold destageIssueOp
  refine if_pos ?_
  rcases rests with free | issued | off
  · simp [free]
  · simp [issued]
  · simp [off]

end

/-! ## The plan (R420, R452–R454) -/

/-- The pair plan: the unit's own, or the partner's where that is smaller. -/
def Chip.pairPlan (c : Chip) (own : Nat) : Nat := if c.partnerSeen && decide (c.par.partnerPlan < own) then c.par.partnerPlan else own

/-- The chip with a plan taken. -/
def Chip.planned (c : Chip) (own : Nat) : Chip := { c with cache := { c.cache with
  ownQ := own, pairQ := c.pairPlan own, partnerSmaller := c.partnerSeen && decide (c.par.partnerPlan < own), eMeas := min 65535 c.age.eAcc } }

theorem planChangeOp_takes : planChangeOp c =
    (if c.pairPlan (planQ c.age.eAcc (c.eff 26 0x100 0)) = c.cache.pairQ then c.planned (planQ c.age.eAcc (c.eff 26 0x100 0))
      else ((c.planned (planQ c.age.eAcc (c.eff 26 0x100 0))).writeRegionHeader (c.pairPlan (planQ c.age.eAcc (c.eff 26 0x100 0)))).vaultEvent 3 0
        (c.planned (planQ c.age.eAcc (c.eff 26 0x100 0))).pages).checkPlan.writesEnabled :=
  if_neg (by simp [clocked, serves])

/-! ## Spill copies (R446–R449) -/

section
variable {a : Arr}

theorem spillCopyOp_copies {o n j : Nat} (on : c.serving = true) (made : (c.arr a).made = true) (recovered : (c.arr a).recovered = true)
    (spills : (c.arr a).spills ≠ []) (landed : ∀ e < 16, (c.eng e).tickets = []) (settled : c.writesWait a = false)
    (due : spillRun (c.arr a).spillJseq (c.records a) none = some (o, n, j)) :
    spillCopyOp a c = (((c.arr a).spills.foldl (fun d y => d.spillPut a y o (c.ringRead a o n)) c).modArr a fun x => { x with spillJseq := j }).writeSpillHeader a := by
  have none : ((List.range 16).all fun e => (c.eng e).tickets.isEmpty) = true :=
    List.all_eq_true.mpr fun e small => by rw [landed e (List.mem_range.mp small)]; rfl
  unfold spillCopyOp
  simp only [none, due]
  rw [if_neg (by simp [on, clocked, serves, made, recovered, spills, settled])]

omit clocked serves in
theorem spillCopyOp_off (off : c.serving = false) : spillCopyOp a c = c := by
  unfold spillCopyOp
  rw [if_pos (.inl (by simp [off]))]

end

end

/-! ## The plan of an energy (R452) -/

section
variable (e m : Nat)

theorem planQ_poor (poor : e * 10 * 72 / 100 ≤ 2000) : planQ e m = 0 := if_pos poor

theorem planQ_rich (rich : ¬ e * 10 * 72 / 100 ≤ 2000) : planQ e m =
    if min (min ((e * 10 * 72 / 100 - 2000) * 4 / 2000) m) 32 < 4 then 0 else min (min ((e * 10 * 72 / 100 - 2000) * 4 / 2000) m) 32 := if_neg rich

/-- The plan is 0 or at least four quarters, within both limits, and the most that the energy pays. -/
theorem planQ_bounds : planQ e m ≤ 32 ∧ planQ e m ≤ m ∧ (planQ e m = 0 ∨ 4 ≤ planQ e m) ∧ (e * 10 * 72 / 100 ≤ 2000 → planQ e m = 0) ∧
    ∀ k, 4 ≤ k → k ≤ m → k ≤ 32 → (k ≤ planQ e m ↔ 2000 + 500 * k ≤ e * 10 * 72 / 100) := by
  by_cases poor : e * 10 * 72 / 100 ≤ 2000
  · rw [planQ_poor e m poor]
    exact ⟨by omega, by omega, .inl rfl, fun _ => rfl, fun k _ _ _ => by omega⟩
  · rw [planQ_rich e m poor]
    generalize e * 10 * 72 / 100 = mj at poor
    split
    · exact ⟨by omega, by omega, .inl rfl, fun _ => rfl, fun k _ _ _ => by omega⟩
    · exact ⟨by omega, by omega, .inr (by omega), fun _ => by omega, fun k _ _ _ => by omega⟩

end

/-- Settles O46: the three commands by their equations, and the plan by arithmetic. -/
theorem planAndSpill : Obligations.PlanAndSpill := by
  unfold Obligations.PlanAndSpill
  refine ⟨fun s b a clocked serves => ?_, planQ_bounds⟩
  intro c st own
  refine ⟨fun due first on settled new => ?_, fun rests => ?_, ?_, fun o n j on made recovered spills landed settled due => ?_, fun off => ?_⟩
  · exact (onChip_clocked _ clocked).trans (congrArg _ (congrArg s.put (destageIssueOp_issues clocked serves due first on settled new)))
  · exact (onChip_clocked _ clocked).trans (congrArg _ (congrArg s.put (destageIssueOp_rests rests)))
  · exact (onChip_clocked _ clocked).trans (congrArg _ (congrArg s.put (planChangeOp_takes clocked serves)))
  · exact (onChip_clocked _ clocked).trans (congrArg _ (congrArg s.put
      (spillCopyOp_copies clocked serves on made recovered spills landed settled due)))
  · exact (onChip_clocked _ clocked).trans (congrArg _ (congrArg s.put (spillCopyOp_off off)))

end Sys2Proof.Machine
end

section
/-! Obligation O47: PWR_FAIL, the dump, the erase of a slot, and the recovery of an array. -/

namespace Sys2Proof.Machine

/-- `t` keeps the vault and the pulses of `c`. -/
def Chip.VaultKept (c t : Chip) : Prop := t.vault = c.vault ∧ t.pulses = c.pulses

theorem Chip.VaultKept.refl (c : Chip) : c.VaultKept c := ⟨rfl, rfl⟩

theorem Chip.VaultKept.trans {c d t : Chip} (first : c.VaultKept d) (second : d.VaultKept t) : c.VaultKept t :=
  ⟨second.1.trans first.1, second.2.trans first.2⟩

/-- A run over a list of steps that each keep the vault keeps it. -/
theorem Chip.foldl_vaultKept {α : Type} {h : Chip → α → Chip} (kept : ∀ (c : Chip) x, c.VaultKept (h c x)) (l : List α) (c : Chip) :
    c.VaultKept (l.foldl h c) := by
  induction l generalizing c with
  | nil => exact .refl c
  | cons x l ih => exact (kept c x).trans (ih _)

section
variable (c : Chip) (n : Nat) (d : Desc)

theorem Chip.spWrite_vaultKept (e sp a : Nat) (l : List Byte) : c.VaultKept (c.spWrite e sp a l) := by
  rcases c.spWrite_cases e sp a l with ⟨rfl, w⟩ | ⟨rfl, w⟩ | ⟨rfl, p, w⟩ | ⟨-, w⟩ <;> rw [w] <;> exact ⟨rfl, rfl⟩

theorem Chip.hostWrite_vaultKept (f a : Nat) (l : List Byte) : c.VaultKept (c.hostWrite f a l) := by
  unfold Chip.hostWrite
  split <;> exact ⟨rfl, rfl⟩

theorem Chip.destWrite_vaultKept (off : Nat) (l : List Byte) : c.VaultKept (c.destWrite n d off l) := by
  unfold Chip.destWrite
  dsimp only
  split
  · exact (c.spWrite_vaultKept ..).trans ⟨rfl, rfl⟩
  · split
    · split
      · exact ⟨rfl, rfl⟩
      · exact (c.hostWrite_vaultKept ..).trans ⟨rfl, rfl⟩
    · exact .refl c

theorem Chip.writePieces_vaultKept (ps : List (Nat × List Byte)) (k : Nat) : c.VaultKept (c.writePieces n d ps k) := by
  induction ps generalizing c k with
  | nil => exact .refl c
  | cons p ps ih =>
    obtain ⟨o, l⟩ := p
    unfold Chip.writePieces
    split
    · exact .refl c
    · exact (c.destWrite_vaultKept ..).trans (ih ..)

theorem Chip.modChan_vaultKept (f : Channel → Channel) : c.VaultKept (c.modChan n f) := ⟨rfl, rfl⟩

theorem Chip.fresh_vaultKept (k : Nat) : c.VaultKept (c.fresh k).2 := ⟨rfl, rfl⟩

theorem Chip.endChain_vaultKept (by0 : Nat) : c.VaultKept (c.endChain n by0) := ⟨rfl, rfl⟩

/-- A channel that is cut leaves the vault alone. -/
theorem Chip.cutChan_vaultKept : c.VaultKept (c.cutChan n) := by
  have torn : ∀ d, c.VaultKept (c.tearDesc n d) := fun d =>
    VaultKept.trans (d := { c with free := c.free + 1 }) ⟨rfl, rfl⟩ (Chip.writePieces_vaultKept ..)
  unfold Chip.cutChan
  dsimp only
  split
  · exact (torn _).trans ((Chip.fresh_vaultKept _ _).trans ((Chip.modChan_vaultKept ..).trans (Chip.endChain_vaultKept ..)))
  · exact c.endChain_vaultKept n 2
  · exact .refl c

end

/-- What PWR_FAIL_ASSERT does before the dump starts: a hold-up test and the channels end. -/
def Chip.endTransfers (c : Chip) : Chip :=
  let c := if c.age.hupRunning.isSome then { (c.emit (.hupTest false)) with age := { c.age with hupRunning := none, hupTestPin := false } } else c
  (List.range 64).foldl (fun c n => c.cutChan n) c

theorem Chip.endTransfers_vaultKept (c : Chip) : c.VaultKept c.endTransfers := by
  unfold Chip.endTransfers
  refine VaultKept.trans ?_ (Chip.foldl_vaultKept (fun c n => c.cutChan_vaultKept n) _ _)
  split <;> exact ⟨rfl, rfl⟩

/-- The engines listed halt. -/
def Chip.haltEngines (c : Chip) (l : List Nat) : Chip := l.foldl (fun c e => c.modEng e Engine.halt) c

/-- The engines listed halt, and mirroring and the journal leave the queue to the partner (R460). -/
def Chip.powerStop (c : Chip) (l : List Nat) : Chip :=
  let c := c.haltEngines l
  { c with
    par := { c.par with queue := c.par.queue.filter fun m => m.cls != 5 && m.cls != 6 }
    vault := { c.vault with stopped := true } }

section
variable (c : Chip) (l : List Nat)

theorem Chip.haltEngines_frame : c.haltEngines l = { c with engines := (c.haltEngines l).engines } :=
  Chip.foldl_modEng_engines (h := fun _ => Engine.halt) l c

theorem Chip.powerStop_eng (once : l.Nodup) {e : Nat} (listed : e ∈ l) : (c.powerStop l).eng e = (c.eng e).halt := by
  refine (Chip.eng_foldl_modEng (h := fun _ => Engine.halt) once c e).trans ?_
  rw [if_pos listed]

theorem Chip.powerStop_vault : (c.powerStop l).vault = { c.vault with stopped := true } := by
  unfold Chip.powerStop
  rw [c.haltEngines_frame]

theorem Chip.powerStop_pulses : (c.powerStop l).pulses = c.pulses := by
  unfold Chip.powerStop
  rw [c.haltEngines_frame]

/-- No mirroring and no journal message is left. -/
theorem Chip.powerStop_queue : ∀ m ∈ (c.powerStop l).par.queue, m.cls ≠ 5 ∧ m.cls ≠ 6 := by
  intro m at0
  have kept := (List.mem_filter.mp at0).2
  simpa using kept

end

/-- The start of a dump moves nothing but the vault: the armed slot is no longer armed, and its dump runs (R457, R459). -/
theorem Chip.dumpStart_vault (c : Chip) : ∃ v : Vault, c.dumpStart = { c with vault := v } ∧ v.pwrFail = c.vault.pwrFail ∧ v.stopped = c.vault.stopped ∧
    v.dumping = (c.vault.armed || c.vault.dumping) ∧ v.armed = false := by
  unfold Chip.dumpStart
  dsimp only
  cases armed : c.vault.armed with
  | false =>
    rw [if_pos (by decide)]
    exact ⟨c.vault, rfl, rfl, rfl, rfl, armed⟩
  | true =>
    rw [if_neg (by decide)]
    refine ⟨_, rfl, ?_, ?_, rfl, rfl⟩ <;> cases c.vault.armedSlot <;> rfl

theorem Chip.clocked_awake {c : Chip} (clocked : c.clocked = true) : c.pwr.state ≠ .off ∧ c.pwr.state ≠ .siding := by
  simpa [Chip.clocked] using clocked

theorem pwrFailAssert_case {c : Chip} (clocked : c.clocked = true) (good : c.vault.pwrFail = false) :
    pwrFailAssertOp c = ((({ c with vault := { c.vault with pwrFail := true } }.pulse 0xEC).request 0xFFFFFFF).endTransfers.powerStop (List.range 20)).dumpStart := by
  obtain ⟨on, up⟩ := Chip.clocked_awake clocked
  unfold pwrFailAssertOp
  rw [if_neg (by simp [good, on])]
  extract_lets +onlyGivenNames v d
  have awake : d.pwr.state ≠ .siding := up
  show _ = (d.endTransfers.powerStop (List.range 20)).dumpStart
  rw [if_neg awake]
  clear_value d
  simp only [Chip.powerStop, Chip.haltEngines, Chip.endTransfers]

/-- PWR_FAIL with the clocks running stops the unit and begins the dump (R459–R461). -/
theorem pwrFailAssert_stops {c : Chip} (clocked : c.clocked = true) (good : c.vault.pwrFail = false) :
    (pwrFailAssertOp c).vault.pwrFail = true ∧ (pwrFailAssertOp c).vault.stopped = true ∧ 0xEC ∈ (pwrFailAssertOp c).pulses ∧
      (∀ e < 20, ((pwrFailAssertOp c).eng e).run = none ∧ ((pwrFailAssertOp c).eng e).wait = none ∧ ((pwrFailAssertOp c).eng e).actions = []) ∧
      (∀ m ∈ (pwrFailAssertOp c).par.queue, m.cls ≠ 5 ∧ m.cls ≠ 6) ∧
      (pwrFailAssertOp c).vault.dumping = (c.vault.armed || c.vault.dumping) ∧ (pwrFailAssertOp c).vault.armed = false := by
  rw [pwrFailAssert_case clocked good]
  obtain ⟨vault, pulses⟩ := (({ c with vault := { c.vault with pwrFail := true } }.pulse 0xEC).request 0xFFFFFFF).endTransfers_vaultKept
  generalize (({ c with vault := { c.vault with pwrFail := true } }.pulse 0xEC).request 0xFFFFFFF).endTransfers = q at vault pulses
  have engines : ∀ e < 20, e ∈ List.range 20 := fun e below => List.mem_range.mpr below
  have once : (List.range 20).Nodup := List.nodup_range
  generalize List.range 20 = l at engines once
  obtain ⟨v, started, fail, stopped, dumping, armed⟩ := (q.powerStop l).dumpStart_vault
  rw [Chip.powerStop_vault] at fail stopped dumping
  rw [started]
  refine ⟨by rw [fail, vault]; rfl, stopped, ?_, fun e below => ?_, q.powerStop_queue l, by rw [dumping, vault]; rfl, armed⟩
  · show _ ∈ (q.powerStop l).pulses
    rw [q.powerStop_pulses, pulses]
    exact List.mem_append_right _ (List.mem_singleton.mpr rfl)
  · have halted : ({ q.powerStop l with vault := v } : Chip).eng e = (q.eng e).halt := q.powerStop_eng l once (engines e below)
    rw [halted]
    exact ⟨rfl, rfl, rfl⟩

theorem Vault.setSlot_armedSlot (v : Vault) (k : Bool) (i : Option VaultImage) : (v.setSlot k i).armedSlot = v.armedSlot := by
  cases k <;> rfl

theorem Vault.slot_setSlot_self (v : Vault) (k : Bool) (i : Option VaultImage) : (v.setSlot k i).slot k = i := by
  cases k <;> rfl

theorem Vault.slot_setSlot_not (v : Vault) (k : Bool) (i : Option VaultImage) : (v.setSlot k i).slot (!k) = v.slot (!k) := by
  cases k <;> rfl

/-- The end of a dump while PWR_FAIL stands: the image is complete and current, and the other slot stays (R459, R464). -/
theorem vaultDumpEnd_case {c : Chip} {i : VaultImage} (dumping : c.vault.dumping = true) (image : c.vault.slot c.vault.armedSlot = some i)
    (fail : c.vault.pwrFail = true) : ∃ v : Vault, vaultDumpEndOp c = { c with vault := v } ∧ v.dumping = false ∧
      v.current = some c.vault.armedSlot ∧ v.imageSeq = i.seq ∧ v.slot c.vault.armedSlot = some { i with complete := true } ∧
      v.slot (!c.vault.armedSlot) = c.vault.slot (!c.vault.armedSlot) := by
  have ended : c.dumpEnd = { c with vault := { c.vault.setSlot c.vault.armedSlot (some { i with complete := true }) with
      dumping := false, current := some (c.vault.setSlot c.vault.armedSlot (some { i with complete := true })).armedSlot, imageSeq := i.seq, lastPages := i.pages,
      lastDuration := min (2 ^ 32 - 1) ((c.tmb.up - (c.vault.setSlot c.vault.armedSlot (some { i with complete := true })).dumpStart) / 2 ^ 16 / 1000) } } := by
    unfold Chip.dumpEnd
    simp only [dumping, image, Bool.not_true, Bool.false_eq_true, if_false]
  have stands : c.dumpEnd.vault.pwrFail = true := by
    rw [ended]
    cases slot : c.vault.armedSlot <;> exact fail
  have op : vaultDumpEndOp c = c.dumpEnd := by
    unfold vaultDumpEndOp Chip.afterDump
    rw [if_pos dumping, if_neg (by simp [stands])]
  refine ⟨c.dumpEnd.vault, ?_, ?_⟩
  · rw [op, ended]
  · rw [ended]
    exact ⟨rfl, congrArg some (Vault.setSlot_armedSlot ..), rfl, c.vault.slot_setSlot_self .., c.vault.slot_setSlot_not ..⟩

theorem Vault.setErased_armed (v : Vault) (k e : Bool) : (v.setErased k e).armed = v.armed := by
  cases k <;> rfl

theorem vaultEraseDone_armed {c : Chip} {k : Bool} (erasing : c.vault.erasing = some k) (armed : c.vault.armed = true) :
    vaultEraseDoneOp c = Chip.writesEnabled { c with vault := { c.vault.setErased k true with erasing := none } } := by
  unfold vaultEraseDoneOp
  rw [erasing]
  simp only []
  rw [if_pos (by rw [Vault.setErased_armed, armed])]

theorem vaultEraseDone_arms {c : Chip} {k : Bool} (erasing : c.vault.erasing = some k) (armed : c.vault.armed = false) :
    vaultEraseDoneOp c = Chip.writesEnabled { c with vault := { c.vault.setErased k true with erasing := none, armed := true, armedSlot := k } } := by
  unfold vaultEraseDoneOp
  rw [erasing]
  simp only []
  rw [if_neg (by rw [Vault.setErased_armed, armed]; decide)]

/-- The chip as a recovery finds it, its image loaded (R464). -/
def Chip.imageLoaded (c : Chip) : Chip :=
  { c with vault := { c.vault with current := c.vault.newest, imageSeq := match c.vault.newest with | some s => c.vault.seqOf s | none => 0 } }

section
variable {c : Chip} {a : Arr} {f : RecoveryFacts} (clocked : c.clocked = true) (serving : c.vault.stopped = false) (free : (c.arr a).made = false)
include clocked serving free

/-- With no metadata there is nothing to recover (R870). -/
theorem startRecovery_nothing (none0 : c.imageLoaded.claims a = []) : startRecoveryOp a f c = c.imageLoaded.startErase := by
  have unchosen : c.imageLoaded.chooseUid a f (c.imageLoaded.claims a) = none := by
    rw [none0]
    unfold Chip.chooseUid
    cases f.partnerUid <;> cases c.imageLoaded.imageFor a <;> simp [majority]
  unfold startRecoveryOp
  rw [if_neg (by simp [clocked, serving, free])]
  extract_lets +onlyGivenNames v d
  have same : d = c.imageLoaded := rfl
  clear_value d
  subst same
  simp only [unchosen]

/-- The array is that of the newest superblock of the chosen UID (R412, R464–R466, R537). -/
theorem startRecovery_found {uid : Nat} {sb : Super} (chosen : c.imageLoaded.chooseUid a f (c.imageLoaded.claims a) = some uid)
    (newest : newestSuper ((c.imageLoaded.claims a).filter fun x => x.2.uid == uid) = some sb) : ∃ lost ck hgen spillEpoch hds,
      let cl := c.imageLoaded.claims a
      let read := (c.imageLoaded.setArr a (arrayOf sb lost ck hgen)).readVolumes a ((cl.filter fun x => x.2.uid == uid).map (·.1))
      let d := ((cl.map (·.1)).foldl (fun d m => d.completeAttach m) read).recoverJournal a f spillEpoch hds
      startRecoveryOp a f c = (d.changeArr a d.nextPlace fun r => { r with recovered := true }).startErase.allAttached := by
  have op := startRecoveryOp.eq_1 a f c
  rw [if_neg (by simp [clocked, serving, free])] at op
  extract_lets +onlyGivenNames v d at op
  have same : d = c.imageLoaded := rfl
  clear_value d
  subst same
  simp only [chosen, newest] at op
  exact ⟨_, _, _, _, _, op⟩

end

/-- Settles O47: PWR_FAIL through what it stops and the dump it begins, and START_RECOVERY through the UID it chooses. -/
theorem powerFailAndRecovery : Obligations.PowerFailAndRecovery := by
  unfold Obligations.PowerFailAndRecovery
  refine ⟨fun s => ⟨fun good clocked => ?_, fun fail => ?_, fun i clocked dumping image fail => ?_, fun going => ?_, fun stopped ended => ?_,
    fun k clocked erasing armed => ?_, fun k clocked erasing armed => ?_⟩, fun s a f clocked serving free => ⟨fun nothing => ?_, fun uid sb chosen newest => ?_⟩⟩
  · exact ⟨s.put (pwrFailAssertOp s.chip), onAon_eq _ s, s.put_pending _, pwrFailAssert_stops clocked good⟩
  · have op : pwrFailAssertOp s.chip = s.chip := if_pos (.inl fail)
    exact (onAon_eq _ s).trans (congrArg _ (congrArg s.put op))
  · obtain ⟨v, op, ended⟩ := vaultDumpEnd_case dumping image fail
    obtain ⟨stops, current, seq, complete, other⟩ := ended
    refine ⟨s.put (vaultDumpEndOp s.chip), onChip_clocked _ clocked, s.put_pending _, ?_⟩
    rw [State.put_chip, op]
    exact ⟨stops, current, seq, complete, other, rfl⟩
  · have op : pwrFailDeassertOp s.chip = { s.chip with vault := { s.chip.vault with pwrFail := false } } := if_neg (by simp [going])
    exact (onAon_eq _ s).trans (congrArg _ (congrArg s.put op))
  · have op : pwrFailDeassertOp s.chip = Chip.chipReset { s.chip with vault := { s.chip.vault with pwrFail := false } } 4 0 0 false :=
      if_pos (by simp [stopped, ended])
    exact (onAon_eq _ s).trans (congrArg _ (congrArg s.put op))
  · exact (onChip_clocked _ clocked).trans (congrArg _ (congrArg s.put (vaultEraseDone_armed erasing armed)))
  · exact (onChip_clocked _ clocked).trans (congrArg _ (congrArg s.put (vaultEraseDone_arms erasing armed)))
  · exact (onChip_clocked _ clocked).trans (congrArg _ (congrArg s.put (startRecovery_nothing clocked serving free nothing)))
  · obtain ⟨lost, ck, hgen, spillEpoch, hds, op⟩ := startRecovery_found clocked serving free chosen newest
    exact ⟨lost, ck, hgen, spillEpoch, hds, (onChip_clocked _ clocked).trans (congrArg _ (congrArg s.put op))⟩

end Sys2Proof.Machine
end

section
/-! Obligation O48: a remote-memory packet that arrives, the context fetch, and what a packet meets on a queue pair. -/

namespace Sys2Proof.Machine

/-! ### Queue pairs -/

section
variable (c : Chip) (n : Nat) (q : Option Qp)

@[simp] theorem Chip.qp_setQp_self : (c.setQp n q).qp n = q := tget_put_self ..

theorem Chip.qp_setQp_ne {k : Nat} (other : k ≠ n) : (c.setQp n q).qp k = c.qp k := tget_put_other _ _ _ _ other

end

/-- A queue pair that exists changes. -/
theorem Chip.modQp_some {c : Chip} {n : Nat} {q : Qp} (h : c.qp n = some q) (f : Qp → Qp) : c.modQp n f = c.setQp n (some (f q)) := by
  rw [Chip.modQp, h]

/-- The use of a context marks it, and leaves the other queue pairs (R648). -/
theorem Chip.useQp_some {c : Chip} {n : Nat} {q : Qp} (h : c.qp n = some q) : (c.useQp n).qp n = some { q with used := c.rma.uses } ∧
    (∀ k, k ≠ n → (c.useQp n).qp k = c.qp k) ∧ (c.useQp n).rma.uses = c.rma.uses + 1 := by
  have there : (c.modRma fun r => { r with uses := c.rma.uses + 1 }).qp n = some q := h
  have used : c.useQp n = (c.modRma fun r => { r with uses := c.rma.uses + 1 }).setQp n (some { q with used := c.rma.uses }) :=
    Chip.modQp_some there _
  rw [used]
  exact ⟨Chip.qp_setQp_self .., fun k other => Chip.qp_setQp_ne _ _ _ other, rfl⟩

/-- A context with a free slot comes on chip, the most recent of all (R650). -/
theorem Chip.bringIn_some {c : Chip} {n : Nat} {q : Qp} (h : c.qp n = some q) (room : c.residents.length < 16384) :
    (c.bringIn n).qp n = some { q with resident := true, used := c.rma.uses } ∧ (∀ k, k ≠ n → (c.bringIn n).qp k = c.qp k) ∧
      (c.bringIn n).rma.uses = c.rma.uses + 1 := by
  have op : c.bringIn n = (c.setQp n (some { q with resident := true })).useQp n := by
    unfold Chip.bringIn
    simp only [if_pos room]
    rw [Chip.modQp_some h]
  obtain ⟨here, others, uses⟩ := Chip.useQp_some (c.qp_setQp_self n (some { q with resident := true }))
  rw [op]
  exact ⟨here, fun k other => (others k other).trans (c.qp_setQp_ne n _ other), uses⟩

/-! ### Packets that arrive -/

section
variable {c : Chip} {p : Packet} (clocked : c.clocked = true) (up : (c.port p.port).linkUp = true) (serves : c.netServes = true)
  (free : c.par.handing = .none) (plain : p.ecnCe = false)
include clocked up serves free plain

theorem rmaPacketReceive_corrupt (bad : p.icrcOk = false) : rmaPacketReceiveOp p c = c.modRma fun r => { r with icrcErr := satAdd 32 r.icrcErr 1 } := by
  unfold rmaPacketReceiveOp
  rw [if_neg (by simp [clocked, up, serves, free])]
  simp [plain, bad]

theorem rmaPacketReceive_sound (good : p.icrcOk = true) : rmaPacketReceiveOp p c = (match c.qp p.qpn.toNat with
    | none => c.noQp
    | some q =>
      if q.port ≠ p.port.val then c.noQp
      else if q.resident then (c.useQp p.qpn.toNat).processPacket p
      else if 128 < c.missCells p.port + (p.length + 255) / 256 then
        c.modRma fun r => { r with missDrop := tput r.missDrop 0 p.port ((tget r.missDrop 0 p.port + 1) % 2 ^ 64) }
      else ((c.grant 6 ((p.length + 255) / 256)).modRma fun r =>
        { r with miss := tput r.miss [] p.port (tget r.miss [] p.port ++ [p]) }).request (2 ^ 26)) := by
  unfold rmaPacketReceiveOp
  rw [if_neg (by simp [clocked, up, serves, free])]
  simp only [plain, good, Bool.false_eq_true, if_false, Bool.not_true] <;> rfl

/-- A packet for a queue pair that does not exist, or on another port than its own, is counted (R622). -/
theorem rmaPacketReceive_stray (good : p.icrcOk = true) (stray : ((c.qp p.qpn.toNat).all fun q => decide (q.port ≠ p.port.val)) = true) :
    rmaPacketReceiveOp p c = c.noQp := by
  rw [rmaPacketReceive_sound clocked up serves free plain good]
  cases h : c.qp p.qpn.toNat with
  | none => rfl
  | some q =>
    have elsewhere : q.port ≠ p.port.val := by simpa [h] using stray
    exact if_pos elsewhere

section
variable {q : Qp} (good : p.icrcOk = true) (pair : c.qp p.qpn.toNat = some q) (own : q.port = p.port.val)
include good pair own

theorem rmaPacketReceive_own : rmaPacketReceiveOp p c =
    if q.resident then (c.useQp p.qpn.toNat).processPacket p
    else if 128 < c.missCells p.port + (p.length + 255) / 256 then
      c.modRma fun r => { r with missDrop := tput r.missDrop 0 p.port ((tget r.missDrop 0 p.port + 1) % 2 ^ 64) }
    else ((c.grant 6 ((p.length + 255) / 256)).modRma fun r =>
      { r with miss := tput r.miss [] p.port (tget r.miss [] p.port ++ [p]) }).request (2 ^ 26) := by
  rw [rmaPacketReceive_sound clocked up serves free plain good, pair]
  exact if_neg (not_not_intro own)

end

end

/-- The context that a fetch brings in, with no packet waiting for it (R648, R650). -/
theorem contextFetchDone_brings {c : Chip} {qpn : BitVec 18} {q : Qp} (clocked : c.clocked = true) (pair : c.qp qpn.toNat = some q)
    (awake : c.isGated 26 = false) (nobody : ∀ x ∈ c.rma.miss, ∀ y ∈ x.2, y.qpn ≠ qpn) (away : q.resident = false) (room : c.residents.length < 16384) :
    (contextFetchDoneOp qpn c).qp qpn.toNat = some { q with resident := true, used := c.rma.uses } ∧
      (∀ k, k ≠ qpn.toNat → (contextFetchDoneOp qpn c).qp k = c.qp k) ∧ (contextFetchDoneOp qpn c).rma.uses = c.rma.uses + 1 := by
  have mine : (c.rma.miss.flatMap fun x => x.2.filter fun p => p.qpn == qpn) = [] := by
    refine List.flatMap_eq_nil_iff.mpr fun x at0 => List.filter_eq_nil_iff.mpr fun y at1 => ?_
    simpa using nobody x at0 y at1
  have op : contextFetchDoneOp qpn c = (c.bringIn qpn.toNat).modRma fun r =>
      { r with miss := (r.miss.map fun x => (x.1, x.2.filter fun p => p.qpn != qpn)).filter fun x => !x.2.isEmpty } := by
    unfold contextFetchDoneOp
    rw [if_neg (by simp [clocked, pair, awake])]
    simp only [mine, pair, Option.map_some, Option.getD_some, away, List.foldl_nil, Bool.false_eq_true, if_false]
  rw [op]
  exact Chip.bringIn_some pair room

/-! ### What a packet meets -/

theorem toSigned_later {d : Nat} (later : 0 < d) (half : d < 2 ^ 23) : 0 < toSigned 24 d := by
  have small : d % 2 ^ 24 = d := Nat.mod_eq_of_lt (by omega)
  rw [toSigned, if_neg (by omega)]
  exact_mod_cast small.symm ▸ later

section
variable {c : Chip} {p : Packet} {q : Qp} (pair : c.qp p.qpn.toNat = some q) (own : q.port = p.port.val) (plain : q.sealing = false)
include pair own plain

omit own plain in
theorem processPacket_idle (other : q.state ≠ .rts) : c.processPacket p = c.noQp := by
  unfold Chip.processPacket
  simp only [pair]
  exact if_pos (.inr other)

section
variable (ready : q.state = .rts)
include ready

/-- Past step 3 a packet is early, late, or at its place (R635, R642, R643). -/
theorem processPacket_serving : c.processPacket p =
    (if 0 < toSigned 24 ((p.psn.toNat + 2 ^ 24 - q.rqPsn) % 2 ^ 24) then
      (if q.nakked then c else (c.nak p.qpn.toNat q.rqPsn 0).modQp p.qpn.toNat fun q => { q with nakked := true })
    else if toSigned 24 ((p.psn.toNat + 2 ^ 24 - q.rqPsn) % 2 ^ 24) < 0 then c.duplicate p.qpn.toNat q p
    else if !c.rma.ready then c.rnr p.qpn.toNat p.psn.toNat
    else if p.op = .other then c.nak p.qpn.toNat p.psn.toNat 1
    else match q.msgs.find? fun m => !m.whole, p.pos with
      | some m, .middle | some m, .last =>
        if m.op = p.op then
          (c.modQp p.qpn.toNat fun q => { q with rqPsn := (q.rqPsn + 1) % 2 ^ 24, nakked := false }).continueMsg p.qpn.toNat m p m.len
        else c.nak p.qpn.toNat p.psn.toNat 1
      | none, .only | none, .first => c.firstPacket p.qpn.toNat q p false
      | _, _ => c.nak p.qpn.toNat p.psn.toNat 1) := by
  have opened : c.unseal p.qpn.toNat q p = (true, c) := if_pos (by simp [plain])
  unfold Chip.processPacket
  simp only [pair]
  rw [if_neg (by simp [own, ready])]
  simp only [opened, Bool.not_true, Bool.false_eq_true, if_false, pair] <;> rfl

theorem processPacket_early (later : 0 < (p.psn.toNat + 2 ^ 24 - q.rqPsn) % 2 ^ 24) (half : (p.psn.toNat + 2 ^ 24 - q.rqPsn) % 2 ^ 24 < 2 ^ 23) :
    c.processPacket p = if q.nakked then c else (c.nak p.qpn.toNat q.rqPsn 0).modQp p.qpn.toNat fun q => { q with nakked := true } := by
  rw [processPacket_serving pair own plain ready, if_pos (toSigned_later later half)]

theorem processPacket_expected (place : p.psn.toNat = q.rqPsn) : c.processPacket p =
    if !c.rma.ready then c.rnr p.qpn.toNat p.psn.toNat
    else if p.op = .other then c.nak p.qpn.toNat p.psn.toNat 1
    else match q.msgs.find? fun m => !m.whole, p.pos with
      | some m, .middle | some m, .last =>
        if m.op = p.op then
          (c.modQp p.qpn.toNat fun q => { q with rqPsn := (q.rqPsn + 1) % 2 ^ 24, nakked := false }).continueMsg p.qpn.toNat m p m.len
        else c.nak p.qpn.toNat p.psn.toNat 1
      | none, .only | none, .first => c.firstPacket p.qpn.toNat q p false
      | _, _ => c.nak p.qpn.toNat p.psn.toNat 1 := by
  have here : toSigned 24 ((p.psn.toNat + 2 ^ 24 - q.rqPsn) % 2 ^ 24) = 0 := by
    rw [place, Nat.add_sub_cancel_left]
    rfl
  rw [processPacket_serving pair own plain ready, here, if_neg (lt_irrefl _), if_neg (lt_irrefl _)]

theorem processPacket_first (place : p.psn.toNat = q.rqPsn) (able : c.rma.ready = true) (known : p.op ≠ .other) (single : p.pos = .only)
    (whole : ∀ m ∈ q.msgs, m.whole = true) : c.processPacket p = c.firstPacket p.qpn.toNat q p false := by
  have idle : (q.msgs.find? fun m => !m.whole) = none := List.find?_eq_none.mpr fun m at0 => by simp [whole m at0]
  rw [processPacket_expected pair own plain ready place, idle, single]
  simp [able, known]

end

end

/-- Settles O48: RMA_PACKET_RECEIVE and CONTEXT_FETCH_DONE by the packet's queue pair, and the steps of R635 by the PSN. -/
theorem remotePackets : Obligations.RemotePackets := by
  unfold Obligations.RemotePackets
  refine ⟨fun s p clocked up serves free plain => ?_, fun c p q pair own plain _ => ?_⟩
  · intro c n k
    have runs : ∀ {t : Chip}, rmaPacketReceiveOp p s.chip = t → exec (.rmaPacketReceive p) s = .next (s.put t) := fun op =>
      (onChip_clocked _ clocked).trans (congrArg _ (congrArg s.put op))
    refine ⟨fun bad => ?_, fun good stray => ?_, fun q good pair own resident => ?_, fun q good pair own away room => ?_,
      fun q good pair own away full => ?_, fun q pair awake nobody away room => ?_⟩
    · exact runs (rmaPacketReceive_corrupt clocked up serves free plain bad)
    · exact runs (rmaPacketReceive_stray clocked up serves free plain good stray)
    · exact runs ((rmaPacketReceive_own clocked up serves free plain good pair own).trans (if_pos resident))
    · refine runs ((rmaPacketReceive_own clocked up serves free plain good pair own).trans ?_)
      rw [if_neg (by simp [away]), if_neg (Nat.not_lt.mpr room)]
      exact congrArg (Chip.request · (2 ^ 26)) rfl
    · refine runs ((rmaPacketReceive_own clocked up serves free plain good pair own).trans ?_)
      rw [if_neg (by simp [away]), if_pos full]
      exact congrArg (fun r => ({ c with rma := r } : Chip)) rfl
    · obtain ⟨here, others, uses⟩ := contextFetchDone_brings clocked pair awake nobody away room
      exact ⟨s.put (contextFetchDoneOp p.qpn s.chip), onChip_clocked _ clocked, s.put_pending _, here, others, uses⟩
  · refine ⟨fun other => ?_, fun ready nakked later half => ?_, fun ready nakked later half => ?_, fun ready place unready => ?_,
      fun ready place able odd => ?_, fun ready place able known single whole => ?_⟩
    · exact processPacket_idle pair other
    · exact (processPacket_early pair own plain ready later half).trans (if_pos nakked)
    · exact (processPacket_early pair own plain ready later half).trans (if_neg (by simp [nakked]))
    · rw [processPacket_expected pair own plain ready place, if_pos (by simp [unready]), place]
    · rw [processPacket_expected pair own plain ready place, if_neg (by simp [able]), if_pos odd, place]
    · exact processPacket_first pair own plain ready place able known single whole

end Sys2Proof.Machine
end

section
/-! Obligation O49: messages run on their windows and are answered; outbound requests end. -/

namespace Sys2Proof.Machine

/-! ### Atomics -/

section
variable {m : RmaMsg} (old : Nat)

theorem atomicNew_add (op : m.op = .fetchAdd) : atomicNew m old = (old + m.op0) % 2 ^ 64 := by
  rw [atomicNew, if_pos op]

theorem atomicNew_swap (op : m.op = .cmpSwap) : atomicNew m old = if old = m.op0 then m.op1 else old := by
  rw [atomicNew, if_neg (by simp [op])]

end

/-! ### The answer to a message -/

section
variable {c : Chip} {qpn : BitVec 18} {q : Qp} {m : RmaMsg} {ms : List RmaMsg} (pair : c.qp qpn.toNat = some q) (oldest : q.msgs = m :: ms)
  (ready : q.state = .rts) (whole : m.whole = true) (flat : (c.msgWin m).volumeType = false) (free : c.blocked m = false)
include pair oldest ready whole flat free

/-- The oldest message of a queue pair runs on its HBM window as it is answered (R638). -/
theorem messageAnswer_case : messageAnswerOp qpn c = (c.runHbm m).2.answerMsg qpn.toNat q m stOk (c.runHbm m).1 := by
  unfold messageAnswerOp
  simp only [pair, oldest, whole, flat, free, ready, Bool.not_true, Bool.false_and, Bool.not_false, Bool.and_false, Bool.false_eq_true, if_false,
    ne_eq, not_true_eq_false]

theorem messageAnswer_atomic (op : m.op = .fetchAdd ∨ m.op = .cmpSwap) : messageAnswerOp qpn c =
    (c.winWrite m.key m.off (leBytes 8 (atomicNew m (ofLe (c.winRead m.key m.off 8))))).answerMsg qpn.toNat q m stOk (c.winRead m.key m.off 8) := by
  have run : c.runHbm m = (c.winRead m.key m.off 8, c.winWrite m.key m.off (leBytes 8 (atomicNew m (ofLe (c.winRead m.key m.off 8))))) := by
    rcases op with op | op <;> simp only [Chip.runHbm, op]
  rw [messageAnswer_case pair oldest ready whole flat free, run]

theorem messageAnswer_read (op : m.op = .read) : messageAnswerOp qpn c = c.answerMsg qpn.toNat q m stOk (c.winRead m.key m.off m.len) := by
  have run : c.runHbm m = (c.winRead m.key m.off m.len, c) := by simp only [Chip.runHbm, op]
  rw [messageAnswer_case pair oldest ready whole flat free, run]

theorem messageAnswer_write (op : m.op = .write ∨ m.op = .send) (waits : m.begun = false) :
    messageAnswerOp qpn c = (c.winWrite m.key m.off m.data).answerMsg qpn.toNat q m stOk [] := by
  have run : c.runHbm m = ([], c.winWrite m.key m.off m.data) := by
    rcases op with op | op <;> simp only [Chip.runHbm, op, waits, Bool.false_eq_true, if_false]
  rw [messageAnswer_case pair oldest ready whole flat free, run]

end

/-! ### Outbound requests -/

/-- The next place depends on nothing but the order's state and the pair's. -/
theorem Chip.nextPlace_congr {c t : Chip} (par : t.par = c.par) (order : t.admNext = c.admNext) : t.nextPlace = c.nextPlace := by
  rw [Chip.nextPlace_eq, Chip.nextPlace_eq, par, order]

theorem Chip.nextPlace_setQp (c : Chip) (n : Nat) (q : Option Qp) : (c.setQp n q).nextPlace = c.nextPlace :=
  Chip.nextPlace_congr rfl rfl

theorem Chip.nextPlace_winWrite (c : Chip) (key off : Nat) (l : List Byte) : (c.winWrite key off l).nextPlace = c.nextPlace := by
  obtain ⟨_, _, written⟩ := c.hbmWrite_hbmOnly ((c.rmaWin (key / 4096)).base + off) l
  rw [Chip.winWrite, written]
  exact Chip.nextPlace_congr rfl rfl

section
variable {c : Chip} {qpn : BitVec 18} {q : Qp} {o : OutReq} {os : List OutReq} (clocked : c.clocked = true) (serves : c.netServes = true)
  (pair : c.qp qpn.toNat = some q) (ready : q.state = .rts) (oldest : q.outs = o :: os)
include serves pair ready oldest

section
include clocked

/-- An answer ends the oldest outbound request (R623, R661). -/
theorem rmaResponse_success (l : List Byte) : rmaResponseReceiveOp qpn (.success l) c =
    (let t := c.twr o.entry
    let d := c.setQp qpn.toNat (some { q with outs := os, tries := 0 })
    let w := if t.f 0x14 4 = 0 then d
      else if t.action = 3 then d.winWrite (t.f 0x14 4) (t.f 0x18 8) (l.take (t.f 0x2C 4))
      else if t.action = 4 ∨ t.action = 5 then d.winWrite (t.f 0x14 4) (t.f 0x18 8) (l.take 8)
      else d
    (w.twrDone o.entry).fireTwrs w.nextPlace) := by
  unfold rmaResponseReceiveOp
  simp only []
  rw [if_neg (by simp [clocked, serves]), pair]
  simp only []
  rw [if_neg (by simp [ready]), oldest]
  simp only [Chip.modQp_some pair]

/-- A fatal NAK puts the queue pair in ERROR (R623). -/
theorem rmaResponse_fatal : rmaResponseReceiveOp qpn .fatalNak c = c.qpError qpn.toNat 2 := by
  unfold rmaResponseReceiveOp
  simp only []
  rw [if_neg (by simp [clocked, serves]), pair]
  simp only []
  rw [if_neg (by simp [ready]), oldest]

end

theorem rcRetryTimeout_exhausted (used : q.conn.retry ≤ q.tries) : rcRetryTimeoutOp qpn c = c.qpError qpn.toNat 3 := by
  unfold rcRetryTimeoutOp
  simp only [pair, oldest]
  rw [if_neg (by simp [ready, serves]), if_pos used]

/-- The request is sent again; one without data of its own, as it stands (R623). -/
theorem rcRetryTimeout_again (left : q.tries < q.conn.retry) (write : (c.twr o.entry).action ≠ 1) (send : (c.twr o.entry).action ≠ 2) :
    rcRetryTimeoutOp qpn c = (c.setQp qpn.toNat (some { q with tries := q.tries + 1 })).qpFrame qpn.toNat
      (.rmaRequest qpn.toNat o.psn (c.twr o.entry).action ((c.twr o.entry).f 0x20 8) ((c.twr o.entry).f 0x28 4) ((c.twr o.entry).f 0x2C 4)
        ((c.twr o.entry).f 0x30 8) ((c.twr o.entry).f 0x38 8) []) (q.wire 16 0) := by
  unfold rcRetryTimeoutOp
  simp only [pair, oldest]
  rw [if_neg (by simp [ready, serves]), if_neg (Nat.not_le.mpr left), if_neg (by simp [write, send]), Chip.modQp_some pair, List.length_nil, ← oldest]

end

/-- Settles O49: the operations of the window by the message, and the end of an outbound request by its answer. -/
theorem remoteMessages : Obligations.RemoteMessages := by
  unfold Obligations.RemoteMessages
  refine ⟨fun m old _ => ⟨atomicNew_add old, fun op same => ?_, fun op other => ?_, fun s qpn q ms clocked pair oldest ready whole => ?_⟩,
    fun s qpn q o os l clocked serves pair ready oldest => ?_⟩
  · rw [atomicNew_swap old op, if_pos same]
  · rw [atomicNew_swap old op, if_neg other]
  · intro c flat free
    have runs : ∀ {t : Chip}, messageAnswerOp qpn s.chip = t → exec (.messageAnswer qpn) s = .next (s.put t) := fun op =>
      (onChip_clocked _ clocked).trans (congrArg _ (congrArg s.put op))
    refine ⟨fun op value => ?_, fun op => ?_, fun op waits => ?_⟩
    · subst value
      exact runs (messageAnswer_atomic pair oldest ready whole flat free op)
    · exact runs (messageAnswer_read pair oldest ready whole flat free op)
    · exact runs (messageAnswer_write pair oldest ready whole flat free op waits)
  · have answers : ∀ {r : RmaAnswer} {t : Chip}, rmaResponseReceiveOp qpn r s.chip = t → exec (.rmaResponseReceive qpn r) s = .next (s.put t) :=
      fun op => (onChip_clocked _ clocked).trans (congrArg _ (congrArg s.put op))
    have again : ∀ {t : Chip}, rcRetryTimeoutOp qpn s.chip = t → exec (.rcRetryTimeout qpn) s = .next (s.put t) := fun op =>
      (onChip_clocked _ clocked).trans (congrArg _ (congrArg s.put op))
    refine ⟨fun nowhere => answers ?_, fun somewhere read => answers ?_, answers (rmaResponse_fatal clocked serves pair ready oldest),
      fun used => again (rcRetryTimeout_exhausted serves pair ready oldest used),
      fun left write send => again (rcRetryTimeout_again serves pair ready oldest left write send)⟩
    · rw [rmaResponse_success clocked serves pair ready oldest l]
      simp only [if_pos nowhere]
      rw [Chip.nextPlace_setQp]
    · rw [rmaResponse_success clocked serves pair ready oldest l]
      simp only [if_neg somewhere, if_pos read]
      rw [Chip.nextPlace_winWrite, Chip.nextPlace_setQp]

end Sys2Proof.Machine
end

section
/-! Obligation O50: the commands on queue pairs, windows and triggered requests. -/

namespace Sys2Proof.Machine

section
variable {c : Chip} {f : Fn} {ix : BitVec 16} {a : Adm}

/-! ### Queue pairs -/

theorem qpCreateOp_new (entry : c.entryAt f 0 ix 0x40 a) (small : eField a.entry 4 4 < 2 ^ 18) (free : c.qp (eField a.entry 4 4) = none)
    (near : bitAt (eField a.entry 0xB 1) 0 = false) (loose : bitAt (eField a.entry 0xB 1) 1 = false) : qpCreateOp f ix c =
      ((c.setQp (eField a.entry 4 4) (some {
        pd := eField a.entry 8 2, port := eField a.entry 0xA 1, sealing := bitAt (eField a.entry 0xB 1) 2, pmtu := eField a.entry 0xC 1, owner := f.val })).mirrorState).done f a := by
  refine Chip.onAdmin_entryAt entry (?_ : _ = ((stOk, 0), _))
  simp only [near, loose]
  rw [if_neg (Nat.not_le.mpr small), if_neg (by simp [free]), if_neg (by simp), if_neg (by simp), if_neg (by simp), if_neg (by simp)]

theorem qpCreateOp_taken {q : Qp} (entry : c.entryAt f 0 ix 0x40 a) (small : eField a.entry 4 4 < 2 ^ 18) (taken : c.qp (eField a.entry 4 4) = some q) :
    qpCreateOp f ix c = c.finish f 0 a.pos stState 1 := by
  refine Chip.onAdmin_entryAt entry (?_ : _ = ((stState, 1), _))
  rw [if_neg (Nat.not_le.mpr small), if_pos (by simp [taken])]

section
variable {l : List Byte} {q : Qp} (data : a.data = some l) (pair : c.qp (eField a.entry 4 4) = some q) (reset : q.state = .reset)
include data pair reset

theorem qpConnectOp_reset {k : Conn} {sq rq : Nat} (entry : c.entryAt f 0 ix 0x41 a) (conn : connOf l = some (k, sq, rq))
    (keyed : q.sealing = false ∨ q.key.isSome = true) : qpConnectOp f ix c =
      ((c.setQp (eField a.entry 4 4) (some { q with state := .rts, conn := k, sqPsn := sq, rqPsn := rq })).mirrorState).done f a := by
  refine (Chip.onEntry_entryAt entry _).trans ?_
  simp only [data, conn, pair]
  rw [if_neg (by simp [reset]), if_neg fun sealed => ?_]
  · rfl
  · rcases keyed with plain | key
    · exact Bool.false_ne_true (plain.symm.trans sealed.1)
    · rw [Option.isNone_iff_eq_none.mp sealed.2] at key
      exact Bool.false_ne_true key

theorem keyInstallOp_reset (entry : c.entryAt f 0 ix 0x44 a) (near : q.tier1 = false) : keyInstallOp f ix c =
    ((c.setQp (eField a.entry 4 4) (some { q with key := some {
      alg := eField a.entry 8 1, side := eField a.entry 9 1 == 1, salt := eField a.entry 0xC 4, txKey := l, rxKey := l, txEpoch := eField a.entry 0x10 4, rxEpoch := eField a.entry 0x10 4 } })).mirrorState).done f a := by
  refine (Chip.onEntry_entryAt entry _).trans ?_
  simp only [data, pair]
  rw [if_neg (by simp [reset]), if_neg (by simp [near])]
  rfl

end

theorem qpQueryOp_direct {q : Qp} (entry : c.entryAt f 0 ix 0x43 a) (direct : eInd a.entry = false) (pair : c.qp (eField a.entry 4 4) = some q) :
    qpQueryOp f ix c = (c.toBuffer f [(eDptr a.entry, eDlen a.entry)] 0 q.query).done f a := by
  have placed : a.placed = true := by simp [Adm.placed, direct]
  have buffer : a.buffer = [(eDptr a.entry, eDlen a.entry)] := by simp [Adm.buffer, direct]
  refine (Chip.onEntry_entryAt entry _).trans ?_
  simp only [placed, pair, buffer, Bool.not_true, Bool.false_eq_true, if_false]
  rfl

/-- The packets that wait for other queue pairs stay as they are. -/
theorem missFilter_id {t : Tab (List Packet)} {n : Nat} (others : ∀ x ∈ t, x.2 ≠ [] ∧ ∀ p ∈ x.2, p.qpn.toNat ≠ n) :
    ((t.map fun x => (x.1, x.2.filter fun p => p.qpn.toNat != n)).filter fun x => !x.2.isEmpty) = t ∧
      (t.flatMap fun x => x.2.filter fun p => p.qpn.toNat == n) = [] := by
  have same : (t.map fun x => (x.1, x.2.filter fun p => p.qpn.toNat != n)) = t := by
    refine (List.map_congr_left fun x at0 => ?_).trans (List.map_id t)
    have all : (x.2.filter fun p => p.qpn.toNat != n) = x.2 := List.filter_eq_self.mpr fun p at1 => by simpa using (others x at0).2 p at1
    rw [all, id]
  refine ⟨?_, List.flatMap_eq_nil_iff.mpr fun x at0 => List.filter_eq_nil_iff.mpr fun p at1 => by simpa using (others x at0).2 p at1⟩
  rw [same]
  exact List.filter_eq_self.mpr fun x at0 => by simpa using (others x at0).1

theorem qpDestroyOp_quiet {q : Qp} (entry : c.entryAt f 0 ix 0x42 a) (pair : c.qp (eField a.entry 4 4) = some q) (idle : q.msgs = []) (silent : q.outs = [])
    (unarmed : ∀ t ∈ c.rma.twrs, t.2.state ≠ 1 ∨ (t.2.trigQp ≠ eField a.entry 4 4 ∧ t.2.outQp ≠ eField a.entry 4 4))
    (others : ∀ x ∈ c.rma.miss, x.2 ≠ [] ∧ ∀ p ∈ x.2, p.qpn.toNat ≠ eField a.entry 4 4) :
    qpDestroyOp f ix c = ((c.setQp (eField a.entry 4 4) none).mirrorState).done f a := by
  obtain ⟨kept, mine⟩ := missFilter_id others
  have unused : c.rma.twrs.any (fun t => t.2.state == 1 && (t.2.trigQp == eField a.entry 4 4 || t.2.outQp == eField a.entry 4 4)) = false := by
    refine List.any_eq_false.mpr fun t at0 => ?_
    rcases unarmed t at0 with rests | ⟨trig, out⟩
    · simp [rests]
    · simp [trig, out]
  refine Chip.onAdmin_entryAt entry (?_ : _ = ((stOk, 0), _))
  simp only [pair, idle, silent, unused, mine, Chip.modRma, kept]
  rfl

theorem ctxHostAreaOp_free (entry : c.entryAt f 0 ix 0x4F a) (near : ∀ x ∈ c.rma.qps, ∀ y, x.2 = some y → y.tier1 = false) : ctxHostAreaOp f ix c =
    Chip.done { c with rma := { c.rma with hostArea := if eDlen a.entry = 0 then none else some (f.val, eDptr a.entry, eDlen a.entry) } } f a := by
  have unused : (c.rma.qps.any fun x => x.2.any (·.tier1)) = false := by
    refine List.any_eq_false.mpr fun x at0 => ?_
    cases pair : x.2 with
    | none => simp
    | some y => simp [near x at0 y pair]
  refine Chip.onAdmin_entryAt entry (?_ : _ = ((stOk, 0), _))
  rw [if_neg (by simp [unused])]
  rfl

/-! ### Windows -/

theorem winRegisterOp_passes (entry : c.entryAt f 0 ix 0x48 a) (passes : c.registerCheck a.entry = none) : winRegisterOp f ix c =
    ((c.setRmaWin (eField a.entry 4 4) {
      state := .valid, tag := eField a.entry 8 2, lastTag := some (eField a.entry 8 2), pd := eField a.entry 0xA 2, volumeType := eField a.entry 0xC 1 == 1, access := eField a.entry 0xD 1, volume := eField a.entry 0xE 1, base := eField a.entry 0x10 8, size := eField a.entry 0x18 8 }).mirrorState).done f a := by
  refine Chip.onAdmin_entryAt entry (?_ : _ = ((stOk, 0), _))
  simp only [passes]

/-- A window that would repeat its latest tag is refused (R634). -/
theorem registerCheck_sameTag {e : BitVec 512} (flat : eField e 0xC 1 = 0) (small : eField e 4 4 < 2 ^ 20) (from0 : 0x200000000 ≤ eField e 0x10 8)
    (upto : eField e 0x10 8 + eField e 0x18 8 ≤ 0x5C0000000) (same : (c.rmaWin (eField e 4 4)).lastTag = some (eField e 8 2)) :
    c.registerCheck e = some (stState, 6) := by
  unfold Chip.registerCheck
  simp only [flat]
  rw [if_neg (by simp), if_neg (by simp), if_neg (Nat.not_le.mpr small), if_neg (by simp), if_neg (by simp),
    if_neg (by simpa using ⟨from0, upto⟩), if_pos same]

theorem winRegisterOp_refused {code detail : Nat} (entry : c.entryAt f 0 ix 0x48 a) (refused : c.registerCheck a.entry = some (code, detail)) :
    winRegisterOp f ix c = c.finish f 0 a.pos code detail := by
  refine Chip.onAdmin_entryAt entry (?_ : _ = ((code, detail), _))
  simp only [refused]

theorem winRevokeOp_valid (entry : c.entryAt f 0 ix 0x49 a) (small : eField a.entry 4 4 < 2 ^ 20) (valid : (c.rmaWin (eField a.entry 4 4)).state = .valid) :
    winRevokeOp f ix c = ((c.setRmaWin (eField a.entry 4 4) { c.rmaWin (eField a.entry 4 4) with
      state := .revoking, drain := some (f.val, a.pos), revokedAt := a.seq }).modAdm f 0 a.pos fun x => { x with begun := true }).mirrorState := by
  refine (Chip.onEntry_entryAt entry _).trans ?_
  rw [if_neg (Nat.not_le.mpr small), if_neg (by simp [valid])]

theorem winRevokeDrainOp_drained {i : BitVec 20} {pos : Nat} (revoking : (c.rmaWin i.toNat).state = .revoking)
    (answered : ∀ x ∈ c.rma.qps, ∀ q, x.2 = some q → ∀ m ∈ q.msgs, m.key / 4096 ≠ i.toNat) (drain : (c.rmaWin i.toNat).drain = some (f.val, pos)) :
    winRevokeDrainOp i c =
      (((c.setRmaWin i.toNat { lastTag := (c.rmaWin i.toNat).lastTag }).mirrorState).windowEvent 1 0 i.toNat).finish f 0 pos stOk 0 := by
  have unused : (c.rma.qps.any fun x => x.2.any fun q => q.msgs.any fun m => m.key / 4096 == i.toNat) = false := by
    refine List.any_eq_false.mpr fun x at0 => ?_
    cases pair : x.2 with
    | none => simp
    | some q => simpa using answered x at0 q pair
  unfold winRevokeDrainOp
  simp only []
  rw [if_neg (by simp [revoking, unused]), drain]

/-! ### Triggered requests -/

theorem twrPostOp_armed {l : List Byte} (entry : c.entryAt f 0 ix 0x50 a) (data : a.data = some l)
    (sound : twrOk { state := 1, desc := BitVec.ofNat 512 (ofLe l) } = true) (small : eField a.entry 4 4 < 65536)
    (trig : (c.qp (Twr.trigQp { state := 1, desc := BitVec.ofNat 512 (ofLe l) })).isSome = true)
    (out : (c.qp (Twr.outQp { state := 1, desc := BitVec.ofNat 512 (ofLe l) })).isSome = true) (free : (c.twr (eField a.entry 4 4)).state = 0) :
    twrPostOp f ix c =
      (((c.setTwr (eField a.entry 4 4) { state := 1, desc := BitVec.ofNat 512 (ofLe l) }).mirrorState).fireTwrs a.seq).done f a := by
  refine (Chip.onEntry_entryAt entry _).trans ?_
  simp only [data]
  rw [if_neg (by simp [sound]), if_neg (Nat.not_le.mpr small), if_neg (by simp [Option.isSome_iff_ne_none.mp trig, Option.isSome_iff_ne_none.mp out]),
    if_neg (by simp [free])]
  rfl

theorem twrCancelOp_armed (entry : c.entryAt f 0 ix 0x51 a) (small : eField a.entry 4 4 < 65536) (armed : (c.twr (eField a.entry 4 4)).state = 1) :
    twrCancelOp f ix c = ((c.setTwr (eField a.entry 4 4) {}).mirrorState).finish f 0 a.pos stOk 1 := by
  refine Chip.onAdmin_entryAt entry (?_ : _ = ((stOk, 1), _))
  rw [if_neg (Nat.not_le.mpr small), if_pos armed]

theorem twrCancelOp_idle (entry : c.entryAt f 0 ix 0x51 a) (small : eField a.entry 4 4 < 65536) (idle : (c.twr (eField a.entry 4 4)).state ≠ 1) :
    twrCancelOp f ix c = c.done f a := by
  refine Chip.onAdmin_entryAt entry (?_ : _ = ((stOk, 0), _))
  rw [if_neg (Nat.not_le.mpr small), if_neg idle]

end

/-- Settles O50: each command by the entry that asks for it. -/
theorem remoteCommands : Obligations.RemoteCommands := by
  unfold Obligations.RemoteCommands
  have runs : ∀ {s : State} (_ : s.chip.clocked = true) {op : Chip → Chip} {t : Chip}, op s.chip = t → onChip op s = .next (s.put t) :=
    fun clocked _ _ result => (onChip_clocked _ clocked).trans (congrArg _ (congrArg _ result))
  refine ⟨fun s f ix a l q clocked => ?_, fun s f ix a l i clocked => ?_⟩
  · intro c e n
    refine ⟨fun entry small free near loose => ?_, fun entry small taken => ?_, fun k sq rq entry data conn pair reset keyed => ?_,
      fun entry data pair reset near => ?_, fun entry direct pair => ?_, fun entry pair idle silent unarmed others => ?_, fun entry near => ?_⟩
    · exact runs clocked (qpCreateOp_new entry small free near loose)
    · exact runs clocked (qpCreateOp_taken entry small taken)
    · exact runs clocked (qpConnectOp_reset data pair reset entry conn keyed)
    · exact runs clocked (keyInstallOp_reset data pair reset entry near)
    · exact runs clocked (qpQueryOp_direct entry direct pair)
    · exact runs clocked (qpDestroyOp_quiet entry pair idle silent unarmed others)
    · exact runs clocked (ctxHostAreaOp_free entry near)
  · intro c e n
    refine ⟨fun entry passes => ?_, fun entry flat small from0 upto same => ?_, fun entry small valid => ?_, fun revoking answered drain => ?_,
      fun entry data sound small trig out free => ?_, fun entry small armed => ?_, fun entry small idle => ?_⟩
    · exact runs clocked (winRegisterOp_passes entry passes)
    · exact runs clocked (winRegisterOp_refused entry (registerCheck_sameTag flat small from0 upto same))
    · exact runs clocked (winRevokeOp_valid entry small valid)
    · exact runs clocked (winRevokeDrainOp_drained revoking answered drain)
    · exact runs clocked (twrPostOp_armed entry data sound small trig out free)
    · exact runs clocked (twrCancelOp_armed entry small armed)
    · exact runs clocked (twrCancelOp_idle entry small idle)

end Sys2Proof.Machine
end

section
/-! Obligation O51: heartbeats sent and heard, the paths, the lease, the takeover and the announcement. -/

namespace Sys2Proof.Machine

/-! ### Heartbeats that are sent -/

theorem Chip.heartbeatBytes_length (c : Chip) (x : Path) (base : Nat) : (c.heartbeatBytes x base).length = 16 := by
  simp [Chip.heartbeatBytes, beBytes, leBytes_length]

/-- A Coupler message of one credit leaves, the pair's state then being `p` (R678). -/
theorem Chip.sendMsg_single {c : Chip} {m : CouplerMsg} (single : creditsFor m.payload.length = 1) : c.sendMsg m =
    Chip.grant { c with par := { c.par with credits := c.par.credits - 1 }, out := c.out ++ [.coupler m.bytes] } 3 1 := by
  unfold Chip.sendMsg
  rw [single]
  rfl

/-- The pair's state once a heartbeat has left on a path. -/
def Chip.beat (c : Chip) (x : Path) : Par :=
  { c.par.modPath x fun y => { y with txSeq := (y.txSeq + 1) % 2 ^ 16 } with
    grantSent := if c.grants then some c.tmb.up else c.par.grantSent, hbFirst := c.par.hbFirst <|> some c.tmb.up }

section
variable {c : Chip} (clocked : c.clocked = true)
include clocked

theorem heartbeatSend_drawbar : heartbeatSendOp .drawbar c = { c with
    par := c.beat .drawbar, admNext := if c.par.role == .active then add48 c.admNext 256 else c.admNext,
    out := c.out ++ [.heartbeat true (c.heartbeatBytes .drawbar (if c.par.role == .active then c.admNext else c.par.lastTaken))] } := by
  unfold heartbeatSendOp
  rw [if_neg (by simp [clocked])]
  rfl

theorem heartbeatSend_coupler (passive : c.par.role ≠ .active) (trained : c.par.trained = true) (credit : 0 < c.par.credits) :
    heartbeatSendOp .coupler c = Chip.grant { c with
      par := { c.beat .coupler with credits := c.par.credits - 1 },
      out := c.out ++ [.coupler (CouplerMsg.bytes { cls := 1, prio := 0, payload := c.heartbeatBytes .coupler c.par.lastTaken })] } 3 1 := by
  have other : (c.par.role == .active) = false := by simpa using passive
  have single : creditsFor (c.heartbeatBytes .coupler c.par.lastTaken).length = 1 := by rw [Chip.heartbeatBytes_length]; rfl
  have op : heartbeatSendOp .coupler c = Chip.sendMsg { c with par := c.beat .coupler }
      { cls := 1, prio := 0, payload := c.heartbeatBytes .coupler c.par.lastTaken } := by
    unfold heartbeatSendOp
    rw [if_neg (by simp [clocked, trained, credit.ne'])]
    simp only [other, Bool.false_eq_true, if_false]
    rfl
  rw [op]
  exact Chip.sendMsg_single (m := { cls := 1, prio := 0, payload := c.heartbeatBytes .coupler c.par.lastTaken }) single

end

/-- Without a trained Coupler or a credit no heartbeat leaves on it. -/
theorem heartbeatSend_stuck {c : Chip} (stuck : c.par.trained = false ∨ c.par.credits = 0) : heartbeatSendOp .coupler c = c := by
  unfold heartbeatSendOp
  rw [if_pos (.inr ⟨rfl, by simpa using stuck⟩)]

/-! ### Heartbeats that are heard -/

section
variable (p : Par) (x : Path) (hb : Heartbeat) (up : Nat)

/-- What a heartbeat tells is taken; role, token and paths of the unit itself stay. -/
theorem Par.hears_keeps : (p.hears x hb up).role = p.role ∧ (p.hears x hb up).tokenAway = p.tokenAway ∧
    (p.hears x hb up).partnerRole = hb.role.toNat := by
  cases x <;> exact ⟨rfl, rfl, rfl⟩

/-- An ACTIVE partner grants a block (R686). -/
theorem Par.hears_block (active : hb.role = 0) (some0 : hb.seq ≠ 0) :
    (p.hears x hb up).blockNext = hb.seq.toNat ∧ (p.hears x hb up).blockLeft = 256 := by
  have block : (hb.role == 0 && hb.seq.toNat != 0) = true := by
    rw [active]
    simpa [BitVec.toNat_eq] using some0
  exact ⟨if_pos block, if_pos block⟩

end

section
variable {c : Chip} {hb : Heartbeat} (clocked : c.clocked = true)
include clocked

theorem heartbeat_discarded (bad : hb.crcOk = false ∨ hb.unit = c.par.unit) :
    heartbeatOp .drawbar hb c = { c with par := { c.par with drawbar := c.par.drawbar.discard } } := by
  unfold heartbeatOp
  rw [if_neg (by simp [clocked])]
  simp only [reduceCtorEq, if_false]
  rw [if_pos (by simpa using bad)]
  rfl

/-- A valid heartbeat at a STANDBY unit without a degraded path: its role decides (R674, R690). -/
theorem heartbeat_standby (good : hb.crcOk = true) (theirs : hb.unit = !c.par.unit) (standby : c.par.role = .standby)
    (level : bitAt (c.blk 83).level 4 = false) (here : c.par.tokenAway = false) : heartbeatOp .drawbar hb c =
      if hb.role.toNat = 3 then Chip.takeToken { c with par := c.par.hears .drawbar hb c.tmb.up } .alone 3
      else { c with par := c.par.hears .drawbar hb c.tmb.up } := by
  have other : ¬ hb.unit = c.par.unit := by rw [theirs]; cases c.par.unit <;> decide
  obtain ⟨role, token, -⟩ := c.par.hears_keeps .drawbar hb c.tmb.up
  rw [standby] at role
  rw [here] at token
  unfold heartbeatOp
  rw [if_neg (by simp [clocked])]
  simp only [reduceCtorEq, if_false]
  rw [if_neg (by simp [good, other]), Chip.modPar]
  generalize c.par.hears .drawbar hb c.tmb.up = p at role token
  have calm : ({ c with par := p } : Chip).blk 83 = c.blk 83 := rfl
  simp only [calm, level, Bool.and_false, Bool.false_eq_true, if_false]
  rw [if_neg (by simp [token]), Chip.roleHears]
  simp only [role]

end

/-! ### Time that has passed -/

theorem Chip.passUp_past {c : Chip} {t : Nat} (past : t ≤ c.tmb.up) : c.passUp t = c := by
  have zero : t - c.tmb.up = 0 := by omega
  unfold Chip.passUp
  rw [zero]
  rfl

theorem Chip.eff_passUp (c : Chip) (t r off lsb : Nat) : (c.passUp t).eff r off lsb = c.eff r off lsb := rfl

/-! ### The paths (R675) -/

section
variable {c : Chip} {x : Path}

theorem pathDown_degrades {t : Nat} (clocked : c.clocked = true) (last : (c.par.path x).lastValid = some t) (past : t + nsUp 10000 ≤ c.tmb.up)
    (delivers : c.pathUp (c.par.path (otherPath x)) = true) : pathDownOp x c =
      Chip.setLevel { c with par := c.par.modPath x fun y => { y with degraded := true, lastValid := none } } 83 4 true := by
  unfold pathDownOp
  simp only [last, Option.getD_some]
  rw [if_pos clocked, Chip.passUp_past past, if_neg (by simp [clocked, past, delivers])]
  rfl

theorem pathDegradedClear_up (delivers : c.pathUp (c.par.path x) = true) :
    pathDegradedClearOp x c = { c with par := c.par.modPath x fun y => { y with degraded := false } } := by
  unfold pathDegradedClearOp
  rw [if_pos delivers]
  rfl

end

/-! ### The lease, takeover, reclaim, election (R683, R690–R693, R707) -/

section
variable {c : Chip} {t : Nat} (clocked : c.clocked = true)

section
include clocked

theorem leaseExpire_fences (active : c.par.role = .active) (last : c.par.lastGrant = some t) :
    leaseExpireOp c = (((c.passUp (t + nsUp 10000)).yieldToken .fenced 5 false).idleGates).setCause 83 3 := by
  unfold leaseExpireOp
  rw [if_neg (by simp [active, clocked])]
  simp only [last, Option.getD_some]

theorem takeover_silent (standby : c.par.role = .standby) (sent : c.par.grantSent = some t) (silent : ∀ u, c.par.lastActive = some u → u ≤ t) :
    takeoverOp c = (c.passUp (t + nsUp 11000)).takeToken .alone 2 := by
  unfold takeoverOp
  simp only [sent]
  cases last : c.par.lastActive with
  | none => exact if_neg (by simp [standby, clocked])
  | some u => exact if_neg (by simp [standby, clocked, silent u last])

/-- A fenced unit that was ACTIVE, 16 µs after its latest grant (R692). -/
theorem reclaim_case {u : Nat} (fenced : c.par.role = .fenced) (was : c.par.wasActive = true) (open0 : c.par.reclaimBlocked = false)
    (instant : c.par.lastGrant.getD 0 + nsUp 16000 = u) (silent loss : Bool) : reclaimOp silent loss c =
      if silent && !c.par.heardSinceGrant && loss && !c.par.degradedAtGrant && c.par.rxProved then (c.passUp u).takeToken .alone 4
      else (c.passUp u).modPar fun p => { p with reclaimBlocked := true } := by
  unfold reclaimOp
  rw [if_neg (by simp [fenced, was, open0, clocked]), instant]
  rfl

theorem electWait_alone (fenced : c.par.role = .fenced) (electing : c.par.electing = true) (coupler : c.par.coupler.lastValid = none)
    (drawbar : c.par.drawbar.lastValid = none) (first : c.par.hbFirst = some t) (chosen : c.eff 83 0x100 13 = 1) :
    electWaitExpireOp c = (c.passUp (t + nsUp (c.eff 83 0x100 16 * 10000000))).takeToken .alone 1 := by
  unfold electWaitExpireOp
  simp only [first]
  rw [if_neg (by simp [fenced, electing, clocked, coupler, drawbar])]
  generalize t + nsUp (c.eff 83 0x100 16 * 10000000) = u
  rw [if_pos (by rw [Chip.eff_passUp, chosen])]

end

/-- A serving partner was heard since the latest grant: nothing is taken (R690). -/
theorem takeover_heard {u : Nat} (sent : c.par.grantSent = some t) (heard : c.par.lastActive = some u) (later : t < u) : takeoverOp c = c := by
  unfold takeoverOp
  simp only [sent, heard]
  rw [if_pos (by simp [later])]

end

/-! ### The announcement (R691) -/

theorem announceSend_first {c : Chip} (clocked : c.clocked = true) (asked : c.par.announce = true) (awake : c.pwr.waking &&& c.groupsMask 0xFFFF = 0)
    (locked : c.tmb.lockedEver = true) (up : (c.port 0).linkUp = true) (down : ∀ q < 4, 0 < q → (c.port q).linkUp = false) : announceSendOp c = { c with
      par := { c.par with announce := false },
      out := c.out ++ [.frame 0 (.announce c.par.role.code c.par.announceSeq)
        (Chip.announceBytes { c with par := { c.par with announce := false } } 0 c.par.role.code c.par.announceSeq)] } := by
  have ports : ((List.range 4).filter fun q => (c.port q).linkUp) = [0] := by
    simp [List.range_succ, up, down 1 (by decide) (by decide), down 2 (by decide) (by decide), down 3 (by decide) (by decide)]
  unfold announceSendOp
  rw [if_neg (by simp [asked, clocked, awake])]
  simp only []
  rw [if_neg (by simp [Chip.modPar, locked])]
  exact congrArg (List.foldl _ _) ports

/-- Settles O51: heartbeats by path and role, and each lapse of time by the instant it waits for. -/
theorem heartbeatsAndToken : Obligations.HeartbeatsAndToken := by
  unfold Obligations.HeartbeatsAndToken
  have runs : ∀ {s : State} (_ : s.chip.clocked = true) {op : Chip → Chip} {t : Chip}, op s.chip = t → onChip op s = .next (s.put t) :=
    fun clocked _ _ result => (onChip_clocked _ clocked).trans (congrArg _ (congrArg _ result))
  refine ⟨fun s x hb clocked => ?_, fun s x t clocked => ?_⟩
  · intro c p sent sentC
    refine ⟨fun active => runs clocked ?_, fun passive => runs clocked ?_, fun passive trained credit => ?_, fun stuck => ?_, fun bad => ?_,
      fun good theirs standby role level here => runs clocked ?_, fun good theirs standby role level here => runs clocked ?_, ?_, ?_⟩
    · rw [heartbeatSend_drawbar clocked, if_pos (by simpa using active), if_pos (by simpa using active)]
      rfl
    · rw [heartbeatSend_drawbar clocked, if_neg (by simpa using passive), if_neg (by simpa using passive)]
      rfl
    · exact runs clocked (heartbeatSend_coupler clocked passive trained credit)
    · exact runs clocked (heartbeatSend_stuck stuck)
    · exact runs clocked (heartbeat_discarded clocked bad)
    · rw [heartbeat_standby clocked good theirs standby level here, if_neg fun three : hb.role.toNat = 3 => role (BitVec.eq_of_toNat_eq three)]
    · rw [heartbeat_standby clocked good theirs standby level here, if_pos (by rw [role]; rfl)]
    · exact fun active some0 => p.hears_block x hb _ active some0
    · obtain ⟨role, -, told⟩ := p.hears_keeps x hb c.tmb.up
      exact ⟨told, role⟩
  · intro c p
    have instant : p.lastGrant = some t → p.lastGrant.getD 0 + nsUp 16000 = t + nsUp 16000 := fun last => by rw [last, Option.getD_some]
    refine ⟨fun last past delivers => ?_, fun delivers => ?_, fun active last => ?_, fun standby sent silent => ?_, fun u standby sent heard later => ?_,
      fun fenced was open0 last unheard sound proved => runs clocked ?_, fun fenced was open0 last past => runs clocked ?_,
      fun fenced electing coupler drawbar first chosen => ?_, fun w reach fenced => ?_, fun w reach other => ?_, fun asked awake locked up down => ?_⟩
    · exact runs clocked (pathDown_degrades clocked last past delivers)
    · exact runs clocked (pathDegradedClear_up delivers)
    · exact runs clocked (leaseExpire_fences clocked active last)
    · exact runs clocked (takeover_silent clocked standby sent silent)
    · exact runs clocked (takeover_heard sent heard later)
    · have all : (true && !p.heardSinceGrant && true && !p.degradedAtGrant && p.rxProved) = true := by
        rw [unheard, sound, proved]
        rfl
      exact (reclaim_case clocked fenced was open0 (instant last) true true).trans (if_pos all)
    · refine (reclaim_case clocked fenced was open0 (instant last) false true).trans ?_
      rw [if_neg (by simp), Chip.passUp_past past]
      rfl
    · exact runs clocked (electWait_alone clocked fenced electing coupler drawbar first chosen)
    · exact (onWrite_reached _ clocked reach).trans (congrArg _ (congrArg s.put (if_pos fenced)))
    · exact (onWrite_reached _ clocked reach).trans (congrArg _ (congrArg s.put (if_neg other)))
    · exact runs clocked (announceSend_first clocked asked awake locked up down)

end Sys2Proof.Machine
end

section
/-! Obligation O52: what goes over the Coupler, what arrives on it, and the exchange of time. -/

namespace Sys2Proof.Machine

/-! ### Messages that leave -/

/-- A message leaves with its credits (R678). -/
theorem Chip.sendMsg_eq (c : Chip) {m : CouplerMsg} {n : Nat} (size : creditsFor m.payload.length = n) : c.sendMsg m =
    Chip.grant { c with par := { c.par with credits := c.par.credits - n }, out := c.out ++ [.coupler m.bytes] } 3 n := by
  unfold Chip.sendMsg
  rw [size]
  rfl

theorem beBytes_length (n v : Nat) : (beBytes n v).length = n := by
  simp [beBytes, leBytes_length]

section
variable {c : Chip} (clocked : c.clocked = true) (trained : c.par.trained = true)
include clocked trained

theorem couplerSend_credits (owed : 0 < c.par.owed) (credit : 0 < c.par.credits) : couplerSendOp c = Chip.grant { c with
    par := { c.par with owed := 0, credits := c.par.credits - 1 },
    out := c.out ++ [.coupler (CouplerMsg.bytes { cls := 9, prio := 0, payload := beBytes 4 (c.par.owed % 2 ^ 32) })] } 3 1 := by
  have single : creditsFor (beBytes 4 (c.par.owed % 2 ^ 32)).length = 1 := by
    rw [beBytes_length]
    rfl
  have sent := c.sendMsg_eq (m := { cls := 9, prio := 0, payload := beBytes 4 (c.par.owed % 2 ^ 32) }) single
  unfold couplerSendOp
  rw [if_neg (by simp [clocked, trained]), if_pos ⟨owed, credit⟩, sent]
  rfl

theorem couplerSend_queue {m : CouplerMsg} (settled : c.par.owed = 0) (next : nextMsg c.par.queue = some m) (plain : m.cls ≠ 8)
    (credit : creditsFor m.payload.length ≤ c.par.credits) : couplerSendOp c = Chip.grant { c with
      par := { c.par with queue := c.par.queue.erase m, credits := c.par.credits - creditsFor m.payload.length },
      out := c.out ++ [.coupler m.bytes] } 3 (creditsFor m.payload.length) := by
  have filled : c.fillMsg m = m := if_neg plain
  have sent := c.sendMsg_eq (m := m) rfl
  unfold couplerSendOp
  rw [if_neg (by simp [clocked, trained]), if_neg (by simp [settled]), next]
  simp only [filled]
  rw [if_neg (Nat.not_lt.mpr credit), sent]
  rfl

theorem timeSend_exchanges (credit : 0 < c.par.credits) : timeSendOp c = Chip.grant { c with
    par := { c.par with credits := c.par.credits - 1, timeSent := some c.nowLayout },
    out := c.out ++ [.coupler (CouplerMsg.bytes
      { cls := 4, prio := 2, last := true, payload := beBytes 8 (c.par.timeSent.getD 0) ++ beBytes 8 (c.par.timeGot.getD 0) })] } 3 1 := by
  have single : creditsFor (beBytes 8 (c.par.timeSent.getD 0) ++ beBytes 8 (c.par.timeGot.getD 0)).length = 1 := by
    rw [List.length_append, beBytes_length, beBytes_length]
    rfl
  have sent := c.sendMsg_eq
    (m := { cls := 4, prio := 2, last := true, payload := beBytes 8 (c.par.timeSent.getD 0) ++ beBytes 8 (c.par.timeGot.getD 0) }) single
  unfold timeSendOp
  rw [if_neg (by simp [clocked, trained, credit.ne'])]
  simp only []
  rw [sent]
  rfl

end

/-! ### Messages that arrive -/

section
variable (c : Chip)

/-- A message of one credit's size owes the partner one (R678). -/
theorem Chip.received_single {n : Nat} (size : creditsFor n = 1) : c.received n = { c with par := { c.par with owed := c.par.owed + 1 } } := by
  unfold Chip.received
  rw [size]
  rfl

theorem credit_returns (n : W32) : creditOp n c = Chip.giveBack
    { c with par := { c.par with owed := c.par.owed + 1, credits := c.par.credits + min n.toNat (c.pool 3).held } } 3 (min n.toNat (c.pool 3).held) := by
  unfold creditOp
  rw [Chip.received_single c (n := 4) rfl]
  rfl

end

section
variable {c : Chip} {off : BitVec 40} {l : List Byte} {e : Se} {t : BitVec 48}

theorem mirror_standby (standby : c.par.role = .standby) (inside : off.toNat + l.length ≤ 0x200000000) :
    mirrorOp off l e t c = ((c.received l.length).hbmWrite off.toNat l).mirrored e t.toNat := by
  have takes : (c.received l.length).mirrors = true := by simp [Chip.mirrors, Chip.received, Chip.modPar, standby]
  unfold mirrorOp
  simp only []
  rw [if_neg]
  rintro (refuses | beyond)
  · simp [takes] at refuses
  · exact absurd inside (Nat.not_le.mpr beyond)

theorem mirror_refused (other : c.par.role ≠ .standby) (plain : c.par.copying = false) : mirrorOp off l e t c = c.received l.length := by
  have refuses : (c.received l.length).mirrors = false := by simp [Chip.mirrors, Chip.received, Chip.modPar, other, plain]
  unfold mirrorOp
  simp only []
  rw [if_pos (.inl (by simp [refuses]))]

/-- The record goes to its ring offset, and HEAD and the ring state follow it (R439). -/
theorem journal_standby (standby : c.par.role = .standby) (from0 : 0x01000000 ≤ off.toNat) (below : off.toNat < 0x11000000) (short : l.length ≤ 256) :
    journalOp off l e t c = (((((c.received l.length).ringWrite ((off.toNat - 0x01000000) / ringSize) ((off.toNat - 0x01000000) % ringSize) l).hbmWrite
      (ringAt ((off.toNat - 0x01000000) / ringSize)) (leBytes 8 (((off.toNat - 0x01000000) % ringSize + l.length) % ringSize))).hbmWrite
        (ringAt ((off.toNat - 0x01000000) / ringSize) + 16) ((l.drop 4).take 4 ++ leBytes 8 (ofLe ((l.drop 8).take 8) + 1))).mirrored e t.toNat) := by
  have takes : (c.received l.length).mirrors = true := by simp [Chip.mirrors, Chip.received, Chip.modPar, standby]
  unfold journalOp
  simp only []
  rw [if_neg]
  rintro (refuses | early | late | long)
  · simp [takes] at refuses
  · exact absurd from0 (Nat.not_le.mpr early)
  · exact absurd below (Nat.not_lt.mpr late)
  · exact absurd short (Nat.not_le.mpr long)

/-- Part of the copy reaches a unit that is copied to (R700). -/
theorem copy_arrives (copied : c.par.copying = true) (inside : off.toNat + l.length ≤ 0x200000000) :
    copyOp off l c = (c.received l.length).hbmWrite off.toNat l := by
  have takes : (c.received l.length).par.copying = true := copied
  unfold copyOp
  simp only []
  rw [if_neg]
  rintro (refuses | beyond)
  · simp [takes] at refuses
  · exact absurd inside (Nat.not_le.mpr beyond)

/-- A confirmed ticket leaves the pair's state. -/
theorem Chip.confirmTicket_par (c : Chip) (e t : Nat) (alone : Bool) : (c.confirmTicket e t alone).par = c.par := by
  have wakes : ∀ (d : Chip), (d.landWake e).par = d.par := fun d => by
    unfold Chip.landWake
    dsimp only
    split
    · split
      · rfl
      · split <;> rfl
    · rfl
  unfold Chip.confirmTicket
  dsimp only
  split
  · exact wakes _
  · rfl

/-- The tickets of an engine that a CONFIRM names are confirmed, and no handover follows while none is under way. -/
theorem confirm_idle (idle : c.par.handing = .none) : confirmOp e t c =
    (((c.eng e).tickets.filter fun k => decide (0 ≤ timeDiff t.toNat k.num)).map (·.num)).foldl (fun d k => d.confirmTicket e k false) (c.received 0) := by
  have kept : ∀ (l : List Nat) (d : Chip), (l.foldl (fun d k => d.confirmTicket e k false) d).par = d.par := fun l => by
    induction l with
    | nil => exact fun _ => rfl
    | cons k l ih => exact fun d => (ih _).trans (d.confirmTicket_par e k false)
  unfold confirmOp
  simp only []
  refine if_neg fun over0 => ?_
  rw [kept] at over0
  have none0 : (c.received 0).par.handing = .none := idle
  rw [none0] at over0
  exact absurd over0.1 (by decide)

theorem state_twr {i : BitVec 16} {j : BitVec 8} (standby : c.par.role = .standby) :
    stateOp (.twr i j) c = (c.received 32).setTwr i.toNat { c.twr i.toNat with state := j.toNat } := by
  have takes : (c.received 32).mirrors = true := by simp [Chip.mirrors, Chip.received, Chip.modPar, standby]
  unfold stateOp
  simp only []
  rw [if_neg (by simp [takes])]
  rfl

theorem copyComplete_standby (fenced : c.par.role = .fenced) (copied : c.par.copying = true) : copyCompleteOp c = Chip.roleEvent
    { c with par := { c.par with role := .standby, copying := false, reclaimBlocked := false, wasActive := false, grantSent := none } } .fenced 7 0 := by
  unfold copyCompleteOp
  rw [if_neg (by simp [fenced, copied])]
  rfl

end

/-! ### The exchange of time (R118, R119, R680) -/

section
variable {c : Chip} {t1 t2 t4 : W64}

theorem time_first (first : c.par.timeGot = none ∨ c.par.timeSent = none) :
    timeOp t1 t2 t4 c = { c with par := { c.par with owed := c.par.owed + 1, timeGot := some t4.toNat } } := by
  unfold timeOp
  rw [Chip.received_single c (n := 16) rfl]
  simp only []
  split
  · next got sent => rcases first with none0 | none0 <;> simp_all
  · rfl

theorem time_pairs {got sent : Nat} {o : Int} (received : c.par.timeGot = some got) (left : c.par.timeSent = some sent) (own : c.tmb.following = false)
    (state : c.tmb.state ≠ .holdover)
    (offset : (toSigned 64 ((got + 2 ^ 64 - t1.toNat) % 2 ^ 64) - toSigned 64 ((t2.toNat + 2 ^ 64 - sent) % 2 ^ 64)) / 2 / 65536 = o) :
    timeOp t1 t2 t4 c =
      { c with par := { c.par with owed := c.par.owed + 1, timeGot := some t4.toNat, timeOffset := satInt (2 ^ 31 - 1) o } } := by
  have alone : ∀ (d : Chip), d.tmb = c.tmb → d.followPartner o = d := fun d same => by
    unfold Chip.followPartner
    rw [same, if_neg (by simp [own]), if_neg fun follows => state follows.1]
  have op := timeOp.eq_1 t1 t2 t4 c
  rw [Chip.received_single c (n := 16) rfl] at op
  simp only [] at op
  rw [received, left] at op
  simp only [] at op
  rw [offset] at op
  refine op.trans ((alone _ ?_).trans ?_)
  · rfl
  · rw [← received, ← left]
    rfl

end

/-- Settles O52: each message by what its receiver is, and each sending by the credits. -/
theorem couplerTraffic : Obligations.CouplerTraffic := by
  unfold Obligations.CouplerTraffic
  have runs : ∀ {s : State} (_ : s.chip.clocked = true) {op : Chip → Chip} {t : Chip}, op s.chip = t → onChip op s = .next (s.put t) :=
    fun clocked _ _ result => (onChip_clocked _ clocked).trans (congrArg _ (congrArg _ result))
  refine ⟨fun s m n off l e t clocked => ?_, fun s t1 t2 t4 got sent clocked => ?_⟩
  · intro c p
    refine ⟨fun trained owed credit => ?_, fun trained settled next plain credit => ?_, ?_, fun standby inside => ?_, fun other plain => ?_, ?_, fun idle => ?_,
      fun i j standby => ?_, fun copied inside => ?_, fun fenced copied => ?_⟩
    · exact runs clocked (couplerSend_credits clocked trained owed credit)
    · exact runs clocked (couplerSend_queue clocked trained settled next plain credit)
    · exact runs clocked (credit_returns c n)
    · exact runs clocked (mirror_standby standby inside)
    · exact runs clocked (mirror_refused other plain)
    · exact fun standby from0 below short => runs clocked (journal_standby standby from0 below short)
    · exact runs clocked (confirm_idle idle)
    · exact runs clocked (state_twr standby)
    · exact runs clocked (copy_arrives copied inside)
    · exact runs clocked (copyComplete_standby fenced copied)
  · intro c p
    refine ⟨fun trained credit => ?_, fun first => ?_, fun received left own state => ?_⟩
    · exact runs clocked (timeSend_exchanges clocked trained credit)
    · exact runs clocked (time_first first)
    · exact runs clocked (time_pairs received left own state rfl)

end Sys2Proof.Machine
end

section
/-! Obligation O53: the proof cycle and the planned handover. -/

namespace Sys2Proof.Machine

/-! ### The proof cycle (R698, R699, R703) -/

section
variable {c : Chip} {k : Fin 9} (clocked : c.clocked = true)
include clocked

section
variable (standby : c.par.role = .standby) (partner : c.par.partnerRole = 0)
include standby partner

theorem proofCycle_passes : proofCycleOp 0 c = { c with par := { c.par with
    rxProved := true, proofOk := true, clean := satAdd 16 c.par.clean 1,
    failbackReady := c.par.failbackReady || (c.par.preferred && decide (10 * c.eff 83 0x100 0 ≤ satAdd 16 c.par.clean 1)) } } := by
  unfold proofCycleOp
  simp only []
  rw [if_neg (by simp [clocked, standby, partner]), if_neg (by simp [Chip.modPar, standby]), if_neg (by simp)]
  rfl

theorem proofCycle_fails (failed : k ≠ 0) : proofCycleOp k c = Chip.setCause { c with par := { c.par with
    rxProved := k != 1 && k != 2, proofOk := false, failbackReady := false, clean := 0, lastFail := k, fails := satAdd 8 c.par.fails 1 } } 83 5 := by
  unfold proofCycleOp
  simp only []
  rw [if_neg (by simp [clocked, standby, partner]), if_neg (by simp [Chip.modPar, standby]), if_pos failed]
  rfl

end

theorem proofCycle_active (active : c.par.role = .active) (partner : c.par.partnerRole = 1) :
    proofCycleOp k c = { c with par := { c.par with rxProved := k != 1 && k != 2 } } := by
  unfold proofCycleOp
  simp only []
  rw [if_neg (by simp [clocked, active, partner]), if_pos (by simp [Chip.modPar, active])]
  rfl

end

/-! ### The planned handover (R704–R706) -/

section
variable {c : Chip}

theorem plannedHandover_drains (active : c.par.role = .active) (idle : c.par.handing = .none) (standby : c.par.partnerRole = 1)
    (proved : c.par.partnerProofOk = true) : plannedHandoverOp c = { c with par := { c.par with handing := .draining } } := by
  unfold plannedHandoverOp Chip.startHandover
  rw [if_pos ⟨standby, proved⟩, if_pos ⟨active, idle⟩]
  rfl

/-- With no interval reserved the instant is now (R704). -/
theorem handoverDrainDone_now (draining : c.par.handing = .draining) (drained : c.drained = true)
    (unreserved : ∀ x ∈ c.wins, x.2.live = false ∨ x.2.reserved = []) :
    handoverDrainDoneOp c = { c with par := { c.par with handing := .drained, handAt := c.nowNs } } := by
  have reservations : (c.wins.filter fun w => w.2.live && !w.2.reserved.isEmpty) = [] := by
    refine List.filter_eq_nil_iff.mpr fun w at0 => ?_
    rcases unreserved w at0 with dead | empty
    · simp [dead]
    · simp [empty]
  unfold handoverDrainDoneOp
  rw [if_neg (by simp [draining, drained]), reservations]
  rfl

/-- Firmware's channels pause; those at rest stay (R704). -/
theorem pauseFirmware_rest {l : List Nat} (rest : ∀ k ∈ l, (c.chan (48 + k)).state ≠ .running) :
    l.foldl (fun c k => if (c.chan (48 + k)).state = .running then c.modChan (48 + k) fun h => { h with pausePend := true } else c) c = c := by
  induction l with
  | nil => rfl
  | cons k l ih =>
    rw [List.foldl_cons, if_neg (rest k (List.mem_cons_self ..))]
    exact ih fun j at0 => rest j (List.mem_cons_of_mem _ at0)

theorem handoverInstant_rest (drained : c.par.handing = .drained) (rest : ∀ j < 16, (c.chan (48 + j)).state ≠ .running) :
    handoverInstantOp c = Chip.handOff { c.passTo c.par.handAt with par := { c.par with handing := .stopped } } := by
  obtain ⟨m, later⟩ := c.passTo_tmb c.par.handAt
  have still : ∀ j ∈ List.range 16, (({ c with tmb := m } : Chip).chan (48 + j)).state ≠ .running := fun j at0 => rest j (List.mem_range.mp at0)
  unfold handoverInstantOp
  rw [if_neg (by simp [drained])]
  simp only [later]
  rw [pauseFirmware_rest still]
  rfl

theorem handover_standby (next : BitVec 48) (standby : c.par.role = .standby) : handoverOp next c = Chip.takeToken { c with
    admNext := next.toNat,
    par := { c.par with
      owed := c.par.owed + 1, seqTop := none, lastGrant := some c.tmb.up, degradedAtGrant := c.par.degraded, heardSinceGrant := false } } .active 6 := by
  unfold handoverOp
  rw [Chip.received_single c (n := 8) rfl]
  simp only []
  rw [if_neg (by simp [standby])]
  rfl

theorem handover_other (next : BitVec 48) (other : c.par.role ≠ .standby) : handoverOp next c = c.received 8 := by
  have role : (c.received 8).par.role ≠ .standby := other
  unfold handoverOp
  simp only []
  rw [if_pos role]

end

/-- Settles O53: the proof cycle by role and step, the handover by the state it has reached. -/
theorem plannedHandover : Obligations.PlannedHandover := by
  unfold Obligations.PlannedHandover
  have runs : ∀ {s : State} (_ : s.chip.clocked = true) {op : Chip → Chip} {t : Chip}, op s.chip = t → onChip op s = .next (s.put t) :=
    fun clocked _ _ result => (onChip_clocked _ clocked).trans (congrArg _ (congrArg _ result))
  intro s w k next clocked c p
  refine ⟨fun standby partner passed => ?_, fun standby partner failed => ?_, fun active partner => ?_, fun reach active idle standby proved => ?_,
    fun draining drained unreserved => ?_, fun drained rest => ?_, fun standby => ?_, fun other => ?_⟩
  · subst passed
    exact runs clocked (proofCycle_passes clocked standby partner)
  · exact runs clocked (proofCycle_fails clocked standby partner failed)
  · exact runs clocked (proofCycle_active clocked active partner)
  · exact (onWrite_reached _ clocked reach).trans (congrArg _ (congrArg s.put (plannedHandover_drains active idle standby proved)))
  · exact runs clocked (handoverDrainDone_now draining drained unreserved)
  · exact runs clocked (handoverInstant_rest drained rest)
  · exact runs clocked (handover_standby next standby)
  · exact runs clocked (handover_other next other)

end Sys2Proof.Machine
end

section
/-! Obligation O54: the Guard's watches, ERR_OUT, block resets, and the hold-up test. -/

namespace Sys2Proof.Machine

/-! ### The Guard (R715, R719, R723, R724, R733) -/

section
variable {c : Chip} {r : Rec}

theorem handleTimeout_merged {k : Nat} (marked : ((c.blk r).watch.find? fun k => bitAt (causesS (kindOf r)) k) = some k)
    (handling : (c.blk r).handling = true) : handleTimeoutOp r c =
      Chip.setCause { c with grd := { c.grd with handleRecord := r.val, handleCause := k } } 84 4 := by
  unfold handleTimeoutOp
  simp only [marked]
  exact if_pos handling

theorem handleTimeout_unwatched (unwatched : (c.blk r).watch = []) : handleTimeoutOp r c = c := by
  unfold handleTimeoutOp
  simp only [unwatched, List.find?_nil]

theorem aloneSelfProof_fails (alone : c.par.role = .alone) : aloneSelfProofOp 4 c = Chip.setCause
    { c with par := { c.par with proofOk := false, failbackReady := false, clean := 0, lastFail := 4, fails := satAdd 8 c.par.fails 1 } } 83 5 := by
  unfold aloneSelfProofOp
  rw [if_pos ⟨alone, .inl rfl⟩]
  rfl

theorem errOutTest_asserts (released : c.grd.errOutPin = false) : errOutTestOp c = { c with
    out := c.out ++ [.errOut true], grd := { c.grd with errOutPin := true, test := true, errHold := true } } := by
  unfold errOutTestOp Chip.assertErr
  rw [if_neg (by simp [released])]
  rfl

/-- The minimum has passed and nothing holds the pin (R724). -/
theorem errOutHoldEnd_releases (booted : c.grd.boot = false) (quiet : ∀ x ∈ c.blocks, x.2.handling = false ∨ x.2.errOut = false)
    (asserted : c.grd.errOutPin = true) : errOutHoldEndOp c = { c with
      out := c.out ++ [.errOut false], grd := { c.grd with test := false, errHold := false, errOutPin := false } } := by
  have blocks : (c.blocks.any fun b => b.2.handling && b.2.errOut) = false := by
    refine List.any_eq_false.mpr fun x at0 => ?_
    rcases quiet x at0 with rests | silent
    · simp [rests]
    · simp [silent]
  unfold errOutHoldEndOp Chip.releaseErr
  rw [if_pos (by simp [asserted, Chip.errReason, booted, blocks])]
  rfl

theorem guardSelfTest_passes (boots : c.sec.boot ≠ .rom) : guardSelfTestOp c = Chip.releaseErr { c with grd := { c.grd with boot := false } } :=
  if_neg boots

theorem blockResetDone_ends (resetting : (c.blk r).resetting = true) : blockResetDoneOp r c =
    (let d := (c.blockReset r).modBlk r fun y => { y.resetCfg with resetting := false }
    d.faultEvent r (d.blk r).first 3 false (d.blk r).place) := by
  unfold blockResetDoneOp
  rw [if_neg (by simp [resetting])]

end

/-! ### The hold-up test (R744–R747) -/

section
variable (g : Age) {e f : Nat}

theorem Age.measure_first (first : g.eFirst = true) : (g.measure e).eAcc = e := by
  simp only [Age.measure, first, if_true]

theorem Age.measure_lower (later : g.eFirst = false) (lower : e < g.eAcc) : (g.measure e).eAcc = e := by
  simp only [Age.measure, later, Bool.false_eq_true, if_false, lower, if_true]

/-- A first higher measurement only waits for another. -/
theorem Age.measure_higher (later : g.eFirst = false) (alone : g.ePrevAbove = none) (higher : g.eAcc < e) :
    (g.measure e).eAcc = g.eAcc ∧ (g.measure e).eFirst = false ∧ (g.measure e).ePrevAbove = some e := by
  simp only [Age.measure, later, alone, higher, Nat.not_lt_of_gt higher, Bool.false_eq_true, if_false, if_true, and_self]

theorem Age.measure_second {p : Nat} (later : g.eFirst = false) (prev : g.ePrevAbove = some p) (higher : g.eAcc < f) : (g.measure f).eAcc = min p f := by
  simp only [Age.measure, later, prev, higher, Nat.not_lt_of_gt higher, Bool.false_eq_true, if_false, if_true]

theorem Age.measure_twice (later : g.eFirst = false) (alone : g.ePrevAbove = none) (higher : g.eAcc < e) (again : g.eAcc < f) :
    ((g.measure e).measure f).eAcc = min e f := by
  obtain ⟨acc, first, prev⟩ := g.measure_higher later alone higher
  exact (g.measure e).measure_second first prev (acc ▸ again)

end

section
variable {c : Chip} {v0 : BitVec 16}

/-- A test that was asked for is due at once. -/
theorem hupTestStart_asked (asked : c.age.hupNow = true) (good : c.vault.pwrFail = false) (idle : c.age.hupRunning = none) : hupTestStartOp v0 c = { c with
    out := c.out ++ [.hupTest true], age := { c.age with hupRunning := some v0.toNat, hupTestPin := true, hupNow := false, hupAt := some c.tmb.up } } := by
  have due : c.hupDue = some 0 := if_pos asked
  unfold hupTestStartOp
  simp only [due]
  rw [if_neg (by simp [good, idle]), Chip.passUp_past (Nat.zero_le _)]
  rfl

/-- The machine as a test ends at an instant: the switch open and line 0xED pulsed. -/
def Chip.hupRead (c : Chip) (u v0 v1 : Nat) : Chip :=
  { c.passUp u with
    out := c.out ++ [.hupTest false], pulses := c.pulses ++ [0xED],
    age := { c.age with hupRunning := none, hupTestPin := false, v0 := v0, v1 := v1 } }

section
variable {u : Nat} (instant : c.age.hupAt.getD c.tmb.up + nsUp 2000000 = u)
include instant

theorem hupTestEnd_case {v0 : Nat} (running : c.age.hupRunning = some v0) (v1 : BitVec 16) : hupTestEndOp v1 c =
    match hupEnergy v0 v1.toNat (8 * c.eff 90 0x104 19) (c.eff 90 0x104 0) (c.eff 90 0x104 12) with
    | none => c.hupRead u v0 v1.toNat
    | some e =>
      let d : Chip := { c.hupRead u v0 v1.toNat with age := (c.hupRead u v0 v1.toNat).age.measure e }
      (if (d.age.eAcc, d.age.eFirst) = (c.age.eAcc, c.age.eFirst) then d else d.record 7 90 3 d.age.eAcc 0).checkPlan := by
  unfold hupTestEndOp
  rw [running]
  simp only []
  rw [instant]
  rfl

/-- Without a fall of the voltage the measurement is discarded (R745). -/
theorem hupTestEnd_discards (running : c.age.hupRunning = some v0.toNat) : hupTestEndOp v0 c = c.hupRead u v0.toNat v0.toNat := by
  have energy : ∀ m l x, hupEnergy v0.toNat v0.toNat m l x = none := fun m l x => if_pos le_rfl
  rw [hupTestEnd_case instant running, energy]

/-- A higher measurement after no other changes nothing in force (R747). -/
theorem hupTestEnd_higher {v1 : BitVec 16} {e : Nat} (running : c.age.hupRunning = some v0.toNat)
    (energy : hupEnergy v0.toNat v1.toNat (8 * c.eff 90 0x104 19) (c.eff 90 0x104 0) (c.eff 90 0x104 12) = some e) (later : c.age.eFirst = false)
    (alone : c.age.ePrevAbove = none) (higher : c.age.eAcc < e) : hupTestEndOp v1 c =
      Chip.checkPlan { c.passUp u with
        out := c.out ++ [.hupTest false], pulses := c.pulses ++ [0xED],
        age := Age.measure { c.age with hupRunning := none, hupTestPin := false, v0 := v0.toNat, v1 := v1.toNat } e } := by
  have age : (c.hupRead u v0.toNat v1.toNat).age.eAcc = c.age.eAcc := rfl
  obtain ⟨acc, first, -⟩ := Age.measure_higher (c.hupRead u v0.toNat v1.toNat).age (e := e) later alone higher
  rw [hupTestEnd_case instant running, energy]
  simp only []
  rw [if_pos (by rw [acc, age, first, later])]
  rfl

end

end

/-- Settles O54: the Guard's commands by what they find, and the hold-up test by its measurements. -/
theorem guardAndHoldUp : Obligations.GuardAndHoldUp := by
  unfold Obligations.GuardAndHoldUp
  have runs : ∀ {s : State} (_ : s.chip.clocked = true) {op : Chip → Chip} {t : Chip}, op s.chip = t → onChip op s = .next (s.put t) :=
    fun clocked _ _ result => (onChip_clocked _ clocked).trans (congrArg _ (congrArg _ result))
  have writes : ∀ {s : State} (_ : s.chip.clocked = true) {w : Who} (_ : Who.mayWrite w s.chip = true) {op : Chip → Chip} {t : Chip},
      op s.chip = t → onWrite w op s = .next (s.put t) :=
    fun clocked _ reach _ _ result => (onWrite_reached _ clocked reach).trans (congrArg _ (congrArg _ result))
  refine ⟨fun s w r k clocked => ?_, fun s w v0 g e f clocked => ?_⟩
  · intro c b
    refine ⟨fun marked handling => ?_, fun unwatched => ?_, fun alone => ?_, fun other => ?_, fun reach released => ?_,
      fun booted quiet asserted => ?_, fun boots => ?_, fun resetting => ?_⟩
    · exact runs clocked (handleTimeout_merged marked handling)
    · exact runs clocked (handleTimeout_unwatched unwatched)
    · exact runs clocked (aloneSelfProof_fails alone)
    · exact runs clocked (if_neg fun both => other both.1)
    · exact writes clocked reach (errOutTest_asserts released)
    · exact runs clocked (errOutHoldEnd_releases booted quiet asserted)
    · exact runs clocked (guardSelfTest_passes boots)
    · exact runs clocked (blockResetDone_ends resetting)
  · intro c
    refine ⟨fun reach => ?_, fun asked good idle => ?_, fun running => ?_, fun v1 running energy later alone higher => ?_, fun first => ?_,
      fun later lower => ?_, fun later alone higher => ?_, fun later alone higher again => ?_⟩
    · exact writes clocked reach rfl
    · exact runs clocked (hupTestStart_asked asked good idle)
    · exact runs clocked (hupTestEnd_discards rfl running)
    · exact runs clocked (hupTestEnd_higher rfl running energy later alone higher)
    · exact g.measure_first first
    · exact g.measure_lower later lower
    · exact (g.measure_higher later alone higher).1
    · exact g.measure_twice later alone higher again

end Sys2Proof.Machine
end

section
/-! Obligation O55: slack, thermal history and the crystal's offset; the acceleration factor rises with the temperature. -/

namespace Sys2Proof.Machine

section
variable (c : Chip) (ps : BitVec 10)

/-- The machine after a slack sample that leaves the setpoint at `sp` (R736). -/
def Chip.sampled (sp : Nat) : Chip :=
  (Chip.record { c with free := c.free + 1, age := { c.age with slack := ps.toNat, setpoint := sp, dayMin := min c.age.dayMin sp } } 7 90 1 sp 0).checkMargin

theorem slackSample_short (short : ps.toNat < 25) : slackSampleOp ps c = c.sampled ps (min 800 (c.age.setpoint + 5)) := by
  have op := slackSampleOp.eq_1 ps c
  simp only [if_pos short] at op
  exact op

/-- With slack to spare the setpoint stays, or firmware lowers it by a step. -/
theorem slackSample_spare (spare : 25 ≤ ps.toNat) :
    ∃ sp, (sp = c.age.setpoint ∨ sp = max 650 (c.age.setpoint - 5)) ∧ slackSampleOp ps c = c.sampled ps sp := by
  have op := slackSampleOp.eq_1 ps c
  simp only [if_neg (Nat.not_lt.mpr spare)] at op
  refine ⟨if (c.fresh 2).1 = 1 then max 650 (c.age.setpoint - 5) else c.age.setpoint, ?_, op⟩
  split
  · exact .inr rfl
  · exact .inl rfl

theorem thermalIntegrate_hot {tj : Int} (hot : 105 < tj) (within : (c.age.seconds + 1) % 86400 ≠ 0) :
    thermalIntegrateOp tj c = Chip.checkMargin { c with age := { c.age with eq := c.age.eq + accel tj, seconds := c.age.seconds + 1 } } := by
  unfold thermalIntegrateOp
  simp only []
  rw [if_neg (by omega), if_neg within]

end

/-! ### The acceleration factor (R738) -/

theorem accel_step (k : Fin 165) : accel ((k.val : Int) - 40) < accel ((k.val : Int) - 39) := by
  revert k
  decide +kernel

/-- The factor rises strictly from −40 °C to 125 °C. -/
theorem accel_lt {a b : Int} (low : -40 ≤ a) (order : a < b) (high : b ≤ 125) : accel a < accel b := by
  have step : ∀ t : Int, -40 ≤ t → t < 125 → accel t < accel (t + 1) := fun t from0 below => by
    have one := accel_step ⟨(t + 40).toNat, by omega⟩
    have here : (((t + 40).toNat : Nat) : Int) - 40 = t := by omega
    have next : (((t + 40).toNat : Nat) : Int) - 39 = t + 1 := by omega
    rwa [here, next] at one
  refine Int.leInduction (motive := fun b _ => b ≤ 125 → accel a < accel b) (fun top => step a low (by omega)) (fun t later ih top => ?_) b order high
  exact (ih (by omega)).trans (step t (by omega) (by omega))

/-- Settles O55: each command by its branch, and the factor by its values at whole degrees. -/
theorem ageing : Obligations.Ageing := by
  unfold Obligations.Ageing
  have runs : ∀ {s : State} (_ : s.chip.clocked = true) {op : Chip → Chip} {t : Chip}, op s.chip = t → onChip op s = .next (s.put t) :=
    fun clocked _ _ result => (onChip_clocked _ clocked).trans (congrArg _ (congrArg _ result))
  intro s w ps tj clocked c g
  refine ⟨fun short => ?_, fun spare => ?_, fun hot within => ?_, ?_, fun reach => ?_, by decide, fun a b => accel_lt⟩
  · exact runs clocked (slackSample_short c ps short)
  · obtain ⟨sp, choice, op⟩ := slackSample_spare c ps spare
    exact ⟨sp, choice, runs clocked op⟩
  · exact runs clocked (thermalIntegrate_hot c hot within)
  · exact runs clocked rfl
  · exact (onWrite_reached _ clocked reach).trans rfl

end Sys2Proof.Machine
end

section
/-! Obligation O56: the common trigger, the audit, the recorder's controls. -/

namespace Sys2Proof.Machine

/-! ### Runs over blocks and pools -/

section
variable {l : List Nat} (once : l.Nodup)
include once

theorem Chip.blk_foldl_modBlk {h : Nat → Block → Block} (c : Chip) (x : Nat) :
    (l.foldl (fun c r => c.modBlk r (h r)) c).blk x = if x ∈ l then h x (c.blk x) else c.blk x := by
  induction l generalizing c with
  | nil => rfl
  | cons r l ih =>
    obtain ⟨apart, rest⟩ := List.nodup_cons.mp once
    rw [List.foldl_cons, ih rest]
    by_cases hit : x = r
    · subst hit
      rw [if_neg apart, if_pos (List.mem_cons_self ..), Chip.blk_modBlk_self]
    · rw [Chip.blk_modBlk_ne _ _ hit]
      simp [hit]

theorem Chip.pool_foldl_modPool {h : Pool → Pool} (c : Chip) (x : Nat) :
    (l.foldl (fun c p => c.modPool p h) c).pool x = if x ∈ l then h (c.pool x) else c.pool x := by
  induction l generalizing c with
  | nil => rfl
  | cons p l ih =>
    obtain ⟨apart, rest⟩ := List.nodup_cons.mp once
    rw [List.foldl_cons, ih rest]
    by_cases hit : x = p
    · subst hit
      rw [if_neg apart, if_pos (List.mem_cons_self ..), Chip.pool_modPool_self]
    · rw [Chip.pool_modPool_ne _ _ hit]
      simp [hit]

end

section
variable (l : List Nat) (c : Chip)

theorem Chip.foldl_modBlk_blocks {h : Nat → Block → Block} :
    ∃ bs, l.foldl (fun c r => c.modBlk r (h r)) c = { c with blocks := bs } := by
  induction l generalizing c with
  | nil => exact ⟨_, rfl⟩
  | cons r l ih =>
    obtain ⟨bs, rest⟩ := ih (c.modBlk r (h r))
    exact ⟨bs, rest⟩

theorem Chip.foldl_modPool_pools {h : Pool → Pool} :
    ∃ ps, l.foldl (fun c p => c.modPool p h) c = { c with pools := ps } := by
  induction l generalizing c with
  | nil => exact ⟨_, rfl⟩
  | cons p l ih =>
    obtain ⟨ps, rest⟩ := ih (c.modPool p h)
    exact ⟨ps, rest⟩

theorem Chip.foldl_record_evr {α : Type} {kind blk : Nat} {code a0 a1 : α → Nat} (l : List α) :
    ∃ e, l.foldl (fun c q => c.record kind blk (code q) (a0 q) (a1 q)) c = { c with evr := e } := by
  induction l generalizing c with
  | nil => exact ⟨_, rfl⟩
  | cons q l ih =>
    obtain ⟨e, first⟩ := c.record_evr kind blk (code q) (a0 q) (a1 q)
    obtain ⟨f, rest⟩ := ih (c.record kind blk (code q) (a0 q) (a1 q))
    exact ⟨f, by rw [List.foldl_cons, rest, first]⟩

end

/-! ### The trigger (R750–R753) -/

theorem blockRecs_nodup : blockRecs.Nodup := List.nodup_range.map fun _ _ same => Nat.succ.inj same

section
variable (c : Chip)

/-- Every block's bank has latched. -/
def Chip.banked (c : Chip) : Chip :=
  blockRecs.foldl (fun d r => d.modBlk r fun x => { x with snap := c.latchBank r ((c.snp.seq + 1) % 2 ^ 32) c.nowLayout }) c

/-- Every pool's counters have latched. -/
def Chip.pooled (c : Chip) : Chip :=
  (List.range 8).foldl (fun d p => d.modPool p fun q => { q with snap := (q.granted, q.returned, q.held, q.inFlight) }) c

/-- The trigger has taken its number and the time, and line 0xFE pulses. -/
def Chip.triggered : Chip :=
  let d := c.banked.pooled
  { d with
    snp := { seq := (c.snp.seq + 1) % 2 ^ 32, time := c.nowLayout, requests := [],
             outHigh := d.snp.outHigh || c.snp.requests.any fun q => q.1 != 0, sinceAudit := true, last := some d.tmb.up },
    pulses := d.pulses ++ [0xFE] }

theorem Chip.fireSnap_eq : c.fireSnap =
    let d := c.snp.requests.foldl (fun d q => d.record 1 91 q.1 ((c.snp.seq + 1) % 2 ^ 32) q.2) c.triggered
    if c.snp.requests.any fun q => q.1 != 0 then d.emit (.snapOut true) else d := by
  simp only [Chip.fireSnap, List.foldl_map, Chip.triggered, Chip.pooled, Chip.banked, Chip.pulse]

/-- Beside the banks and the latched counters the trigger moves its own state, its records and its pulses (R752). -/
theorem Chip.fireSnap_frame : ∃ e o, c.fireSnap = { c.triggered with evr := e, out := o } := by
  obtain ⟨e, records⟩ := Chip.foldl_record_evr (kind := 1) (blk := 91) (code := fun q : Nat × Nat => q.1) (a0 := fun _ => (c.snp.seq + 1) % 2 ^ 32)
    (a1 := fun q => q.2) c.triggered c.snp.requests
  rw [c.fireSnap_eq, records]
  generalize c.triggered = d
  dsimp only
  split
  · exact ⟨e, _, rfl⟩
  · exact ⟨e, d.out, rfl⟩

theorem Chip.banked_blk {r : Nat} (block : r ∈ blockRecs) :
    c.banked.blk r = { c.blk r with snap := c.latchBank r ((c.snp.seq + 1) % 2 ^ 32) c.nowLayout } := by
  refine (Chip.blk_foldl_modBlk blockRecs_nodup
    (h := fun r x => { x with snap := c.latchBank r ((c.snp.seq + 1) % 2 ^ 32) c.nowLayout }) c r).trans ?_
  rw [if_pos block]

theorem Chip.pooled_pool {p : Nat} (below : p < 8) :
    (c.pooled.pool p).snap = ((c.pool p).granted, (c.pool p).returned, (c.pool p).held, (c.pool p).inFlight) := by
  have latched := Chip.pool_foldl_modPool List.nodup_range (l := List.range 8)
    (h := fun q => { q with snap := (q.granted, q.returned, q.held, q.inFlight) }) c p
  rw [if_pos (List.mem_range.mpr below)] at latched
  exact congrArg Pool.snap latched

theorem Chip.pooled_frame : ∃ ps, c.pooled = { c with pools := ps } :=
  Chip.foldl_modPool_pools (h := fun q => { q with snap := (q.granted, q.returned, q.held, q.inFlight) }) (List.range 8) c

theorem Chip.banked_frame : ∃ bs, c.banked = { c with blocks := bs } :=
  Chip.foldl_modBlk_blocks (h := fun r x => { x with snap := c.latchBank r ((c.snp.seq + 1) % 2 ^ 32) c.nowLayout }) blockRecs c

theorem Chip.triggered_blk (r : Nat) : c.triggered.blk r = c.banked.blk r := by
  obtain ⟨ps, pooled⟩ := c.banked.pooled_frame
  unfold Chip.triggered
  rw [pooled]
  generalize c.banked = d
  rfl

theorem Chip.triggered_pool {p : Nat} (below : p < 8) :
    (c.triggered.pool p).snap = ((c.pool p).granted, (c.pool p).returned, (c.pool p).held, (c.pool p).inFlight) := by
  have same : c.banked.pool p = c.pool p := by
    obtain ⟨bs, banked⟩ := c.banked_frame
    rw [banked]
    rfl
  have kept : c.triggered.pool p = c.banked.pooled.pool p := by
    unfold Chip.triggered
    generalize c.banked.pooled = d
    rfl
  rw [kept, c.banked.pooled_pool below, same]

theorem Chip.triggered_frame : ∃ bs ps, c.triggered = { c with
    blocks := bs, pools := ps,
    snp := { seq := (c.snp.seq + 1) % 2 ^ 32, time := c.nowLayout, requests := [],
             outHigh := c.snp.outHigh || c.snp.requests.any fun q => q.1 != 0, sinceAudit := true, last := some c.tmb.up },
    pulses := c.pulses ++ [0xFE] } := by
  obtain ⟨bs, banked⟩ := c.banked_frame
  obtain ⟨ps, pooled⟩ := c.banked.pooled_frame
  refine ⟨bs, ps, ?_⟩
  unfold Chip.triggered
  rw [pooled, banked]

/-- The trigger: its number and the time in every bank, every pool's counters, its pulse, and no request left (R750–R753). -/
theorem Chip.fireSnap_latches : c.fireSnap.snp.seq = (c.snp.seq + 1) % 2 ^ 32 ∧ c.fireSnap.snp.time = c.nowLayout ∧ c.fireSnap.snp.requests = [] ∧
    c.fireSnap.snp.sinceAudit = true ∧ c.fireSnap.pulses = c.pulses ++ [0xFE] ∧
    (∀ r ∈ blockRecs, (c.fireSnap.blk r).snap.seq = (c.snp.seq + 1) % 2 ^ 32 ∧ (c.fireSnap.blk r).snap.time = c.nowLayout ∧
      (c.fireSnap.blk r).cause = (c.blk r).cause) ∧
    (∀ p < 8, (c.fireSnap.pool p).snap = ((c.pool p).granted, (c.pool p).returned, (c.pool p).held, (c.pool p).inFlight)) ∧
    c.fireSnap = { c with
      blocks := c.fireSnap.blocks, pools := c.fireSnap.pools, snp := c.fireSnap.snp, evr := c.fireSnap.evr, pulses := c.fireSnap.pulses,
      out := c.fireSnap.out } := by
  obtain ⟨e, o, fired⟩ := c.fireSnap_frame
  have blks : ∀ r, c.fireSnap.blk r = c.triggered.blk r := fun r => by
    rw [fired]
    generalize c.triggered = d
    rfl
  have pools : ∀ p, c.fireSnap.pool p = c.triggered.pool p := fun p => by
    rw [fired]
    generalize c.triggered = d
    rfl
  have bank : ∀ r ∈ blockRecs, c.fireSnap.blk r = { c.blk r with snap := c.latchBank r ((c.snp.seq + 1) % 2 ^ 32) c.nowLayout } := fun r block => by
    rw [blks, c.triggered_blk, c.banked_blk block]
  have counts : ∀ p < 8, (c.fireSnap.pool p).snap = ((c.pool p).granted, (c.pool p).returned, (c.pool p).held, (c.pool p).inFlight) := fun p below => by
    rw [pools, c.triggered_pool below]
  obtain ⟨bs, ps, triggered⟩ := c.triggered_frame
  rw [triggered] at fired
  refine ⟨?_, ?_, ?_, ?_, ?_, fun r block => ?_, counts, ?_⟩
  · rw [fired]
  · rw [fired]
  · rw [fired]
  · rw [fired]
  · rw [fired]
  · rw [bank r block]
    exact ⟨rfl, rfl, rfl⟩
  · rw [fired]

theorem snapTrigger_first (asked : c.snp.requests ≠ []) (first : c.snp.last = none) : snapTriggerOp c = c.fireSnap := by
  unfold snapTriggerOp Chip.fireSoon
  rw [if_neg (by simpa using asked), first]

theorem snapOutEnd_falls {u : Nat} (high : c.snp.outHigh = true) (instant : c.snp.last.getD 0 + nsUp 120 = u) :
    snapOutEndOp c = { c.passUp u with out := c.out ++ [.snapOut false], snp := { c.snp with outHigh := false } } := by
  unfold snapOutEndOp
  rw [if_neg (by simp [high]), instant]
  rfl

end

/-! ### The audit (R34, R35, R734, R735) -/

section
variable (c : Chip)

theorem Chip.takeCounters_pool {p : Nat} (below : p < 8) : c.takeCounters.pool p = { c.pool p with latched := (c.pool p).snap } := by
  refine (Chip.pool_foldl_modPool List.nodup_range (h := fun q => { q with latched := q.snap }) c p).trans ?_
  rw [if_pos (List.mem_range.mpr below)]

theorem Chip.takeCounters_frame : ∃ ps, c.takeCounters = { c with pools := ps } :=
  Chip.foldl_modPool_pools (h := fun q => { q with latched := q.snap }) (List.range 8) c

theorem Chip.capacity_takeCounters (p : Nat) : c.takeCounters.capacity p = c.capacity p := by
  obtain ⟨ps, took⟩ := c.takeCounters_frame
  rw [took]
  rfl

/-- No pool out of balance leaves IMBAL 0. -/
theorem Chip.imbalance_zero (balanced : ∀ p < 8, c.balanced p = true) : c.imbalance = 0 := by
  have none0 : ∀ l : List Nat, (∀ p ∈ l, c.balanced p = true) → l.foldl (fun m p => if c.balanced p then m else m + 2 ^ p) 0 = 0 := fun l => by
    induction l with
    | nil => exact fun _ => rfl
    | cons p l ih =>
      intro all
      rw [List.foldl_cons, if_pos (all p (List.mem_cons_self ..))]
      exact ih fun q at0 => all q (List.mem_cons_of_mem _ at0)
  exact none0 _ fun p at0 => balanced p (List.mem_range.mp at0)

/-- The audit of counters that all balance (R735). -/
theorem audit_balances (fired : c.snp.sinceAudit = true)
    (balance : ∀ p < 8, let l := (c.pool p).snap
      l.1 = l.2.1 + (l.2.2.1 + l.2.2.2) ∧ (if p = 5 then l.2.2.1 else l.2.2.1 + l.2.2.2) ≤ c.capacity p) :
    auditOp c = { c.takeCounters with
      grd := { c.takeCounters.grd with imbal := 0, audits := (c.takeCounters.grd.audits + 1) % 2 ^ 64 },
      snp := { c.takeCounters.snp with sinceAudit := false } } := by
  have balanced : ∀ p < 8, c.takeCounters.balanced p = true := fun p below => by
    obtain ⟨sum, bound⟩ := balance p below
    unfold Chip.balanced
    rw [c.takeCounters_pool below, c.capacity_takeCounters]
    simp only [beq_iff_eq, Bool.and_eq_true, decide_eq_true_eq]
    exact ⟨sum, bound⟩
  unfold auditOp
  rw [if_pos fired]
  simp only [Chip.imbalance_zero _ balanced]
  rfl

/-- The counters are those of the latest trigger; beside them only the Guard's result and the trigger's mark move. -/
theorem audit_latches (fired : c.snp.sinceAudit = true)
    (balance : ∀ p < 8, let l := (c.pool p).snap
      l.1 = l.2.1 + (l.2.2.1 + l.2.2.2) ∧ (if p = 5 then l.2.2.1 else l.2.2.1 + l.2.2.2) ≤ c.capacity p) :
    (∀ p < 8, ((auditOp c).pool p).latched = (c.pool p).snap) ∧
      (auditOp c).grd = { c.grd with imbal := 0, audits := (c.grd.audits + 1) % 2 ^ 64 } ∧ (auditOp c).snp = { c.snp with sinceAudit := false } ∧
      auditOp c = { c with pools := (auditOp c).pools, grd := (auditOp c).grd, snp := (auditOp c).snp } := by
  have op := audit_balances c fired balance
  refine ⟨fun p below => ?_, ?_⟩
  · have pool := c.takeCounters_pool below
    rw [op]
    generalize c.takeCounters = d at pool
    exact congrArg Pool.latched pool
  · obtain ⟨ps, took⟩ := c.takeCounters_frame
    rw [took] at op
    rw [op]
    exact ⟨rfl, rfl, rfl⟩

end

/-! ### The recorder's controls (R763–R766) -/

/-- A marker is recorded as kind 8 where that is enabled (R759). -/
theorem markOp_records {c : Chip} (enabled : bitAt (c.eff 92 0x100 1) 7 = true) (going : c.evr.frozen = false) (fresh : c.evr.wrapped = false)
    (room : c.evr.next < 65535) :
    tget (markOp c).evr.ring {} c.evr.next = { c.recordOf 8 92 (c.evr.mark % 2 ^ 16) (c.evr.mark / 2 ^ 32) 0 with rseq := c.evr.rseq } ∧
      (markOp c).evr.next = c.evr.next + 1 ∧ (markOp c).evr.rseq = (c.evr.rseq + 1) % 2 ^ 32 := by
  obtain ⟨ring, next, rseq, -⟩ := Evr.store_ring c.evr (c.eff 92 0x100 9 == 1) (c.recordOf 8 92 (c.evr.mark % 2 ^ 16) (c.evr.mark / 2 ^ 32) 0)
    (by simp [going, fresh])
  have stored := c.record_enabled 8 92 (c.evr.mark % 2 ^ 16) (c.evr.mark / 2 ^ 32) 0 enabled
  unfold markOp
  rw [stored, ring, next, rseq]
  exact ⟨tget_put_self .., Nat.mod_eq_of_lt (by omega), rfl⟩

/-- Settles O56: requests and the trigger, the audit by its pools, the recorder's controls by its state. -/
theorem snapshotsAndRecorder : Obligations.SnapshotsAndRecorder := by
  unfold Obligations.SnapshotsAndRecorder
  have runs : ∀ {s : State} (_ : s.chip.clocked = true) {op : Chip → Chip} {t : Chip}, op s.chip = t → onChip op s = .next (s.put t) :=
    fun clocked _ _ result => (onChip_clocked _ clocked).trans (congrArg _ (congrArg _ result))
  have writes : ∀ {s : State} (_ : s.chip.clocked = true) {w : Who} (_ : Who.mayWrite w s.chip = true) {op : Chip → Chip} {t : Chip},
      op s.chip = t → onWrite w op s = .next (s.put t) :=
    fun clocked _ reach _ _ result => (onWrite_reached _ clocked reach).trans (congrArg _ (congrArg _ result))
  refine ⟨fun s w clocked => ?_, fun s w clocked reach => ?_⟩
  · intro c ask
    refine ⟨fun enabled => ?_, fun disabled => ?_, fun reach => ?_, fun periodic => ?_, fun quiet => ?_, fun asked first => ?_, fun high => ?_,
      fun fired balance => ?_⟩
    · exact runs clocked (if_pos enabled)
    · exact runs clocked (if_neg disabled)
    · exact writes clocked reach rfl
    · exact runs clocked (if_neg periodic)
    · exact runs clocked (if_pos (by simpa using quiet))
    · refine ⟨s.put c.fireSnap, runs clocked (snapTrigger_first c asked first), s.put_pending _, ?_⟩
      rw [State.put_chip]
      exact c.fireSnap_latches
    · exact runs clocked (snapOutEnd_falls c high rfl)
    · obtain ⟨latched, ended⟩ := audit_latches c fired balance
      obtain ⟨grd, snp, frame⟩ := ended
      refine ⟨s.put (auditOp c), runs clocked rfl, s.put_pending _, ?_⟩
      rw [State.put_chip]
      exact ⟨grd, snp, latched, frame⟩
  · intro c
    refine ⟨writes clocked reach rfl, fun frozen => ?_, fun frozen => ?_, fun going => ?_, fun disabled => ?_, ?_⟩
    · exact writes clocked reach (if_pos frozen)
    · exact writes clocked reach (if_pos frozen)
    · exact writes clocked reach (if_neg (Bool.eq_false_iff.mp going))
    · exact writes clocked reach (c.record_disabled 8 92 _ _ _ disabled)
    · intro x enabled going fresh _ room
      obtain ⟨e, frame⟩ := c.record_evr 8 92 (c.evr.mark % 2 ^ 16) (c.evr.mark / 2 ^ 32) 0
      obtain ⟨ring, next, rseq⟩ := markOp_records enabled going fresh room
      refine ⟨s.put (markOp c), writes clocked reach rfl, s.put_pending _, ring, next, rseq, ?_⟩
      rw [State.put_chip, markOp, frame]

end Sys2Proof.Machine
end

section
/-! Obligation O57: the command ports of the code flash, their sequences and the operations of a bank. -/

namespace Sys2Proof.Machine

/-! ### Ports and banks -/

section
variable (c : Chip) (p : Bool)

theorem Chip.cport_modCport_self (f : CflPort → CflPort) : (c.modCport p f).cport p = f (c.cport p) := by
  simp only [Chip.cport, Chip.modCport, tget_put_self]

theorem Chip.cport_modCport_ne {q : Bool} (f : CflPort → CflPort) (other : q ≠ p) : (c.modCport p f).cport q = c.cport q := by
  have apart : b2n q ≠ b2n p := by cases p <;> cases q <;> simp_all [b2n]
  simp only [Chip.cport, Chip.modCport, tget_put_ne _ _ _ apart]

theorem Chip.modCport_modCport (f g : CflPort → CflPort) : (c.modCport p f).modCport p g = c.modCport p fun x => g (f x) := by
  simp only [Chip.modCport, Chip.cport, tget_put_self, tput_put]

theorem Chip.bank_modCport (f : CflPort → CflPort) (b : Bool) : (c.modCport p f).bank b = c.bank b := rfl

end

/-! ### Sequences (R770–R775) -/

section
variable {c : Chip} {p : Bool}

/-- The sequence of the port has not run out. -/
theorem Chip.expirePort_fresh (fresh : (c.cport p).inSequence = true → c.tmb.up < (c.cport p).keyAt + nsUp 1000000) : c.expirePort p = c := by
  unfold Chip.expirePort
  refine if_neg fun late => ?_
  rw [Bool.and_eq_true, decide_eq_true_eq] at late
  exact absurd (fresh late.1) (Nat.not_lt.mpr late.2)

theorem Chip.cflWrite_fresh (fresh : (c.cport p).inSequence = true → c.tmb.up < (c.cport p).keyAt + nsUp 1000000) (free : (c.cport p).seq ≠ .running)
    (h : CflPort → Chip → Chip) : c.cflWrite p h = h (c.cport p) c := by
  unfold Chip.cflWrite
  rw [Chip.expirePort_fresh fresh]
  exact if_neg free

theorem CflPort.locked_fresh {x : CflPort} (locked : x.seq = .locked) : x.inSequence = false := by
  simp [CflPort.inSequence, locked]

theorem Chip.cflWrite_locked (locked : (c.cport p).seq = .locked) (h : CflPort → Chip → Chip) : c.cflWrite p h = h (c.cport p) c := by
  have closed := CflPort.locked_fresh locked
  exact Chip.cflWrite_fresh (fun opened => by simp [closed] at opened) (by simp [locked]) h

section
variable {v : W32}

theorem cflKey_locked (locked : (c.cport p).seq = .locked) (unread : (c.cport p).reading = false) : cflKeyOp p v c =
    if v = 0x4C58 then c.modCport p fun x => { x with seq := .key1, keyAt := c.tmb.up, done := false, err := false } else c.cflEnd p resSeqErr := by
  unfold cflKeyOp
  rw [Chip.cflWrite_locked locked]
  simp only [locked, unread]

theorem cflKey_second (first : (c.cport p).seq = .key1) (fresh : c.tmb.up < (c.cport p).keyAt + nsUp 1000000) : cflKeyOp p v c =
    if v = 0xB3A7 then c.modCport p fun x => { x with seq := .armed } else c.cflEnd p resSeqErr := by
  unfold cflKeyOp
  rw [Chip.cflWrite_fresh (fun _ => fresh) (by simp [first])]
  simp only [first]

end

/-! ### READ (R773–R777) -/

section
variable {addr : BitVec 26} {n : Nat} (locked : (c.cport p).seq = .locked)
include locked

theorem cflRead_locked : cflReadOp p addr n c = (c.modCport p fun x => { x with addr := addr.toNat }).cflReadAt p addr.toNat n := by
  unfold cflReadOp
  rw [Chip.cflWrite_locked locked]
  exact if_pos locked

end

section
variable {a n : Nat}

theorem Chip.cflReadAt_unaligned (crooked : a % 64 ≠ 0) : c.cflReadAt p a n = c.cflEnd p resAlign := by
  unfold Chip.cflReadAt
  rw [if_pos crooked]

section
variable (aligned : a % 64 = 0)
include aligned

theorem Chip.cflReadAt_denied (outer : p = true) (hidden : c.xoAt a = true) : c.cflReadAt p a n = c.cflDeny p resXoDenied := by
  unfold Chip.cflReadAt
  rw [if_neg (not_not_intro aligned), if_pos (by simp [outer, hidden])]

section
variable (readable : p = false ∨ c.xoAt a = false) (still : (c.bank (bankOf a)).prog = none)
include readable still

theorem Chip.cflReadAt_busy (erasing : (c.bank (bankOf a)).op = .erasing) : c.cflReadAt p a n = c.cflEnd p resBusy := by
  unfold Chip.cflReadAt
  rw [if_neg (not_not_intro aligned), if_neg (by rcases readable with inner | shown <;> simp [*])]
  simp only [still, erasing, Option.isSome_none, Bool.false_eq_true, if_false]

/-- A unit of an idle bank with few bit errors is corrected and shown (R782–R784). -/
theorem Chip.cflReadAt_shown (idle : (c.bank (bankOf a)).op = .idle) (few : n ≤ 4) (below : n < c.eff 85 0x100 0) :
    c.cflReadAt p a n = (c.cflShow p (c.flashBytes a 64) n).cflEnd p resOk := by
  have run : c.cflReadAt p a n = c.cflRun p a n := by
    unfold Chip.cflReadAt
    rw [if_neg (not_not_intro aligned), if_neg (by rcases readable with inner | shown <;> simp [*])]
    simp only [still, idle, Option.isSome_none, Bool.false_eq_true, if_false]
  have quiet : ((c.cflShow p (c.flashBytes a 64) n).cflEnd p resOk).eff 85 0x100 0 = c.eff 85 0x100 0 := rfl
  rw [run]
  unfold Chip.cflRun
  rw [if_neg (Nat.not_lt.mpr few)]
  simp only []
  rw [quiet, if_neg (Nat.not_le.mpr below)]

end

end

end

/-! ### PROGRAM (R775–R780) -/

section
variable {i v : Nat} (data : (c.cport p).seq = .data) (fresh : c.tmb.up < (c.cport p).keyAt + nsUp 1000000)
include data fresh

theorem Chip.dataWrite_data : c.dataWrite p i v =
    if (c.cport p).words = i then
      (let d := c.modCport p fun x => { x with data := tput x.data 0 i v, words := i + 1 }
      if i = 15 then d.programStart p else d)
    else c.cflEnd p resSeqErr := by
  unfold Chip.dataWrite
  rw [Chip.cflWrite_fresh (fun _ => fresh) (by simp [data])]
  simp only [data, true_and]

theorem Chip.dataWrite_next (order : (c.cport p).words = i) (more : i < 15) :
    c.dataWrite p i v = c.modCport p fun x => { x with data := tput x.data 0 i v, words := i + 1 } := by
  rw [Chip.dataWrite_data data fresh, if_pos order]
  exact if_neg more.ne

theorem Chip.dataWrite_order (order : (c.cport p).words ≠ i) : c.dataWrite p i v = c.cflEnd p resSeqErr := by
  rw [Chip.dataWrite_data data fresh, if_neg order]

end

/-- A program of a blank unit starts on its idle bank (R777, R779). -/
theorem Chip.programStart_blank (open0 : c.wpAt (c.cport p).addr = false) (still : (c.bank (bankOf (c.cport p).addr)).prog = none)
    (idle : (c.bank (bankOf (c.cport p).addr)).op = .idle) (blank : ∀ y ∈ c.flashBytes (c.cport p).addr 64, y = 0xFF) : c.programStart p =
      (c.modCport p fun x => { x with seq := .running }).modBank (bankOf (c.cport p).addr) fun b => { b with
        op := .programming, prog := some (p, (c.cport p).addr), image := (List.range 16).flatMap fun i => leBytes 4 (tget (c.cport p).data 0 i) } := by
  have ones : ((c.flashBytes (c.cport p).addr 64).any fun y => y != 0xFF) = false :=
    List.any_eq_false.mpr fun y at0 => by simpa using blank y at0
  unfold Chip.programStart
  simp only []
  rw [if_neg (by simp [open0]), if_neg (by simp [still, idle]), if_neg (by simp [idle]), if_neg (Bool.eq_false_iff.mp ones)]
  simp only [Chip.modBank, Chip.bank_modCport, idle, reduceCtorEq, if_false]

/-- The last word starts the program (R775). -/
theorem Chip.dataWrite_last {v : Nat} (data : (c.cport p).seq = .data) (fresh : c.tmb.up < (c.cport p).keyAt + nsUp 1000000) (order : (c.cport p).words = 15)
    (open0 : c.wpAt (c.cport p).addr = false) (still : (c.bank (bankOf (c.cport p).addr)).prog = none)
    (idle : (c.bank (bankOf (c.cport p).addr)).op = .idle) (blank : ∀ y ∈ c.flashBytes (c.cport p).addr 64, y = 0xFF) : c.dataWrite p 15 v =
      (c.modCport p fun x => { x with data := tput x.data 0 15 v, words := 16, seq := .running }).modBank (bankOf (c.cport p).addr) fun b => { b with
        op := .programming, prog := some (p, (c.cport p).addr),
        image := (List.range 16).flatMap fun i => leBytes 4 (tget (tput (c.cport p).data 0 15 v) 0 i) } := by
  have port := c.cport_modCport_self p fun x => { x with data := tput x.data 0 15 v, words := 15 + 1 }
  have start := Chip.programStart_blank (c := c.modCport p fun x => { x with data := tput x.data 0 15 v, words := 15 + 1 }) (p := p)
  rw [port] at start
  rw [Chip.dataWrite_data data fresh, if_pos order]
  refine (if_pos rfl).trans ((start open0 still idle blank).trans ?_)
  rw [Chip.modCport_modCport]

/-! ### ERASE, its suspension and its resumption (R773–R778) -/

theorem erase_starts {addr : BitVec 26} (armed : (c.cport p).seq = .armed) (fresh : c.tmb.up < (c.cport p).keyAt + nsUp 1000000)
    (aligned : addr.toNat % 0x10000 = 0) (open0 : c.wpAt addr.toNat = false) (idle : (c.bank (bankOf addr.toNat)).op = .idle) : eraseOp p addr c =
      (c.modCport p fun x => { x with addr := addr.toNat, seq := .running, erasing := some (bankOf addr.toNat) }).modBank (bankOf addr.toNat) fun b =>
        { b with op := .erasing, port := p, sector := inBank addr.toNat } := by
  have ready : ((c.modCport p fun x => { x with addr := addr.toNat }).bank (bankOf addr.toNat)).op = .idle := idle
  have unprotected : (c.modCport p fun x => { x with addr := addr.toNat }).wpAt addr.toNat = false := open0
  unfold eraseOp
  rw [Chip.cflWrite_fresh (fun _ => fresh) (by simp [armed]), if_pos (.inl armed)]
  unfold Chip.eraseStart
  simp only []
  rw [if_neg (not_not_intro aligned), if_neg (by simp [unprotected]), if_neg (by simp [ready]), Chip.modCport_modCport]

section
variable {b : Bool} (locked : (c.cport p).seq = .locked) (unread : (c.cport p).reading = false)
include locked unread

theorem eraseSuspend_asks (erases : c.bankWith p .erasing = some b) (unasked : (c.bank b).suspending = none) : eraseSuspendOp p c =
    (c.modCport p fun y => { y with seq := .running, erasing := none, done := false }).modBank b fun y => { y with suspending := some p } := by
  have closed := CflPort.locked_fresh locked
  unfold eraseSuspendOp
  rw [Chip.expirePort_fresh fun opened => by simp [closed] at opened]
  simp only []
  rw [if_neg (by simp [locked]), if_neg (by simp [closed, unread]), erases]
  simp only [unasked, Option.isSome_none, Bool.false_eq_true, if_false]

theorem eraseResume_resumes (stands : c.bankWith p .suspended = some b) (still : (c.bank b).prog = none) :
    eraseResumeOp p c = (c.modBank b fun y => { y with op := .erasing }).cflEnd p resOk := by
  have closed := CflPort.locked_fresh locked
  unfold eraseResumeOp
  rw [Chip.cflWrite_locked locked]
  rw [if_neg (by simp [closed, unread]), stands]
  simp only [still, Option.isSome_none, Bool.false_eq_true, if_false]

end

end

/-! ### Ends (R778, R787) -/

section
variable {c : Chip} {b p : Bool}

theorem suspendReached_suspends (erasing : (c.bank b).op = .erasing) (asked : (c.bank b).suspending = some p) :
    suspendReachedOp b c = (c.modBank b fun y => { y with op := .suspended, suspending := none }).cflEnd p resOk := by
  unfold suspendReachedOp
  simp only [erasing, asked]

/-- No read waits once port `p` has ended. -/
theorem Chip.cflResume_none (quiet : ∀ q, (c.cport q).waiting = none) : c.cflResume b = c := by
  simp only [Chip.cflResume, List.foldl_cons, List.foldl_nil, quiet]

theorem Chip.cflEnd_waiting (res : Nat) (quiet : ∀ q, (c.cport q).waiting = none) (q : Bool) : ((c.cflEnd p res).cport q).waiting = none := by
  by_cases own : q = p
  · subst own
    rw [Chip.cflEnd, Chip.cport_modCport_self]
  · rw [Chip.cflEnd, Chip.cport_modCport_ne _ _ _ own, quiet]

/-- The bytes of a program are written, and its port ends (R787). -/
theorem programComplete_writes {u : Nat} (prog : (c.bank b).prog = some (p, u)) (quiet : ∀ q, (c.cport q).waiting = none)
    (programming : (c.bank b).op = .programming) : programCompleteOp b c =
      ((c.flashWrite u (c.bank b).image).modBank b fun y => { y with op := .idle, prog := none, image := [] }).cflEnd p resOk := by
  have bank : (c.flashWrite u (c.bank b).image).bank b = c.bank b := rfl
  have ended : ∀ f, ((((c.flashWrite u (c.bank b).image).modBank b f).cflEnd p resOk).cflResume b) =
      ((c.flashWrite u (c.bank b).image).modBank b f).cflEnd p resOk := fun f => Chip.cflResume_none (Chip.cflEnd_waiting resOk quiet)
  unfold programCompleteOp
  simp only [prog]
  rw [ended]
  simp only [Chip.modBank, bank, programming, if_true]

/-- The bytes of an erased sector are all ones, and its port ends (R787). -/
theorem eraseComplete_ends {l : List Byte} {a : Nat} (erasing : (c.bank b).op = .erasing) (unasked : (c.bank b).suspending = none)
    (port : (c.cport (c.bank b).port).erasing = some b) (ones : List.replicate 0x10000 0xFF = l)
    (sector : b2n b * 0x2000000 + (c.bank b).sector * 0x10000 = a) :
    eraseCompleteOp b c = ((c.flashWrite a l).modBank b fun _ => {}).cflEnd (c.bank b).port resOk := by
  have stands : (((c.flashWrite a l).modBank b fun _ => {}).cport (c.bank b).port).erasing = some b := port
  unfold eraseCompleteOp
  simp only []
  rw [if_neg (not_not_intro erasing), ones, sector, if_pos stands, unasked]

end

/-- Settles O57: each write by the state of its port and bank, each end by what its bank ran. -/
theorem codeFlash : Obligations.CodeFlash := by
  unfold Obligations.CodeFlash
  have reached : ∀ {s : State} {w : Who} {p : Bool} (_ : s.chip.clocked = true) (_ : Who.mayPort w p s.chip = true) {op : Chip → Chip} {t : Chip},
      op s.chip = t → onChip (fun c => c.atPort w p op) s = .next (s.put t) :=
    fun clocked reach _ _ result => (onChip_clocked _ clocked).trans (congrArg _ (congrArg _ ((if_pos reach).trans result)))
  have runs : ∀ {s : State} (_ : s.chip.clocked = true) {op : Chip → Chip} {t : Chip}, op s.chip = t → onChip op s = .next (s.put t) :=
    fun clocked _ _ result => (onChip_clocked _ clocked).trans (congrArg _ (congrArg _ result))
  refine ⟨fun s w p v addr n clocked reach => ?_, fun s w p b i v addr clocked => ?_⟩
  · intro c x now
    refine ⟨fun locked unread key => ?_, fun locked unread other => ?_, fun first fresh key => ?_, fun first fresh other => ?_, fun locked crooked => ?_,
      fun locked aligned outer hidden => ?_, fun locked aligned readable still idle few below => ?_, fun locked aligned still erasing readable => ?_,
      fun opened => ?_⟩
    · exact reached clocked reach ((cflKey_locked locked unread).trans (if_pos key))
    · exact reached clocked reach ((cflKey_locked locked unread).trans (if_neg other))
    · exact reached clocked reach ((cflKey_second first fresh).trans (if_pos key))
    · exact reached clocked reach ((cflKey_second first fresh).trans (if_neg other))
    · exact reached clocked reach ((cflRead_locked locked).trans (Chip.cflReadAt_unaligned crooked))
    · exact reached clocked reach ((cflRead_locked locked).trans (Chip.cflReadAt_denied aligned outer hidden))
    · exact reached clocked reach ((cflRead_locked locked).trans (Chip.cflReadAt_shown aligned readable still idle few below))
    · exact reached clocked reach ((cflRead_locked locked).trans (Chip.cflReadAt_busy aligned readable still erasing))
    · exact runs clocked (if_pos opened)
  · intro c x fresh a
    refine ⟨fun refused => ⟨runs clocked (if_neg ?_), runs clocked (if_neg ?_)⟩, fun reach data early order more => ?_, fun reach data early order => ?_,
      fun reach data early order open0 still idle blank => ?_, fun reach armed early aligned open0 idle => ?_,
      fun reach locked unread erases unasked => ?_, fun reach locked unread stands still => ?_, fun erasing asked => ?_,
      fun u prog quiet0 quiet1 programming => ?_, fun erasing unasked port => ?_, fun r reach => ?_⟩
    · exact Bool.eq_false_iff.mp refused
    · exact Bool.eq_false_iff.mp refused
    · exact reached clocked reach (Chip.dataWrite_next data early order more)
    · exact reached clocked reach (Chip.dataWrite_order data early order)
    · exact reached clocked reach (Chip.dataWrite_last data early order open0 still idle blank)
    · exact reached clocked reach (erase_starts armed early aligned open0 idle)
    · exact reached clocked reach (eraseSuspend_asks locked unread erases unasked)
    · exact reached clocked reach (eraseResume_resumes locked unread stands still)
    · exact runs clocked (suspendReached_suspends erasing asked)
    · exact runs clocked (programComplete_writes prog (fun q => by cases q <;> assumption) programming)
    · exact runs clocked (eraseComplete_ends erasing unasked port rfl rfl)
    · exact (onWrite_reached _ clocked reach).trans rfl

end Sys2Proof.Machine
end

section
/-! Obligation O58: floors, measurements, boot stages and attestation. -/

namespace Sys2Proof.Machine

/-! ### Floors (R791–R793) -/

section
variable {c : Chip} {v : W32} (firmware : v.toNat / 2 ^ 16 % 8 = 0)
include firmware

/-- A floor row of the firmware: the first reason why not, or its row. -/
theorem secFloorWrite_firmware : secFloorWriteOp v c =
    if v.toNat % 2 ^ 16 ≤ c.fwFloor then { c with sec := { c.sec with floorResult := 2 } }
    else if 32 ≤ c.sec.fwRows.length then { c with sec := { c.sec with floorResult := 3 } }
    else if c.sec.fwVersion < v.toNat % 2 ^ 16 then { c with sec := { c.sec with floorResult := 4 } }
    else Chip.extendFree { c with sec := { c.sec with fwRows := c.sec.fwRows ++ [v.toNat % 2 ^ 16], floorResult := 1 } } 4 := by
  have target : bits v.toNat 16 3 = 0 := firmware
  have ver : bits v.toNat 0 16 = v.toNat % 2 ^ 16 := by rw [bits, pow_zero, Nat.div_one]
  unfold secFloorWriteOp
  simp only [target, ver, if_true, true_and, Nat.not_lt_zero, if_false]

theorem secFloorWrite_row (above : c.fwFloor < v.toNat % 2 ^ 16) (room : c.sec.fwRows.length < 32) (running : v.toNat % 2 ^ 16 ≤ c.sec.fwVersion) :
    ∃ m n, secFloorWriteOp v c = { c with
      sec := { c.sec with fwRows := c.sec.fwRows ++ [v.toNat % 2 ^ 16], floorResult := 1, meas := m }, free := n } := by
  obtain ⟨m, n, extended⟩ := Chip.extendFree_eq
    { c with sec := { c.sec with fwRows := c.sec.fwRows ++ [v.toNat % 2 ^ 16], floorResult := 1 } } 4
  refine ⟨m, n, ?_⟩
  rw [secFloorWrite_firmware firmware, if_neg (Nat.not_le.mpr above), if_neg (Nat.not_le.mpr room), if_neg (Nat.not_lt.mpr running)]
  exact extended

end

theorem secFloorWrite_unknown {c : Chip} {v : W32} (target : 4 < v.toNat / 2 ^ 16 % 8) : secFloorWriteOp v c = c := by
  unfold secFloorWriteOp
  exact if_pos target

/-! ### Marks (R794, R797) -/

/-- A mark is set: its unit holds bytes of which the first is not all ones. -/
theorem Chip.setMark_eq (c : Chip) (a : Nat) : ∃ (v : Byte) (l : List Byte) (n : Nat), v ≠ 0xFF ∧ l.length = 63 ∧
    c.setMark a = { c with free := n, cfl := { c.cfl with flash := mwrite flashInit c.cfl.flash a (v :: l) } } := by
  refine ⟨BitVec.ofNat 8 (c.fresh 255).1, ((c.fresh 255).2.freshBytes 63).1, _, fun same => ?_, by simp [Chip.freshBytes], rfl⟩
  have below : (c.fresh 255).1 < 255 := Nat.mod_lt _ (by decide)
  have value := congrArg BitVec.toNat same
  rw [BitVec.toNat_ofNat, Nat.mod_eq_of_lt (by omega)] at value
  exact absurd value below.ne

theorem Chip.marked_written {c t : Chip} {b : Bool} {o : Nat} {v : Byte} {l : List Byte} (set : v ≠ 0xFF) (unit : l.length = 63)
    (written : t.cfl.flash = mwrite flashInit c.cfl.flash (bankBase b + o) (v :: l)) : t.marked b o = true := by
  have bytes : t.hdrBytes b o 64 = v :: l := by
    have back := mread_mwrite flashInit c.cfl.flash (bankBase b + o) (v :: l)
    rw [List.length_cons, unit] at back
    rw [Chip.hdrBytes, Chip.flashBytes, written]
    exact back
  rw [Chip.marked, bytes, List.any_cons, Bool.or_eq_true]
  exact .inl (bne_iff_ne.mpr set)

/-- The confirm mark of the running bank is set (R797). -/
theorem fwConfirm_marks {c : Chip} (booted : c.sec.boot = .stage2) (unmarked : c.marked c.sec.bank confirmAt = false) :
    (fwConfirmOp c).marked c.sec.bank confirmAt = true ∧ (fwConfirmOp c).sec = { c.sec with trial := false } ∧
      fwConfirmOp c = { c with cfl := (fwConfirmOp c).cfl, sec := (fwConfirmOp c).sec, free := (fwConfirmOp c).free } := by
  obtain ⟨v, l, n, set, unit, marked⟩ := c.setMark_eq (bankBase c.sec.bank + confirmAt)
  have op : fwConfirmOp c = { c with
      free := n, cfl := { c.cfl with flash := mwrite flashInit c.cfl.flash (bankBase c.sec.bank + confirmAt) (v :: l) },
      sec := { c.sec with trial := false } } := by
    unfold fwConfirmOp
    rw [if_neg (by simp [booted, unmarked]), marked]
  refine ⟨Chip.marked_written set unit (by rw [op]), by rw [op], by rw [op]⟩

theorem fwConfirm_nothing {c : Chip} (marked : c.marked c.sec.bank confirmAt = true) : fwConfirmOp c = c := by
  unfold fwConfirmOp
  exact if_pos (.inr marked)

/-! ### Stage 1 (R796, R798) -/

theorem Chip.meas_extend_self (c : Chip) (i : Nat) (d : List Byte) : (c.extend i d).meas i = sm3 (c.meas i ++ d) := by
  simp only [Chip.meas, Chip.extend, tget_put_self]

theorem Chip.meas_extend_ne (c : Chip) (i : Nat) (d : List Byte) {k : Nat} (other : k ≠ i) : (c.extend i d).meas k = c.meas k := by
  simp only [Chip.meas, Chip.extend, tget_put_ne _ _ _ other]

/-- The boot ROM measures the header and stage 1 of a confirmed bank. -/
theorem stage1Start_confirmed {c : Chip} {b : Bool} (rom : c.sec.boot = .rom) (chosen : c.bootBank = some b) (confirmed : c.marked b confirmAt = true) :
    ∃ p, stage1StartOp c = { c with
      sec := { ((c.extend 0 (sm3 (c.hdrBytes b 0 0x1000))).extend 1 (c.hdrBytes b 0x60 32)).sec with
        boot := .stage1, bank := b, trial := false, fwVersion := c.hdr b 6 2 }, pwr := p } := by
  have op := stage1StartOp.eq_1 c
  rw [if_neg (not_not_intro rom), chosen] at op
  simp only [confirmed, if_true, Bool.not_true] at op
  exact ⟨_, op⟩

/-- What the two extends of stage 1 leave, whatever they measure. -/
theorem Chip.meas_extend_two (c : Chip) (header digest : List Byte) :
    ((c.extend 0 header).extend 1 digest).meas 0 = sm3 (c.meas 0 ++ header) ∧ ((c.extend 0 header).extend 1 digest).meas 1 = sm3 (c.meas 1 ++ digest) ∧
      ∀ k, 1 < k → ((c.extend 0 header).extend 1 digest).meas k = c.meas k := by
  refine ⟨?_, ?_, fun k later => ?_⟩
  · rw [Chip.meas_extend_ne _ 1 _ (by decide), c.meas_extend_self]
  · rw [Chip.meas_extend_self, c.meas_extend_ne 0 _ (by decide)]
  · rw [Chip.meas_extend_ne _ 1 _ (by omega), c.meas_extend_ne 0 _ (by omega)]

section
variable {c d t : Chip} {p : Pwr} {b : Bool} {ver : Nat}
  (started : t = { c with sec := { d.sec with boot := .stage1, bank := b, trial := false, fwVersion := ver }, pwr := p })
include started

/-- A unit in stage 1 has the measurements that were extended. -/
theorem Chip.meas_started (k : Nat) : t.meas k = d.meas k := by
  rw [started]
  rfl

theorem Chip.started_frame : t.sec.boot = .stage1 ∧ t.sec.bank = b ∧ t.sec.trial = false ∧
    t.sec.fwVersion = ver ∧ t = { c with sec := t.sec, pwr := t.pwr } := by
  rw [started]
  exact ⟨rfl, rfl, rfl, rfl, rfl⟩

end

theorem stage1Start_measures {c : Chip} {b : Bool} (rom : c.sec.boot = .rom) (chosen : c.bootBank = some b) (confirmed : c.marked b confirmAt = true) :
    (stage1StartOp c).sec.boot = .stage1 ∧ (stage1StartOp c).sec.bank = b ∧ (stage1StartOp c).sec.trial = false ∧
      (stage1StartOp c).sec.fwVersion = c.hdr b 6 2 ∧ (stage1StartOp c).meas 0 = sm3 (c.meas 0 ++ sm3 (c.hdrBytes b 0 0x1000)) ∧
      (stage1StartOp c).meas 1 = sm3 (c.meas 1 ++ c.hdrBytes b 0x60 32) ∧ (∀ k, 1 < k → (stage1StartOp c).meas k = c.meas k) ∧
      stage1StartOp c = { c with sec := (stage1StartOp c).sec, pwr := (stage1StartOp c).pwr } := by
  obtain ⟨p, op⟩ := stage1Start_confirmed rom chosen confirmed
  obtain ⟨first, second, others⟩ := c.meas_extend_two (sm3 (c.hdrBytes b 0 0x1000)) (c.hdrBytes b 0x60 32)
  obtain ⟨boot, bank, trial, version, frame⟩ := Chip.started_frame op
  exact ⟨boot, bank, trial, version, (Chip.meas_started op 0).trans first, (Chip.meas_started op 1).trans second,
    fun k later => (Chip.meas_started op k).trans (others k later), frame⟩

theorem Chip.bootBank_iff (c : Chip) (b : Bool) : c.bootBank = some b ↔
    c.bootable b = true ∧ (c.bootable (!b) = true → if b then c.hdr false 8 8 < c.hdr true 8 8 else c.hdr true 8 8 ≤ c.hdr false 8 8) := by
  unfold Chip.bootBank
  cases first : c.bootable false <;> cases second : c.bootable true <;> cases b <;> simp [first, second]

/-! ### Stage 2 (R262, R798, R800) -/

/-- `t` is `c` with other measurements, regions and programs: the boot stage, the power state, the ages and the reset record stay. -/
structure Chip.BootKept (c t : Chip) : Prop where
  boot : t.sec.boot = c.sec.boot
  age : t.age = c.age
  aon : t.aon = c.aon

namespace Chip.BootKept

theorem refl (c : Chip) : c.BootKept c := ⟨rfl, rfl, rfl⟩

theorem trans {c d t : Chip} (first : c.BootKept d) (second : d.BootKept t) : c.BootKept t :=
  ⟨second.boot.trans first.boot, second.age.trans first.age, second.aon.trans first.aon⟩

theorem foldl {α : Type} {h : Chip → α → Chip} (kept : ∀ (c : Chip) x, c.BootKept (h c x)) (l : List α) (c : Chip) : c.BootKept (l.foldl h c) := by
  induction l generalizing c with
  | nil => exact .refl c
  | cons x l ih => exact (kept c x).trans (ih _)

end Chip.BootKept

section
variable (c : Chip)

theorem Chip.extend_bootKept (i : Nat) (d : List Byte) : c.BootKept (c.extend i d) := ⟨rfl, rfl, rfl⟩

theorem Chip.setRegions_bootKept (b : Bool) : c.BootKept (c.setRegions b) := by
  unfold Chip.setRegions
  refine BootKept.foldl (fun c k => BootKept.foldl (fun c r => ?_) _ c) _ c
  exact ⟨rfl, rfl, rfl⟩

theorem Chip.extendFree_bootKept (i : Nat) : c.BootKept (c.extendFree i) := ⟨rfl, rfl, rfl⟩

theorem Chip.installStock_bootKept (e slot id : Nat) (wcets : List Nat) : c.BootKept (c.installStock e slot id wcets) := by
  unfold Chip.installStock
  split
  · exact ⟨rfl, rfl, rfl⟩
  · exact .refl c

theorem Chip.installAll_bootKept : c.BootKept c.installAll :=
  (BootKept.foldl (fun c _ => BootKept.foldl (fun c _ => c.installStock_bootKept ..) _ c) _ c).trans
    (BootKept.foldl (fun c _ => c.installStock_bootKept ..) _ _)

/-- MEAS2 and MEAS3 have taken stage 2 and the stock programs (R798). -/
def Chip.stage2Measured : Chip :=
  (List.range 5).foldl (fun d k => d.extend 3 (Config.stockDigest (c.hdrBytes c.sec.bank 0xA0 32) k)) (c.extend 2 (c.hdrBytes c.sec.bank 0x80 32))

/-- The attestation key is made and endorsed (R801). -/
def Chip.stage2Keyed : Chip :=
  let m := c.meas 0 ++ c.meas 1 ++ c.meas 2
  let ak := Config.deviceKey 1 c.sec.secret m
  { c with
    sec := { c.sec with boot := .stage2, akPub := ak, akEndorse := Config.sign 0 c.sec.secret (ascii "VZ-AK" ++ ak ++ m) c.free, dikSigning := false }
    free := c.free + 1
    age := { c.age with cleanStop := false } }

/-- Every stock program is installed, and the regions are set (R262, R768). -/
def Chip.stage2Installed : Chip := ((c.stage2Measured.stage2Keyed.extendFree 4).setRegions c.sec.bank).installAll

theorem Chip.stage2Installed_kept : c.stage2Installed.sec.boot = .stage2 ∧ c.stage2Installed.age.cleanStop = false ∧ c.stage2Installed.aon = c.aon := by
  have measured : c.BootKept c.stage2Measured := (c.extend_bootKept ..).trans (BootKept.foldl (fun d _ => d.extend_bootKept ..) _ _)
  have installed : c.stage2Measured.stage2Keyed.BootKept c.stage2Installed :=
    (Chip.extendFree_bootKept _ 4).trans ((Chip.setRegions_bootKept ..).trans (Chip.installAll_bootKept _))
  have keyed : ∀ d : Chip, d.stage2Keyed.sec.boot = .stage2 ∧ d.stage2Keyed.age.cleanStop = false ∧ d.stage2Keyed.aon = d.aon := fun d => ⟨rfl, rfl, rfl⟩
  obtain ⟨boot, stop, aon⟩ := keyed c.stage2Measured
  exact ⟨installed.boot.trans boot, by rw [installed.age, stop], installed.aon.trans (aon.trans measured.aon)⟩

theorem stage2Start_case (stage1 : c.sec.boot = .stage1)
    (code : sm3 (c.flashBytes (bankBase c.sec.bank + 0x100000) (c.hdr c.sec.bank 0x54 4)) = c.hdrBytes c.sec.bank 0x80 32)
    (stock : sm3 (c.flashBytes (bankBase c.sec.bank + 0x1000000) (c.hdr c.sec.bank 0x58 4)) = c.hdrBytes c.sec.bank 0xA0 32) : stage2StartOp c =
      (Chip.milestone { c.stage2Installed with pwr := { c.stage2Installed.pwr with state := .running, hostReady := true } } 1).afterReset := by
  unfold stage2StartOp
  simp only []
  rw [if_neg (by simp [stage1, code, stock])]
  simp only [Chip.stage2Installed, Chip.stage2Keyed, Chip.stage2Measured]

/-- A unit that starts keeps its power state, its ages and its boot stage through the milestone. -/
theorem Chip.milestone_kept (n : Nat) : c.BootKept (c.milestone n) ∧ (c.milestone n).pwr.state = c.pwr.state ∧
    (c.milestone n).pwr.hostReady = c.pwr.hostReady := by
  unfold Chip.milestone
  split
  · exact ⟨.refl c, rfl, rfl⟩
  · obtain ⟨_, _, _, _, _, told⟩ := Chip.happen_told { c with pwr := { c.pwr with milestones := c.pwr.milestones ++ [n] } } 0xE (4 + 16 * 0) n
    rw [Chip.powerEvent, told]
    exact ⟨⟨rfl, rfl, rfl⟩, rfl, rfl⟩

/-- The firmware runs, with the host ports ready (R262, R800). -/
theorem stage2Start_runs (stage1 : c.sec.boot = .stage1)
    (code : sm3 (c.flashBytes (bankBase c.sec.bank + 0x100000) (c.hdr c.sec.bank 0x54 4)) = c.hdrBytes c.sec.bank 0x80 32)
    (stock : sm3 (c.flashBytes (bankBase c.sec.bank + 0x1000000) (c.hdr c.sec.bank 0x58 4)) = c.hdrBytes c.sec.bank 0xA0 32) (plain : c.aon.kind ≠ 2) :
    (stage2StartOp c).sec.boot = .stage2 ∧ (stage2StartOp c).pwr.state = .running ∧ (stage2StartOp c).pwr.hostReady = true ∧
      (stage2StartOp c).age.cleanStop = false := by
  obtain ⟨boot, stop, aon⟩ := c.stage2Installed_kept
  rw [stage2Start_case c stage1 code stock]
  generalize c.stage2Installed = d at boot stop aon
  obtain ⟨kept, state, ready⟩ := Chip.milestone_kept { d with pwr := { d.pwr with state := .running, hostReady := true } } 1
  generalize Chip.milestone { d with pwr := { d.pwr with state := .running, hostReady := true } } 1 = t at kept state ready
  have calm : t.afterReset = t := if_neg (by rw [kept.aon, aon]; exact plain)
  rw [calm]
  exact ⟨kept.boot.trans boot, state, ready, by rw [kept.age, stop]⟩

end

/-! ### Attestation (R801, R802) -/

theorem attestDone_signs {c : Chip} (busy : c.sec.attBusy = true) :
    ∃ sig, attestDoneOp c = { c with sec := { c.sec with attBusy := false, attDone := true, report := c.reportBody ++ sig }, free := c.free + 1 } := by
  refine ⟨padTo 64 (Config.sign 1 c.sec.secret (ascii "VZ-ATTEST" ++ c.reportBody) c.free), ?_⟩
  unfold attestDoneOp
  rw [if_neg (by simp [busy])]

/-- Settles O58: floors by their first refusal, marks by the bytes they leave, the stages by what they measure. -/
theorem secureBoot : Obligations.SecureBoot := by
  unfold Obligations.SecureBoot
  have runs : ∀ {s : State} (_ : s.chip.clocked = true) {op : Chip → Chip} {t : Chip}, op s.chip = t → onChip op s = .next (s.put t) :=
    fun clocked _ _ result => (onChip_clocked _ clocked).trans (congrArg _ (congrArg _ result))
  have writes : ∀ {s : State} (_ : s.chip.clocked = true) {w : Who} (_ : Who.mayWrite w s.chip = true) {op : Chip → Chip} {t : Chip},
      op s.chip = t → onWrite w op s = .next (s.put t) :=
    fun clocked _ reach _ _ result => (onWrite_reached _ clocked reach).trans (congrArg _ (congrArg _ result))
  refine ⟨fun s w v clocked reach => ?_, fun s w b clocked => ?_⟩
  · intro c ver said
    refine ⟨fun firmware low => ?_, fun firmware above full => ?_, fun firmware above room later => ?_, fun firmware above room running => ?_,
      fun unknown => ?_, ?_, ?_, fun booted unmarked => ?_, fun _ marked => ?_⟩
    · exact writes clocked reach ((secFloorWrite_firmware firmware).trans (if_pos low))
    · refine writes clocked reach ((secFloorWrite_firmware firmware).trans ?_)
      rw [if_neg (Nat.not_le.mpr above), if_pos full]
    · refine writes clocked reach ((secFloorWrite_firmware firmware).trans ?_)
      rw [if_neg (Nat.not_le.mpr above), if_neg (Nat.not_le.mpr room), if_pos later]
    · obtain ⟨m, n, row⟩ := secFloorWrite_row firmware above room running
      refine ⟨s.put (secFloorWriteOp v s.chip), writes clocked reach rfl, s.put_pending _, ?_⟩
      rw [State.put_chip, row]
      exact ⟨rfl, rfl, rfl, rfl⟩
    · exact writes clocked reach (secFloorWrite_unknown unknown)
    · exact writes clocked reach rfl
    · exact writes clocked reach rfl
    · refine ⟨s.put (fwConfirmOp s.chip), writes clocked reach rfl, s.put_pending _, ?_⟩
      rw [State.put_chip]
      exact fwConfirm_marks booted unmarked
    · exact writes clocked reach (fwConfirm_nothing marked)
  · intro c
    refine ⟨fun rom chosen confirmed => ?_, fun other => ?_, c.bootBank_iff b, fun other => ?_, fun stage1 code stock plain => ?_, fun reach => ?_,
      fun busy => ?_⟩
    · refine ⟨s.put (stage1StartOp s.chip), runs clocked rfl, s.put_pending _, ?_⟩
      rw [State.put_chip]
      exact stage1Start_measures rom chosen confirmed
    · exact runs clocked (if_pos other)
    · exact runs clocked (if_pos (.inl other))
    · refine ⟨s.put (stage2StartOp s.chip), runs clocked rfl, s.put_pending _, ?_⟩
      rw [State.put_chip]
      exact stage2Start_runs c stage1 code stock plain
    · exact writes clocked reach rfl
    · obtain ⟨sig, op⟩ := attestDone_signs busy
      exact ⟨sig, runs clocked op⟩

end Sys2Proof.Machine
end

section
/-! Obligation O59: gating, mode changes, Siding, the always-on domain, calibration. -/

namespace Sys2Proof.Machine

/-! ### Gating and modes (R806–R808, R812–R814) -/

section
variable {c : Chip} {u : Fin 28}

theorem unitGate_idle (running : c.pwr.state = .running) (awake : c.isGated u = false) (may : bitAt (c.gateable c.pwr.modeEff) u = true)
    (steady : c.pwr.switching = false) (unasked : bitAt c.requested u = false) (idle : c.unitIdle u = true) :
    unitGateOp u c = { c with pwr := { c.pwr with gated := c.pwr.gated + 2 ^ u.val } } := by
  unfold unitGateOp
  exact if_neg (by simp [running, awake, may, steady, unasked, idle])

theorem unitGate_requested (asked : bitAt c.requested u = true) : unitGateOp u c = c := by
  unfold unitGateOp
  exact if_pos (.inr (.inr (.inr (.inl asked))))

/-- A mode that gates nothing gates no unit. -/
theorem unitGate_none (none0 : c.gateable c.pwr.modeEff = 0) : unitGateOp u c = c := by
  have refused : bitAt (c.gateable c.pwr.modeEff) u = false := by
    rw [none0, bitAt, Nat.zero_div]
    rfl
  unfold unitGateOp
  exact if_pos (.inr (.inr (.inl (by simp [refused]))))

theorem unitAwake_asked (gated : c.isGated u = true) (asked : bitAt c.pwr.waking u = true) (silent : c.pwr.wakePulse = false) : unitAwakeOp u c =
    { c with pwr := { c.pwr with gated := c.pwr.gated - 2 ^ u.val, waking := c.pwr.waking - 2 ^ u.val } } := by
  unfold unitAwakeOp Chip.wakeDone
  rw [if_neg (by simp [gated, asked])]
  simp only [asked, b2n, if_true, one_mul]
  rw [if_neg (by simp [silent])]

theorem unitAwake_ungated (awake : c.isGated u = false) : unitAwakeOp u c = c := by
  unfold unitAwakeOp
  exact if_pos (.inl (by simp [awake]))

end

/-! ### Siding (R821–R826) -/

/-- A unit that wakes or not keeps its state in SIDING. -/
theorem Chip.wakeBy_siding {c : Chip} (siding : c.pwr.state = .siding) (m : Nat) : ∃ p : Pwr, c.wakeBy m = { c with pwr := p } ∧ p.state = .siding := by
  unfold Chip.wakeBy
  split
  · exact ⟨c.pwr, rfl, siding⟩
  · simp only [siding]
    exact ⟨_, rfl, rfl⟩

/-- What the entry does before the clocks stop: checkpoints, the CLEAN image, the ports and the time (R131, R822, R823). -/
def Chip.sided (c : Chip) : Chip :=
  ((List.range 4).foldl (fun c p => c.sidePort p) (c.checkpointAll.stepDown.dropMirror).dumpWhole).unsetTime

theorem sidingReached_stops {c : Chip} (entry : c.pwr.state = .entry) (quiet : c.quiet = true) : (sidingReachedOp c).pwr.state = .siding ∧
    (sidingReachedOp c).hbm = [] ∧ (sidingReachedOp c).pkt = [] ∧ (sidingReachedOp c).stg = [] ∧ (sidingReachedOp c).par.trained = false ∧
    (sidingReachedOp c).age.cleanStop = true := by
  obtain ⟨d, m, op⟩ : ∃ (d : Chip) (m : Nat), sidingReachedOp c = Chip.wakeBy { d.stopClocks with pwr := { d.stopClocks.pwr with wakePending := 0 } } m := by
    refine ⟨c.sided, c.sided.pwr.wakePending, ?_⟩
    unfold sidingReachedOp
    rw [if_neg (by simp [entry, quiet])]
    simp only [Chip.sided]
  obtain ⟨p, woken, state⟩ := Chip.wakeBy_siding (c := { d.stopClocks with pwr := { d.stopClocks.pwr with wakePending := 0 } }) rfl m
  rw [op, woken]
  exact ⟨state, rfl, rfl, rfl, rfl, rfl⟩

theorem wakeBit_ne_zero (x : WakeSrc) : wakeBit x ≠ 0 := by
  cases x <;> simp [wakeBit]

/-- An enabled wake source begins the exit (R825). -/
theorem sidingWake_begins {c : Chip} {x : WakeSrc} (siding : c.pwr.state = .siding) (stays : c.pwr.leaving = false) (enabled : c.wakeEnabled x = true) :
    sidingWakeOp x c = { c with pwr := { c.pwr with wakeSrc := wakeBit x, leaving := true } } := by
  unfold sidingWakeOp Chip.wakeBy
  rw [if_pos enabled, if_neg (wakeBit_ne_zero x)]
  dsimp only
  split
  · simp only [stays, Bool.false_eq_true, if_false, Nat.zero_or]
  · next other => rw [siding] at other; cases other
  · next other _ => exact absurd siding other

/-! ### The exit from Siding (R132, R134, R825) -/

/-- `t` keeps what a unit has at the end of the exit: its state, no unit gated, the time, the always-on copy and HBM. -/
structure Chip.ExitKept (c t : Chip) : Prop where
  state : t.pwr.state = c.pwr.state
  gated : t.pwr.gated = c.pwr.gated
  tmb : t.tmb = c.tmb
  aon : t.aon = c.aon
  hbm : t.hbm = c.hbm

namespace Chip.ExitKept

theorem refl (c : Chip) : c.ExitKept c := ⟨rfl, rfl, rfl, rfl, rfl⟩

theorem trans {c d t : Chip} (first : c.ExitKept d) (second : d.ExitKept t) : c.ExitKept t :=
  ⟨second.state.trans first.state, second.gated.trans first.gated, second.tmb.trans first.tmb, second.aon.trans first.aon, second.hbm.trans first.hbm⟩

theorem foldl {α : Type} {h : Chip → α → Chip} (kept : ∀ (c : Chip) x, c.ExitKept (h c x)) (l : List α) (c : Chip) : c.ExitKept (l.foldl h c) := by
  induction l generalizing c with
  | nil => exact .refl c
  | cons x l ih => exact (kept c x).trans (ih _)

end Chip.ExitKept

section
variable (c : Chip)

theorem Chip.happen_exitKept (type info data : Nat) : c.ExitKept (c.happen type info data) := by
  obtain ⟨_, _, _, _, _, told⟩ := c.happen_told type info data
  rw [told]
  exact ⟨rfl, rfl, rfl, rfl, rfl⟩

theorem Chip.setTrd_exitKept (p : Nat) (t : TrdState) : c.ExitKept (c.setTrd p t) := by
  unfold Chip.setTrd
  dsimp only
  split
  · exact ExitKept.trans (d := c.modPort p fun x => { x with state := t }) ⟨rfl, rfl, rfl, rfl, rfl⟩ (Chip.happen_exitKept ..)
  · exact ⟨rfl, rfl, rfl, rfl, rfl⟩

theorem Chip.enterMode_exitKept (mode : Nat) : c.ExitKept (c.enterMode mode) := by
  unfold Chip.enterMode
  dsimp only
  split
  · exact ⟨rfl, rfl, rfl, rfl, rfl⟩
  · exact ExitKept.trans (d := { c with pwr := { c.pwr with modeEff := mode, switching := false } }) ⟨rfl, rfl, rfl, rfl, rfl⟩
      (Chip.happen_exitKept ..)

theorem Chip.applyMode_exitKept : c.ExitKept c.applyMode := by
  unfold Chip.applyMode
  dsimp only
  split
  · exact c.enterMode_exitKept _
  · exact ⟨rfl, rfl, rfl, rfl, rfl⟩

/-- The unit as its clocks run again, the always-on copy standing at `copy` (R132, R825). -/
def Chip.clocksBack (c : Chip) (copy : Nat) : Chip :=
  { c with
    hbm := c.cleanRegion
    aon := { c.aon with copy := copy }
    tmb := { c.tmb with
      now := copy
      up := c.tmb.up + (copy - c.aon.copy)
      wakeErr := min (2 ^ 32 - 1) (100 + (copy - c.pwr.sidingAt) / 2 ^ 16 * c.eff 76 0x148 0 / 100000000)
      wakePending := true
      sidingNs := (copy - c.pwr.sidingAt) / 2 ^ 16
      freeAfterSiding := c.timeMode == 2 }
    age := { c.age with cleanStop := false }
    pwr := { c.pwr with state := .running, switching := false, gated := 0, waking := 0, wakePulse := false, leaving := false } }

/-- Held ports are armed again (R581). -/
def Chip.portsArmed : Chip := (List.range 4).foldl (fun c p => if (c.port p).state = .held then c.setTrd p .armed else c) c

theorem Chip.portsArmed_exitKept : c.ExitKept c.portsArmed := by
  refine ExitKept.foldl (fun c p => ?_) _ c
  split
  · exact c.setTrd_exitKept ..
  · exact .refl c

theorem sidingExitDone_case {ns copy : Nat} (siding : c.pwr.state = .siding) (leaving : c.pwr.leaving = true)
    (wakes : max c.aon.copy (c.pwr.sidingAt + nsUp ns) = copy) : sidingExitDoneOp ns c =
      (let d := if c.pwr.modeEff = 2 then (c.clocksBack copy).portsArmed else (c.clocksBack copy).portsArmed.enterMode 2
      (d.powerEvent 3 0 d.pwr.wakeSrc).applyMode) := by
  unfold sidingExitDoneOp
  rw [if_neg (by simp [siding, leaving])]
  simp only [wakes, Chip.clocksBack, Chip.portsArmed]

theorem sidingExitDone_restores {ns copy : Nat} (siding : c.pwr.state = .siding) (leaving : c.pwr.leaving = true)
    (wakes : max c.aon.copy (c.pwr.sidingAt + nsUp ns) = copy) : (c.clocksBack copy).ExitKept (sidingExitDoneOp ns c) := by
  rw [sidingExitDone_case c siding leaving wakes]
  refine ((Chip.portsArmed_exitKept _).trans ?_).trans ((Chip.happen_exitKept ..).trans (Chip.applyMode_exitKept _))
  split
  · exact .refl _
  · exact Chip.enterMode_exitKept ..

end

/-! ### The always-on domain (R816–R820) -/

section
variable {c : Chip}

theorem aonCmpArm_arms {n : Fin 8} {v : W64} (armed : bitAt v.toNat 0 = true) : aonCmpArmOp n v c = c.setCmp n { c.cmp n with
    arm := true, wake := bitAt v.toNat 1, groups := v.toNat / 2 ^ 16 % 2 ^ 16, period := v.toNat / 2 ^ 32 % 2 ^ 32 } := by
  unfold aonCmpArmOp Comparator.control
  rw [if_pos armed, armed, Bool.and_true]
  rfl

/-- A match while the clocks run pulses its line and holds its requests (R817–R819). -/
theorem comparatorMatch_pulses {n : Fin 8} (armed : (c.cmp n).arm = true) (clocked : c.clocked = true) (valid : c.timeValid = true)
    (asleep : (c.cmp n).wake = false) : comparatorMatchOp n c = ((((c.passTo (c.cmp n).target).setCmp n { c.cmp n with
      holding := true, arm := (c.cmp n).period != 0, target := ((c.cmp n).target + 1000 * (c.cmp n).period) % 2 ^ 48 }).pulse (0xE0 + n)).request
        (c.groupsMask (c.cmp n).groups)) := by
  have up : (c.pwr.state == .siding) = false := by simpa using (Chip.clocked_awake clocked).2
  obtain ⟨m, later⟩ := c.passTo_tmb (c.cmp n).target
  unfold comparatorMatchOp
  simp only [up, Bool.false_or, Bool.false_eq_true, if_false, later]
  rw [if_neg (by simp [armed, clocked, valid]), if_neg (by simp [asleep])]
  rfl

theorem comparatorMatch_disarmed {n : Fin 8} (disarmed : (c.cmp n).arm = false) : comparatorMatchOp n c = c := by
  unfold comparatorMatchOp
  exact if_pos (.inl (by simp [disarmed]))

theorem wakeInEdge_pulses {i : Fin 4} {width : Nat} (on : c.pwr.state ≠ .off) (long : 1000 ≤ width) (masked : bitAt c.aon.wakeInEn i = false) :
    wakeInEdgeOp i width c = c.pulse (0xE8 + i) := by
  have stays : bitAt (c.pulse (0xE8 + i)).aon.wakeInEn i = false := masked
  unfold wakeInEdgeOp
  rw [if_neg (by simp [on, long])]
  simp only []
  rw [if_neg (Bool.eq_false_iff.mp stays)]

theorem wakeInEdge_short {i : Fin 4} {width : Nat} (short : width < 1000) : wakeInEdgeOp i width c = c := by
  unfold wakeInEdgeOp
  exact if_pos (.inr short)

/-! ### Calibration (R828, R829) -/

theorem calStep_first {p : Port} (other : (c.port p).state ≠ .running) (first : (c.port p).calAt = none) :
    calStepOp p c = c.setPort p { c.port p with calStarved := false, calAt := some c.tmb.up } := by
  have op := calStepOp.eq_1 p c
  simp only [if_neg other] at op
  rw [first] at op
  exact op

theorem calStarved_first {p : Port} (up : (c.port p).linkUp = true) (first : (c.port p).calAt = none) :
    calStarvedOp p c = c.setPort p { c.port p with calStarved := true } := by
  have op := calStarvedOp.eq_1 p c
  simp only [up, Bool.not_true, Bool.false_eq_true, if_false] at op
  rw [first] at op
  exact op

theorem calStarved_down {p : Port} (down : (c.port p).linkUp = false) : calStarvedOp p c = c := by
  unfold calStarvedOp
  exact if_pos (by simp [down])

end

/-- Settles O59: gating by what asks for a unit, Siding by its refusals and its two ends, the always-on domain by its comparators and pins. -/
theorem powerStates : Obligations.PowerStates := by
  unfold Obligations.PowerStates
  have runs : ∀ {s : State} (_ : s.chip.clocked = true) {op : Chip → Chip} {t : Chip}, op s.chip = t → onChip op s = .next (s.put t) :=
    fun clocked _ _ result => (onChip_clocked _ clocked).trans (congrArg _ (congrArg _ result))
  have always : ∀ {s : State} {op : Chip → Chip} {t : Chip}, op s.chip = t → onAon op s = .next (s.put t) :=
    fun result => (onAon_eq _ _).trans (congrArg _ (congrArg _ result))
  have writes : ∀ {s : State} (_ : s.chip.clocked = true) {w : Who} (_ : Who.mayWrite w s.chip = true) {op : Chip → Chip} {t : Chip},
      op s.chip = t → onWrite w op s = .next (s.put t) :=
    fun clocked _ reach _ _ result => (onWrite_reached _ clocked reach).trans (congrArg _ (congrArg _ result))
  refine ⟨fun s u clocked => ?_, fun s w x ns => ?_, fun s w n v i width p => ?_⟩
  · intro c p
    refine ⟨fun running awake may steady unasked idle => ?_, fun asked => ?_, fun none0 => ?_, fun gated asked silent => ?_, fun awake => ?_,
      fun switching ready => ?_, fun steady => ?_, rfl⟩
    · exact runs clocked (unitGate_idle running awake may steady unasked idle)
    · exact runs clocked (unitGate_requested asked)
    · exact runs clocked (unitGate_none none0)
    · exact runs clocked (unitAwake_asked gated asked silent)
    · exact runs clocked (unitAwake_ungated awake)
    · exact runs clocked (if_pos ⟨switching, ready⟩)
    · exact runs clocked (if_neg fun both => Bool.false_ne_true (steady.symm.trans both.1))
  · intro c p
    refine ⟨fun clocked reach active => ?_, fun clocked reach accepted => ?_, fun entry quiet => ?_, fun siding stays enabled => ?_, fun disabled => ?_,
      fun siding leaving => ?_⟩
    · have refused : s.chip.sidingRefusal = some 2 := if_pos active
      refine writes clocked reach ?_
      rw [sidingOp, refused]
    · refine writes clocked reach ?_
      rw [sidingOp, accepted]
    · have clocked : s.chip.clocked = true := by
        have state : s.chip.pwr.state = .entry := entry
        simp [Chip.clocked, state]
      refine ⟨s.put (sidingReachedOp s.chip), runs clocked rfl, s.put_pending _, ?_⟩
      rw [State.put_chip]
      exact sidingReached_stops entry quiet
    · exact always (sidingWake_begins siding stays enabled)
    · exact always (if_neg (Bool.eq_false_iff.mp disabled))
    · obtain ⟨state, gated, tmb, aon, hbm⟩ := sidingExitDone_restores c siding leaving (ns := ns) rfl
      refine ⟨s.put (sidingExitDoneOp ns s.chip), always rfl, s.put_pending _, ?_⟩
      rw [State.put_chip]
      exact ⟨state, congrArg Tmb.now tmb, by rw [aon, tmb]; rfl, hbm, gated⟩
  · intro c x
    refine ⟨fun clocked reach armed => ?_, fun armed clocked valid asleep => ?_, fun disarmed => ?_, fun on long masked => ?_, fun short => ?_,
      fun clocked => ?_, fun clocked other first => ?_, fun clocked up first => ?_, fun clocked down => ?_⟩
    · exact writes clocked reach (aonCmpArm_arms armed)
    · exact always (comparatorMatch_pulses armed clocked valid asleep)
    · exact always (comparatorMatch_disarmed disarmed)
    · exact always (wakeInEdge_pulses on long masked)
    · exact always (wakeInEdge_short short)
    · exact runs clocked rfl
    · exact runs clocked (calStep_first other first)
    · exact runs clocked (calStarved_first up first)
    · exact runs clocked (calStarved_down down)

end Sys2Proof.Machine
end

section
/-! Obligation O60: what the resets keep, the rails, PERST#, and the first second. -/

namespace Sys2Proof.Machine

/-! ### What every reset keeps (R767, R830, R831) -/

theorem tget_tmap {α : Type} (f : α → α) (t : Tab α) {d : α} (fixed : f d = d) (k : Nat) : tget (tmap f t) d k = f (tget t d k) := by
  induction t with
  | nil => exact fixed.symm
  | cons x t ih =>
    show (if x.1 = k then f x.2 else tget (tmap f t) d k) = f (if x.1 = k then x.2 else tget t d k)
    rw [apply_ite f, ih]

theorem Chip.mbr_keepAlways (c : Chip) (m : Nat) : c.keepAlways.mbr m = (c.mbr m).keep := tget_tmap Member.keep c.members rfl m

/-- Every reset keeps the members' contents. -/
theorem Chip.media_keepAlways (c : Chip) (m : Nat) : (c.keepAlways.mbr m).media = (c.mbr m).media := by
  rw [c.mbr_keepAlways]
  rfl

/-- `t` has the fuses, the members, the vault's images and the straps of `c`. -/
def Chip.ContentsKept (c t : Chip) : Prop := t.sec = c.sec ∧ t.members = c.members ∧ t.par = c.par

theorem Chip.ContentsKept.trans {c d t : Chip} (first : c.ContentsKept d) (second : d.ContentsKept t) : c.ContentsKept t :=
  ⟨second.1.trans first.1, second.2.1.trans first.2.1, second.2.2.trans first.2.2⟩

section
variable (c : Chip)

theorem Chip.dumpStart_kept : c.ContentsKept c.dumpStart := by
  unfold Chip.dumpStart
  dsimp only
  split <;> exact ⟨rfl, rfl, rfl⟩

theorem Chip.dumpEnd_kept : c.ContentsKept c.dumpEnd := by
  unfold Chip.dumpEnd
  dsimp only
  split
  · exact ⟨rfl, rfl, rfl⟩
  · split <;> exact ⟨rfl, rfl, rfl⟩

theorem Chip.dumpWhole_kept : c.ContentsKept c.dumpWhole := by
  unfold Chip.dumpWhole
  split
  · exact ⟨rfl, rfl, rfl⟩
  · exact c.dumpStart_kept.trans c.dumpStart.dumpEnd_kept

theorem Chip.assertErr_kept : c.ContentsKept c.assertErr := by
  unfold Chip.assertErr
  split <;> exact ⟨rfl, rfl, rfl⟩

theorem Chip.assertErr_vault : c.assertErr.vault = c.vault := by
  unfold Chip.assertErr
  split <;> rfl

/-- The state that a chip reset starts from: after its dump, with ERR_OUT driven. -/
def Chip.beforeReset (dump : Bool) : Chip := (if dump then c.dumpWhole else c).assertErr

theorem Chip.beforeReset_kept (dump : Bool) : c.ContentsKept (c.beforeReset dump) := by
  unfold Chip.beforeReset
  cases dump with
  | true => exact c.dumpWhole_kept.trans (Chip.assertErr_kept _)
  | false => exact c.assertErr_kept

theorem Chip.chipReset_eq (kind rec cause : Nat) (dump : Bool) : c.chipReset kind rec cause dump =
    { ((c.beforeReset dump).emit .lineIdle).keepAlways with
      blocks := (c.beforeReset dump).keepSplit
      evr := (c.beforeReset dump).keepEvr
      aon := { (c.beforeReset dump).aon with kind := kind, record := rec, cause := cause, ns := c.nowNs } } := rfl

/-- A power-on reset keeps the fuses, the vault and the members' contents. -/
theorem powerOnReset_keeps (unit pref : Bool) : ∃ k : Chip, c.ContentsKept k ∧ k.vault = c.vault ∧ ∃ age vault,
    c.powerOn unit pref = { k.keepAlways with par := { unit := unit, pref := pref }, age := age, vault := vault, pwr := {} } ∧
      vault = { k.vault.keep with pwrFail := false } :=
  ⟨c.assertErr, c.assertErr_kept, c.assertErr_vault, _, _, rfl, rfl⟩

theorem railsRemoved_off (on : c.pwr.state ≠ .off) : ∃ grd age vault, railsRemovedOp c =
    { c.keepAlways with grd := grd, age := age, vault := vault, pwr := { state := .off } } ∧ vault = { c.vault.keep with pwrFail := false } :=
  ⟨_, _, _, if_neg on, rfl⟩

end

/-! ### PERST# and the first second (R830, R832, R840) -/

section
variable {c : Chip} {port : Bool}

/-- A port's functions are 64 from its physical function on. -/
theorem mem_flrSet_port {f : Nat} : f ∈ flrSet (64 * b2n port) ↔ f / 64 = b2n port := by
  have physical : isPf (64 * b2n port) = true := by cases port <;> rfl
  rw [flrSet, if_pos physical, List.mem_map]
  constructor
  · rintro ⟨k, inside, rfl⟩
    have := List.mem_range.mp inside
    omega
  · intro own
    exact ⟨f % 64, List.mem_range.mpr (Nat.mod_lt _ (by decide)), by omega⟩

/-- Which place comes next does not depend on the power state. -/
theorem Chip.takeSeq_pwr (p : Pwr) : ({ c with pwr := p }).takeSeq.1 = c.takeSeq.1 := by
  unfold Chip.takeSeq
  split <;> rfl

theorem perstAssert_resets (on : c.pwr.state ≠ .off) : (perstAssertOp port c).pwr = { c.pwr with perst := c.pwr.perst ||| 2 ^ b2n port } ∧
    (∀ f, f / 64 = b2n port → (perstAssertOp port c).fn f = { c.fn f with flr := some c.takeSeq.1, msix := [] }) ∧
    ∀ f, f / 64 ≠ b2n port → (perstAssertOp port c).fn f = c.fn f := by
  let d : Chip := { c with pwr := { c.pwr with perst := c.pwr.perst ||| 2 ^ b2n port } }
  have op : perstAssertOp port c = d.startFlr (64 * b2n port) := if_neg on
  obtain ⟨l, n, p, began, inside, outside⟩ := d.startFlr_begins (64 * b2n port)
  rw [op]
  refine ⟨by rw [began], fun f own => ?_, fun f other => ?_⟩
  · exact (inside f (mem_flrSet_port.mpr own)).trans (by rw [Chip.takeSeq_pwr]; rfl)
  · exact outside f (mt mem_flrSet_port.mp other)

theorem perstDeassert_held (held : bitAt c.pwr.perst (b2n port) = true) :
    perstDeassertOp port c = { c with pwr := { c.pwr with perst := c.pwr.perst - 2 ^ b2n port } } := by
  unfold perstDeassertOp
  dsimp only
  rw [held, show b2n true = 1 from rfl, one_mul]

theorem perstDeassert_free (free : bitAt c.pwr.perst (b2n port) = false) : perstDeassertOp port c = c := by
  unfold perstDeassertOp
  dsimp only
  rw [free, show b2n false = 0 from rfl, zero_mul]
  rfl

theorem memberGroupTrain_trained {g : Fin 12} (trained : g.val ∈ c.pwr.groupsTrained) : memberGroupTrainOp g c = c :=
  if_pos (List.contains_iff_mem.mpr trained)

theorem memberGroupTrain_first {g : Fin 12} {u : Nat} (instant : nsUp (50000000 + 20000000 * g.val) = u) (first : g.val ∉ c.pwr.groupsTrained) :
    memberGroupTrainOp g c = { c.passUp u with pwr := { c.pwr with groupsTrained := c.pwr.groupsTrained ++ [g.val] } } := by
  unfold memberGroupTrainOp
  rw [if_neg (mt List.contains_iff_mem.mp first), instant]
  rfl

/-- A training with no unit of an earlier one held gives back nothing. -/
theorem couplerTrained_fresh {credits : W32} (fresh : (c.pool 3).held = 0) : couplerTrainedOp credits c = Chip.giveBack { c with
    par := { c.par with trained := true, credits := credits.toNat, creditCap := credits.toNat, owed := 0 } } 3 0 := by
  unfold couplerTrainedOp
  rw [fresh]
  rfl

end

/-- Settles O60: each reset by what `keepAlways` keeps, PERST# by the reset of its port's functions. -/
theorem resetsAndStart : Obligations.ResetsAndStart := by
  unfold Obligations.ResetsAndStart
  have runs : ∀ {s : State} (_ : s.chip.clocked = true) {op : Chip → Chip} {t : Chip}, op s.chip = t → onChip op s = .next (s.put t) :=
    fun clocked _ _ result => (onChip_clocked _ clocked).trans (congrArg _ (congrArg _ result))
  have always : ∀ {s : State} {op : Chip → Chip} {t : Chip}, op s.chip = t → onAon op s = .next (s.put t) :=
    fun result => (onAon_eq _ _).trans (congrArg _ (congrArg _ result))
  refine ⟨fun s w unit pref => ?_, fun s port g credits => ?_⟩
  · intro c
    refine ⟨?_, fun clocked reach => onWrite_reached _ clocked reach, fun clocked => ?_, fun off => always (if_pos off), fun kind rec cause dump => ?_, fun on => ?_,
      fun off => always (if_pos off)⟩
    · obtain ⟨k, ⟨sec, members, par⟩, vault, age, v, op, image⟩ := powerOnReset_keeps c unit pref
      refine ⟨s.put (c.powerOn unit pref), always rfl, s.put_pending _, ?_⟩
      rw [State.put_chip, op, image, ← sec, ← vault]
      refine ⟨rfl, rfl, rfl, rfl, rfl, rfl, rfl, rfl, rfl, rfl, rfl, rfl, rfl, rfl, rfl, rfl, fun m => ?_⟩
      exact (k.media_keepAlways m).trans (congrArg (fun l => (tget l {} m).media) members)
    · obtain ⟨on, awake⟩ := Chip.clocked_awake clocked
      exact always ((if_neg on).trans (if_neg awake))
    · obtain ⟨sec, members, par⟩ := c.beforeReset_kept dump
      rw [Chip.chipReset_eq, ← sec, ← par]
      refine ⟨rfl, rfl, rfl, rfl, rfl, rfl, rfl, rfl, rfl, rfl, rfl, fun m => ?_⟩
      exact ((c.beforeReset dump).media_keepAlways m).trans (congrArg (fun l => (tget l {} m).media) members)
    · obtain ⟨grd, age, v, op, image⟩ := railsRemoved_off c on
      refine ⟨s.put (railsRemovedOp c), always rfl, s.put_pending _, ?_⟩
      rw [State.put_chip, op, image]
      exact ⟨rfl, rfl, rfl, rfl, rfl, rfl, c.media_keepAlways⟩
  · intro c p
    refine ⟨fun on => ?_, fun held => always (perstDeassert_held held), fun free => always (perstDeassert_free free), fun clocked first => ?_,
      fun clocked trained => runs clocked (memberGroupTrain_trained trained), fun clocked => runs clocked rfl,
      fun clocked fresh => runs clocked (couplerTrained_fresh fresh)⟩
    · refine ⟨s.put (perstAssertOp port c), always rfl, s.put_pending _, ?_⟩
      rw [State.put_chip]
      exact perstAssert_resets on
    · obtain ⟨u, instant⟩ : ∃ u, nsUp (50000000 + 20000000 * g.val) = u := ⟨_, rfl⟩
      rw [instant]
      exact runs clocked (memberGroupTrain_first instant first)

end Sys2Proof.Machine
end
